-- ==== Sys2Proof/Word.lean ====
section
/-! DEFINITION. The word and byte types (R7: every register is 32 bits wide). -/

namespace Sys2Proof

/-- A register's contents (R7). -/
abbrev Word := BitVec 32

/-- One byte of a memory, a queue or a line. -/
abbrev Byte := BitVec 8

end Sys2Proof
end

