-- ==== Sys2Proof/Syntax.lean ====
section
/-! DEFINITION. The commands of the block: one constructor per row of spec/opcode_table.json, in the table's order.
The operands are what the outside world supplies: which instance, the word written, the level on a ball, a measured
value, the outcome of what the specification leaves to the outside. -/

namespace Sys2Proof

/-- Requester paths, Table 4.2. -/
inductive Path where
  | mon | hsp | dlnk | fab
  deriving DecidableEq, Repr

/-- Code of a path, Table 4.2. -/
def Path.code : Path → Nat
  | .mon => 0 | .hsp => 1 | .dlnk => 2 | .fab => 3

/-- A byte address in the register window (R93). -/
abbrev Addr := BitVec 24

/-- A unit that takes part in commits (R134): a switched domain (page PWR), a clock generator (page ISL), the unit of
a nib bank, the fence unit of an island, the tracing unit. -/
inductive CUnit where
  | dom (d : Nat) | gen (g : Nat) | bank (k : Nat) | fence (x : Nat) | trc
  deriving DecidableEq, Repr

/-- A handshake port (source island and direction 0 N, 1 E, 2 S, 3 W) or a long channel with the islands the image
binds it to (R225). -/
inductive HsPort where
  | nb (src : Fin 48) (dir : Fin 4)
  | long (c : Fin 16) (src dst : Fin 48)
  deriving DecidableEq, Repr

/-- A crossing into an island: a handshake port or long channel, the fabric master port, the user-window port
(WEDGE_INFO.PORT, Table 7.4). -/
inductive Crossing where
  | hs (h : HsPort) | master | window
  deriving DecidableEq, Repr

/-- What one port of a block memory does on an edge (R231): a read, or a write of the bytes that `be` enables. `flip`: bits of
the word upset since it was last accessed. -/
inductive BramAct where
  | read (w : Fin 512) (flip : BitVec 72)
  | write (w : Fin 512) (d : BitVec 64) (be : BitVec 8) (flip : BitVec 72)
  deriving DecidableEq, Repr

/-- The design's answer to a user-window access (R250). -/
inductive UwAns where
  | claim (rdata : Word) | noclaim
  deriving DecidableEq, Repr

/-- Z of an arithmetic slice (R242). -/
inductive SliceZ where
  | zero | p | c | cascade
  deriving DecidableEq, Repr

/-- End of a cable as the reflection shows it (R74). -/
inductive CableEnd where
  | open | short | none
  deriving DecidableEq, Repr

/-- Source of a TDC edge (R372): a nib, or a TIN input whose balls now stand at `vp` and `vn` millivolts (R381). -/
inductive TdcSrc where
  | nib (n : Fin 336) | tin (t : Fin 4) (vp vn : Int)
  deriving DecidableEq, Repr

/-- The kinds of read request of a DMA channel (Table 14.5). -/
inductive DmaRead where
  | desc | idx | elem
  deriving DecidableEq, Repr

/-- An access that does not complete (R122): a single one, a write of `w` or a read; word `w` of an HSP write after the
words `ws`; word `n` of an HSP read of L + 1 words; word `n` of the oldest Draught request; word `n` of the `rd` or `wr`
line that the monitor performs. `ans`: the design's answers to user-window words before it. -/
inductive Hung where
  | one (p : Path) (a : Addr) (w : Option Word)
  | hspWrite (a : Addr) (ws : List Word) (w : Word) (ans : List UwAns)
  | hspRead (a : Addr) (l n : Fin 32) (ans : List UwAns)
  | draught (n : Fin 32) (ans : List UwAns)
  | monitor (n : Fin 16) (ans : List UwAns)
  deriving DecidableEq, Repr

/-- Who writes memory: a DMA channel, or spill (R413). -/
inductive MemWriter where
  | dma (c : Fin 32) | spill
  deriving DecidableEq, Repr

/-- A received Draught packet with a good CRC: header words 0 to 3, payload and tag as they stand on the line
(Table 15.4). -/
structure Packet where
  w0 : Word
  w1 : Word
  w2 : Word
  w3 : Word
  pay : List Word
  tag : List Byte
  deriving DecidableEq, Repr

/-- The commands (opcode_table.json). A row that is a write with a command bit or code set (START, GO, CLR ...) takes the
rest of the word as its operand: the word is written with that bit set, or that code in place. -/
inductive Instr where
  /-- POWER_ON: VAON falls below its good threshold (R39). -/
  | powerOn
  /-- RAIL_GOOD: rail `r` (RAIL_GOOD bit order) rises above its good threshold; `inLimits`: its ramp kept R32. -/
  | railGood (r : Fin 13) (inLimits : Bool)
  /-- RAIL_LOSS: rail `r`, which is not VAON, falls below its loss level for 2 µs (R38). -/
  | railLoss (r : Fin 13)
  /-- RST_N_ASSERT: RST_N low for 1 µs or longer, or a shorter pulse of at least 100 ns that is taken (R62). -/
  | rstNAssert
  /-- RST_N_RELEASE: RST_N rises; `prog`: runs of bytes programmed into the flash while it was low (R258). -/
  | rstNRelease (prog : List (Nat × List Byte))
  /-- STEEP_START (R63). -/
  | steepStart
  /-- STEEP_HEADER_CHECK: step 1 of Steep ends (R80, R81, R260). -/
  | steepHeaderCheck
  /-- STEEP_PLL0_LOCK_TIMEOUT (R77). -/
  | steepPll0LockTimeout
  /-- RAIL_SURVEY: the 13 rails in mV as the ADC measures them (R69). -/
  | railSurvey (mv : List Nat)
  /-- FSENSE_SURVEY: the 8 ball voltages in mV (R69). -/
  | fsenseSurvey (mv : List Nat)
  /-- NIB_IDLE_SURVEY: the idle voltages of the 336 nibs in mV (step 4). -/
  | nibIdleSurvey (mv : List Nat)
  /-- LOAD_SURVEY_RUN: one run on `nib`; the readings in mV at 0.5 ms and 1.0 ms for 1 mA, 100 µA and 10 µA, as far as
  the run went (R70, R582). -/
  | loadSurveyRun (nib : Fin 336) (readings : List (Nat × Nat))
  /-- CABLE_SURVEY: the next of the 64 shots of `nib`, or all of them: their round trips in TDC LSBs, and the end that they
  show (R74). -/
  | cableSurvey (nib : Fin 336) (shots : List Nat) (fin : CableEnd)
  /-- STEEP_LANE_RESULT: lane `n` finishes training or reaches 50 ms (R78). -/
  | steepLaneResult (n : Fin 8)
  /-- STEEP_END (R17, R79). -/
  | steepEnd
  /-- SURVEY_OVERRIDE: a write of SURV.OVERRIDE (R88). -/
  | surveyOverride (p : Path) (w : Word)
  /-- GERMINATE_ISLAND_LOAD: the load of the next filled island `x` completes; `bad`: a frame whose readback differs (R266). -/
  | germinateIslandLoad (x : Fin 48) (bad : Option (Fin 1024))
  /-- KILN_SELFTEST_RESULT: the self-test pass of Kiln has ended (R527). -/
  | kilnSelftestResult
  /-- KILN_ARM: every PLL that feeds a bank clock is locked (R82, R197). -/
  | kilnArm
  /-- KILN_LOCK_TIMEOUT: 100 ms passed without that (R82). -/
  | kilnLockTimeout
  /-- BANK_ARM: bank `k` is armed on an edge of its clock (R83). -/
  | bankArm (k : Fin 7)
  /-- REGISTER_WRITE: a write on path `p` (R103). -/
  | registerWrite (p : Path) (a : Addr) (w : Word)
  /-- ACCESS_WEDGE_TIMEOUT: the access does not complete within 2^20 cycles of its destination clock (R122). -/
  | accessWedgeTimeout (h : Hung)
  /-- HSP_WRITE: an HSP WRITE transaction of 1 to 32 words; `ans`: the design's answers to its user-window words (R107). -/
  | hspWrite (a : Addr) (ws : List Word) (ans : List UwAns)
  /-- HSP_READ: an HSP READ transaction of L + 1 words (R107). -/
  | hspRead (a : Addr) (l : Fin 32) (ans : List UwAns)
  /-- HSP_WRITE4: the same on four lines. -/
  | hspWrite4 (a : Addr) (ws : List Word) (ans : List UwAns)
  /-- HSP_READ4: the same on four lines. -/
  | hspRead4 (a : Addr) (l : Fin 32) (ans : List UwAns)
  /-- HSP_UNDEFINED_COMMAND: the command byte `c` is none of Table 4.3 (R111). -/
  | hspUndefinedCommand (c : Byte)
  /-- HSP_CS_EARLY_RISE: HSP_CS_N rises after the words `ws` of a write (or the first `n` words of a read) were
  performed (R110). -/
  | hspCsEarlyRise (a : Addr) (ws : Option (List Word)) (n : Fin 33) (ans : List UwAns)
  /-- STAGE_EN_WRITE: a write of PAGE_CTRL of page `pg` (R128). -/
  | stageEnWrite (p : Path) (pg : BitVec 12) (w : Word)
  /-- RWS_WRITE: a write of a staged register (R130). -/
  | rwsWrite (p : Path) (a : Addr) (w : Word)
  /-- COMMIT: a write of SYS.COMMIT (R132). -/
  | commit (p : Path) (w : Word)
  /-- COMMIT_UNIT_DECIDE: the units `us` reach their first safe boundary after PREPARE on one instant (R134). -/
  | commitUnitDecide (us : List CUnit)
  /-- COMMIT_PREPARE_TIMEOUT (R135). -/
  | commitPrepareTimeout
  /-- COMMIT_UNIT_APPLY: the units `us`, on one clock edge, apply and acknowledge (R139). -/
  | commitUnitApply (us : List CUnit)
  /-- COMMIT_APPLY_TIMEOUT: `u` fails to acknowledge (R122, Table 4.6). -/
  | commitApplyTimeout (u : CUnit)
  /-- DOMAIN_POWER_UP_DONE (R52). -/
  | domainPowerUpDone (d : Fin 64)
  /-- DOMAIN_POWER_DOWN_DONE (R52). -/
  | domainPowerDownDone (d : Fin 64)
  /-- TIMESTAMP_LATCH_READ: a read on path `p` of the LO half `a` of a 48-bit counter (R127, R288, R369). -/
  | timestampLatchRead (p : Path) (a : Addr)
  /-- SYS_RESET_WRITE: a write of SYS.RESET (R568, R573). -/
  | sysResetWrite (p : Path) (w : Word)
  /-- SYS_RESET_ASSERT: the response to the qualifying write has been given (R569). -/
  | sysResetAssert
  /-- REF_WINDOW_END: a window of reference `r` ends with `count`; `throughout`: it had edges throughout; `now`: it has
  edges now (R148). -/
  | refWindowEnd (r : Fin 4) (count : Nat) (throughout now : Bool)
  /-- REF_EDGES_STOP (R149). -/
  | refEdgesStop (r : Fin 4)
  /-- REF_CONFIG_WRITE: a write of REFr_CTRL (0), REFr_EXP (1) or REFr_TOL (2) (R605). -/
  | refConfigWrite (p : Path) (r : Fin 4) (reg : Fin 3) (w : Word)
  /-- PLL_CONFIG_WRITE: a write of PLLp CTRL (0), DIV (1), OUTDIV (2) or LOCK (3) (R156). -/
  | pllConfigWrite (p : Path) (k : Fin 4) (reg : Fin 4) (w : Word)
  /-- PLL_REFSEL_WRITE (R606). -/
  | pllRefselWrite (p : Path) (k : Fin 4) (w : Word)
  /-- PLL_CALIBRATION_DONE: the VCO of PLL `k` measures `mhz` (R154). -/
  | pllCalibrationDone (k : Fin 4) (mhz : Nat)
  /-- PLL_LOCK_WINDOW_END: a lock window of PLL `k` ends with `count` VCO cycles (R152). -/
  | pllLockWindowEnd (k : Fin 4) (count : Nat)
  /-- PLL_SWITCH_INPUT (R158). -/
  | pllSwitchInput (k : Fin 4)
  /-- PLL_REVERT_HOLDOFF_EXPIRE (R160). -/
  | pllRevertHoldoffExpire (k : Fin 4)
  /-- SYNC_ARM: a write of SYNC_CMD with ARM (R163). -/
  | syncArm (p : Path) (w : Word)
  /-- SYNC_DISARM: a write of SYNC_CMD with DISARM (R163). -/
  | syncDisarm (p : Path) (w : Word)
  /-- SYNC_IN_EDGE: an edge of SYNC_IN; `ignored`: it ended a phase shorter than 10 ns and is ignored (R163). -/
  | syncInEdge (rising ignored : Bool)
  /-- PLL_OUTPUT_RESTART (R164). -/
  | pllOutputRestart (k : Fin 4)
  /-- GENERATOR_FALLBACK (R172). -/
  | generatorFallback (g : Fin 66)
  /-- GENERATOR_FALLBACK_STOP: the fallback of a generator on fallback stops, or runs again (R173). -/
  | generatorFallbackStop (g : Fin 66)
  /-- GENERATOR_RETURN (R174). -/
  | generatorReturn (g : Fin 66)
  /-- HANDSHAKE_TRANSFER: the design at the source launches `d` (none: nothing new), the design at the destination has
  consumed `took` queue entries, and what is offered crosses, or (R227) the crossing has stopped working (R179, R226). -/
  | handshakeTransfer (h : HsPort) (d : Option (BitVec 64)) (took : Nat) (crosses : Bool)
  /-- HANDSHAKE_WEDGE (R227). -/
  | handshakeWedge (c : Crossing)
  /-- CUTOVER_REQUEST: a write of CUT.CMD (R203). -/
  | cutoverRequest (p : Path) (w : Word)
  /-- CUTOVER_CANCEL: a write of CUT.CMD (R204). -/
  | cutoverCancel (p : Path) (w : Word)
  /-- QUIET_POINT_EVENT: the selected event reaches group `g` (R206). -/
  | quietPointEvent (g : Fin 32)
  /-- CUTOVER_TIMEOUT (R207); `same`: the quiet-point event under way reaches the group in the same bank-clock cycle (R218). -/
  | cutoverTimeout (g : Fin 32) (same : Bool)
  /-- CUTOVER_SWITCH: the switching edge of group `g` (R210). -/
  | cutoverSwitch (g : Fin 32)
  /-- BRAM_READ: port `b` (0 A, 1 B) of memory `m` of island `x` reads word `w`; `flip`: bits upset since the word was
  last accessed (R233); `other`: what the other port does on the same edge (R252, R253). -/
  | bramRead (x : Fin 48) (m : Fin 24) (b : Fin 2) (w : Fin 512) (flip : BitVec 72) (other : Option BramAct)
  /-- BRAM_WRITE_FULL (R235). -/
  | bramWriteFull (x : Fin 48) (m : Fin 24) (b : Fin 2) (w : Fin 512) (d : BitVec 64) (other : Option BramAct)
  /-- BRAM_WRITE_PARTIAL: byte enables `be` (R236 to R238). -/
  | bramWritePartial (x : Fin 48) (m : Fin 24) (b : Fin 2) (w : Fin 512) (d : BitVec 64) (be : BitVec 8) (flip : BitVec 72)
      (other : Option BramAct)
  /-- FABRIC_MASTER_REQUEST: MP_REQ with word address `a`, write data or none for a read (R247). -/
  | fabricMasterRequest (a : BitVec 22) (w : Option Word)
  /-- USER_WINDOW_ACCESS: a single access on path `p` to a user-window address (R249). -/
  | userWindowAccess (p : Path) (a : Addr) (w : Option Word)
  /-- USER_WINDOW_ANSWER: the design answers the oldest forwarded access (R250). -/
  | userWindowAnswer (ans : UwAns)
  /-- USER_WINDOW_TIMEOUT (R250). -/
  | userWindowTimeout
  /-- FI_ECC_CLR: a write of FIxx.ECC_CLR (R234). -/
  | fiEccClr (p : Path) (x : Fin 48) (w : Word)
  /-- ISLAND_DRAINED (R270). -/
  | islandDrained (x : Fin 48)
  /-- PR_REQUEST: a write of CFGC.PR_CMD (R271). -/
  | prRequest (p : Path) (w : Word)
  /-- PR_COMPLETE: the stages left of a partial reconfiguration, or with `one` the next alone; `bad`: a frame whose readback
  differs (R272). -/
  | prComplete (bad : Option (Fin 1024)) (one : Bool)
  /-- BLOTTER_FRAME_READ: the frame in progress is read; `flips`: (word, bits) upset since it was written (R279). -/
  | blotterFrameRead (flips : List (Fin 32 × BitVec 72))
  /-- BLOTTER_INTERVAL_EXPIRE (R279). -/
  | blotterIntervalExpire
  /-- BLOTTER_RELOAD: the reload of the frame completes; `bad`: words upset before its readback (R283). -/
  | blotterReload (flips : List (Fin 32 × BitVec 72))
  /-- BLOTTER_CTRL_WRITE: a write of BLOT.CTRL (R280). -/
  | blotterCtrlWrite (p : Path) (w : Word)
  /-- BLOT_CNT_CLR: a write of BLOT.CNT_CLR (R281). -/
  | blotCntClr (p : Path) (w : Word)
  /-- CAPTURE_ARM: a write of CAP.CMD with ARM (R292). -/
  | captureArm (p : Path) (w : Word)
  /-- CAPTURE_STOP: a write of CAP.CMD with STOP (R312). -/
  | captureStop (p : Path) (w : Word)
  /-- CAPTURE_TRIG: a write of CAP.CMD with TRIG (R294). -/
  | captureTrig (p : Path) (w : Word)
  /-- CAPTURE_TRIGGER: a pulse on the trigger line reaches the engine (R294). -/
  | captureTrigger
  /-- CAPTURE_POST_DONE (R295). -/
  | capturePostDone
  /-- INKWELL_FULL (R307). -/
  | inkwellFull
  /-- THROTTLE_OFF (R310). -/
  | throttleOff
  /-- SPILL_LINE_ACK: the response to line write `n` (counted since ARM) reaches the engine (R304). -/
  | spillLineAck (n : Nat)
  /-- INK_RD_WRITE: a write of INK.RD, or of SPILL_RD (R302). -/
  | inkRdWrite (p : Path) (spill : Bool) (w : Word)
  /-- INK_WINDOW_READ: a read of WIN_LO, or of WIN_HI; `flip`: bits upset since the word was last written (R303). -/
  | inkWindowRead (p : Path) (hi : Bool) (flip : BitVec 72)
  /-- QUILL_START: a write of QCXx.CMD with START (R341). -/
  | quillStart (p : Path) (x : Fin 8) (w : Word)
  /-- QUILL_STOP: a write of QCXx.CMD with STOP (R333). -/
  | quillStop (p : Path) (x : Fin 8) (w : Word)
  /-- QUILL_HOST_TRAP: a write of QCXx.CMD with TRAP (R329). -/
  | quillHostTrap (p : Path) (x : Fin 8) (w : Word)
  /-- QUILL_NOP: context `x` executes a NOP word on its next Quill edge (R318). -/
  | quillNop (x : Fin 8)
  /-- QUILL_CINC (R322). -/
  | quillCinc (x : Fin 8)
  /-- QUILL_CCLR (R322). -/
  | quillCclr (x : Fin 8)
  /-- QUILL_TSTART (R322). -/
  | quillTstart (x : Fin 8)
  /-- QUILL_TSTOP (R322). -/
  | quillTstop (x : Fin 8)
  /-- QUILL_IRQ (R318). -/
  | quillIrq (x : Fin 8)
  /-- QUILL_CSTOP (R321). -/
  | quillCstop (x : Fin 8)
  /-- QUILL_SETPOL (R321). -/
  | quillSetpol (x : Fin 8)
  /-- QUILL_HALT (R333). -/
  | quillHalt (x : Fin 8)
  /-- QUILL_RETT (R328). -/
  | quillRett (x : Fin 8)
  /-- MICRO_TRAP: the next Quill edge of context `x` is a trap edge; `flip`: bits of the word at its address upset since
  it was written (R325). -/
  | microTrap (x : Fin 8) (flip : BitVec 99)
  /-- QST_WRITE_HOLD: a write of QST.W0 (0) or W1 (1) (R342). -/
  | qstWriteHold (p : Path) (i : Fin 2) (w : Word)
  /-- QST_STORE_WRITE: a write of QST.W2 (R342). -/
  | qstStoreWrite (p : Path) (w : Word)
  /-- QST_READ: a read of W0, W1 or W2; `flip`: bits of the word upset since it was written (R342). -/
  | qstRead (p : Path) (i : Fin 3) (flip : BitVec 99)
  /-- LIMIT_HI_WRITE: a write of LIMk_HI (`k` 0 to 3) or TLIMt_HI (`k` 4 + t) (R338). -/
  | limitHiWrite (p : Path) (x : Fin 8) (k : Fin 6) (w : Word)
  /-- QUILL_DT_CLR: a write of QCXx.DT_CLR (R335). -/
  | quillDtClr (p : Path) (x : Fin 8) (w : Word)
  /-- TRACE_EDGE: the pair of output nib `n` takes the change of its legacy or replacement value at the last capture edge
  (R347). -/
  | traceEdge (n : Fin 336) (legacy : Bool)
  /-- TRACE_DIVERGENCE (R349). -/
  | traceDivergence (n : Fin 336)
  /-- TRACE_RESYNC (R350). -/
  | traceResync (n : Fin 336)
  /-- TRANSACTION_DECIDE: the oldest transaction of comparator `k` (R354). -/
  | transactionDecide (k : Fin 8)
  /-- TRACE_RUN_WRITE: a write of TRC.CTRL (R367). -/
  | traceRunWrite (p : Path) (w : Word)
  /-- TRACE_QUEUE_POP: a read of TRC.Q_W0 (R361). -/
  | traceQueuePop (p : Path)
  /-- TRC_STAT_CLR: a write of TRC.STAT_CLR (R360). -/
  | trcStatClr (p : Path) (w : Word)
  /-- TDC_EDGE: an edge at a nib or a TIN input, `rising` also where the accuracy of a TIN threshold leaves the level open; for
  each half the generator edges counted since the timebase was last brought up to date, and the interpolator step (R374, R381,
  R382). -/
  | tdcEdge (src : TdcSrc) (rising : Bool) (a b : Nat × Nat)
  /-- TDC_ZERO: a write of TDC0.CMD (R371). -/
  | tdcZero (p : Path) (w : Word)
  /-- TDC_CHANNEL_CONFIG_WRITE: a write of CHi_CFG of channel `c`, or of TINt_CFG (`c` = 32 + t) (R388). -/
  | tdcChannelConfigWrite (p : Path) (c : Fin 36) (w : Word)
  /-- TDC_QUEUE_POP: a read of Q_W0 of channel `c` (R378). -/
  | tdcQueuePop (p : Path) (c : Fin 32)
  /-- TDC_RECALIBRATE (R380). -/
  | tdcRecalibrate (c : Fin 32)
  /-- TIN_FREQ_WINDOW: a one-second window of TIN `t` ends; `active`: an edge in the last 1 µs
  (R384). -/
  | tinFreqWindow (t : Fin 4) (active : Bool)
  /-- MEMC_INIT: a write of MEMC.CMD with INIT (R417). -/
  | memcInit (p : Path) (w : Word)
  /-- MEMC_STOP: a write of MEMC.CMD with STOP (R419). -/
  | memcStop (p : Path) (w : Word)
  /-- MEMC_FILL: a write of MEMC.CMD with FILL (R418). -/
  | memcFill (p : Path) (w : Word)
  /-- MEMC_TRAIN_DONE: training ends; `fail`: 0, or the failed step 1 to 5 of TRAIN_ERR (R417). -/
  | memcTrainDone (fail : Fin 6)
  /-- MEMC_TRAIN_TIMEOUT: 20 ms passed in the step `step` (R417). -/
  | memcTrainTimeout (step : Fin 6)
  /-- MEMC_FILL_DONE (R418). -/
  | memcFillDone
  /-- DDR_ALERT: a command/address parity error; `again`: the command is the re-issue of the one that met the last (R396). -/
  | ddrAlert (again : Bool)
  /-- MEMORY_READ: the next request of kind `k` of a DMA channel is granted and performed; `flips`: bits of its words or
  beats (16 and 17: the tag word) upset since they were written; `filled`: a FILL in progress has reached the line (R410). -/
  | memoryRead (c : Fin 32) (k : DmaRead) (flips : List (Fin 18 × BitVec 72)) (filled : Bool)
  /-- MEMORY_WRITE: the next element write of DMA channel `c`, or the next line of spill, is granted and performed (R399). -/
  | memoryWrite (r : MemWriter) (flips : List (Fin 18 × BitVec 72)) (filled : Bool)
  /-- XTS_CTRL_WRITE (R423). -/
  | xtsCtrlWrite (p : Path) (w : Word)
  /-- KEY_LOAD: a write of KEYS.CMD with LOAD (R424). -/
  | keyLoad (p : Path) (w : Word)
  /-- KEY_RANDOM: a write of KEYS.CMD with RANDOM (R424). -/
  | keyRandom (p : Path) (w : Word)
  /-- KEY_CLEAR: a write of KEYS.CMD with CLEAR (R424). -/
  | keyClear (p : Path) (w : Word)
  /-- MEMC_ECC_CLR: a write of MEMC.ECC_CLR (R398). -/
  | memcEccClr (p : Path) (w : Word)
  /-- DMA_START: a write of CHi_CMD of channel `c` with START (Table 14.6). -/
  | dmaStart (p : Path) (c : Fin 32) (w : Word)
  /-- DMA_PAUSE (R435). -/
  | dmaPause (p : Path) (c : Fin 32) (w : Word)
  /-- DMA_RESUME (R436). -/
  | dmaResume (p : Path) (c : Fin 32) (w : Word)
  /-- DMA_CANCEL (Table 14.3). -/
  | dmaCancel (p : Path) (c : Fin 32) (w : Word)
  /-- DMA_READ_RESPONSE: the response to request `i` in flight, an index or element read, reaches channel `c`; with a BUF
  source, its next element is read from its buffer (R431). -/
  | dmaReadResponse (c : Fin 32) (i : Nat)
  /-- DMA_WRITE_ACK: the response to request `i` in flight, an element write, reaches channel `c`; with a BUF or LINK
  destination, its next element is taken there (R428, R434). -/
  | dmaWriteAck (c : Fin 32) (i : Nat)
  /-- DMA_DESCRIPTOR_LOAD: the chained descriptor reaches channel `c` (R437). -/
  | dmaDescriptorLoad (c : Fin 32)
  /-- DMA_BUFFER_WRITE: a write of a word of the buffer of channel `c` (R441). -/
  | dmaBufferWrite (p : Path) (c : Fin 32) (i : Fin 64) (w : Word)
  /-- LANE_CONFIG_WRITE: a write of LANEn_CFG (0), REF (1), TX (2) or ENC (3) (R451). -/
  | laneConfigWrite (p : Path) (n : Fin 8) (reg : Fin 4) (w : Word)
  /-- LANE_SYNTH_TIMEOUT (R445). -/
  | laneSynthTimeout (n : Fin 8)
  /-- TRAINING_SET_RECEIVED: symbols 1 to 15 of an ordered set; `bad`: symbol 0 is no comma, or a symbol is a code
  violation or has a disparity error; `metric`: the eye metric; `sent`: sets that the lane has sent since the last
  (R447, R453). -/
  | trainingSetReceived (n : Fin 8) (sym : Vector Byte 15) (bad : Bool) (metric : Fin 128) (sent : Nat)
  /-- LANE_HUNT_TIMEOUT (R449). -/
  | laneHuntTimeout (n : Fin 8)
  /-- LANE_RATE_CHANGE (R450). -/
  | laneRateChange (n : Fin 8)
  /-- EQ_REQUEST_LIMIT (R455). -/
  | eqRequestLimit (n : Fin 8)
  /-- LANE_CV_RETRAIN (R448, Table 15.3). -/
  | laneCvRetrain (n : Fin 8)
  /-- EYE_SCAN_START: a write of SCAN_CTRL (R456). -/
  | eyeScanStart (p : Path) (n : Fin 8) (w : Word)
  /-- EYE_SCAN_DONE: the scan found `errs` mismatches (R456). -/
  | eyeScanDone (n : Fin 8) (errs : Word)
  /-- DRAUGHT_RD: an RD packet arrives on lane `n` (R464, R467). -/
  | draughtRd (n : Fin 8) (k : Packet)
  /-- DRAUGHT_WR (R464, R467). -/
  | draughtWr (n : Fin 8) (k : Packet)
  /-- DRAUGHT_REQUEST_PERFORM: the oldest queued RD or WR; `ans`: the design's answers to its user-window words (R465). -/
  | draughtRequestPerform (ans : List UwAns)
  /-- DRAUGHT_CPL (R466, R467). -/
  | draughtCpl (n : Fin 8) (k : Packet)
  /-- DRAUGHT_STREAM (R466, R467). -/
  | draughtStream (n : Fin 8) (k : Packet)
  /-- DRAUGHT_CREDIT (R467, R469). -/
  | draughtCredit (n : Fin 8) (k : Packet)
  /-- DRAUGHT_ACK (R460). -/
  | draughtAck (n : Fin 8) (k : Packet)
  /-- DRAUGHT_NAK (R462). -/
  | draughtNak (n : Fin 8) (k : Packet)
  /-- DRAUGHT_KEYX (R471). -/
  | draughtKeyx (n : Fin 8) (k : Packet)
  /-- DRAUGHT_UNDEFINED_TYPE (R466). -/
  | draughtUndefinedType (n : Fin 8) (k : Packet)
  /-- REPLAY_TIMEOUT (R462). -/
  | replayTimeout (n : Fin 8)
  /-- ACK_TIMER (R461). -/
  | ackTimer (n : Fin 8)
  /-- STREAM_PACKET_CLOSE: 1 µs after the last element of stream `k` (R469). -/
  | streamPacketClose (k : Fin 16)
  /-- UART_START_EDGE: in hunt the receive line falls at `cycle` of the port's clock (R483). -/
  | uartStartEdge (n : Fin 8) (cycle : Nat)
  /-- UART_RESYNC_EDGE: within a character the line rises at `rise` and falls at `fall` (R486). -/
  | uartResyncEdge (n : Fin 8) (rise fall : Nat)
  /-- UART_CHAR_RECEIVED: the last bit is decided; the line's last rise within the character, or none (R487). -/
  | uartCharReceived (n : Fin 8) (rise : Option Nat)
  /-- UART_BREAK (R499). -/
  | uartBreak (n : Fin 8)
  /-- UART_TXQ_WRITE: a write of TXQ (R506). -/
  | uartTxqWrite (p : Path) (n : Fin 8) (w : Word)
  /-- UART_CHAR_SENT (R482). -/
  | uartCharSent (n : Fin 8)
  /-- UART_SC_REPEAT: the line reads low at 11 etu (R494). -/
  | uartScRepeat (n : Fin 8)
  /-- UART_FCMD: a write of FCMD with GO; `quiet`: the line has been high for the last bit period (R498, R508). -/
  | uartFcmd (p : Path) (n : Fin 8) (w : Word) (quiet : Bool)
  /-- UART_RESPONSE_TIMEOUT (R501). -/
  | uartResponseTimeout (n : Fin 8)
  /-- UART_BIT_ERROR: read-back differs at bit `k` of the field being sent, the line having risen last at `rise`, or standing low
  (R503). -/
  | uartBitError (n : Fin 8) (k : Fin 32) (rise : Option Nat)
  /-- UART_CFG_WRITE: a write of CFG (R509, R510). -/
  | uartCfgWrite (p : Path) (n : Fin 8) (w : Word)
  /-- UART0_BAUD_WRITE: a write of UART0.BAUD (R511). -/
  | uart0BaudWrite (p : Path) (w : Word)
  /-- RXQ_READ: a read of RXQ (R505). -/
  | rxqRead (p : Path) (n : Fin 8)
  /-- BIST_START: a write of BIST.CMD with START (R528). -/
  | bistStart (p : Path) (w : Word)
  /-- BIST_ABORT: a write of BIST.CMD with ABORT (R530). -/
  | bistAbort (p : Path) (w : Word)
  /-- BIST_TARGET_DONE: the test of target `t` ends; `lfail`: its signature differs; `faults`: failing words of the memory
  test (memory, word, bit); `again`: those of the retest after repair (R518 to R521). -/
  | bistTargetDone (t : Fin 64) (lfail : Bool) (faults again : List (Fin 64 × Fin 65536 × Fin 128))
  /-- MON_CHARACTER_RECEIVED: character `c` arrives on UART0 (R534). -/
  | monCharacterReceived (c : Byte)
  /-- MON_ID: the line being performed is an `id` command (R533). -/
  | monId
  /-- MON_STAT: it is a `stat` command (R533). -/
  | monStat
  /-- MON_RD: it is an `rd` command; `ans`: the design's answers to its user-window words (R536). -/
  | monRd (ans : List UwAns)
  /-- MON_WR: it is a `wr` command; `ans`: the design's answer to a user-window word (R536). -/
  | monWr (ans : Option UwAns)
  /-- MON_UNLOCK_PW: it is an `unlock` command (R538). -/
  | monUnlockPw
  /-- MON_CHAL: it is a `chal` command (R540). -/
  | monChal
  /-- MON_RESP: it is a `resp` command (R541). -/
  | monResp
  /-- MON_LOCK: it is a `lock` command (R545). -/
  | monLock
  /-- MON_RESET: it is a `reset` command (R537). -/
  | monReset
  /-- MON_RESET_ASSERT: the reply to `reset` has left U0_TXD (R570). -/
  | monResetAssert
  /-- MON_OTP_PW: it is an `otp` command other than `otp key` (R547). -/
  | monOtpPw
  /-- MON_OTP_KEY: it is an `otp key` command (R547). -/
  | monOtpKey
  /-- MON_UNDEFINED_COMMAND: the line has no defined command word, or is to be answered err 03 (R533, R534). -/
  | monUndefinedCommand
  /-- MON_IDLE_TIMEOUT: IDLE_MIN minutes have passed without a received line (R546). -/
  | monIdleTimeout
  /-- CHALLENGE_EXPIRE: 60 s have passed since the challenge of path `p` was drawn (R540). -/
  | challengeExpire (p : Path)
  /-- UL_PASSWORD: a write of MON.UL_CMD with OP 1 and GO (R548). -/
  | ulPassword (p : Path) (w : Word)
  /-- UL_CHALLENGE: with OP 2 and GO (R548). -/
  | ulChallenge (p : Path) (w : Word)
  /-- UL_RESPONSE: with OP 3 and GO (R548). -/
  | ulResponse (p : Path) (w : Word)
  /-- UL_LOCK: with OP 4 and GO (R548). -/
  | ulLock (p : Path) (w : Word)
  /-- AUTH_PASSWORD: an AUTH packet arrives on a lane, or (none) the oldest request is performed (R549). -/
  | authPassword (arr : Option (Fin 8 × Packet))
  /-- AUTH_CHALLENGE: the same with OP 2 (R549). -/
  | authChallenge (arr : Option (Fin 8 × Packet))
  /-- AUTH_RESPONSE: the same with OP 3 (R549). -/
  | authResponse (arr : Option (Fin 8 × Packet))
  /-- AUTH_LOCK: the same with OP 4 (R549). -/
  | authLock (arr : Option (Fin 8 × Packet))
  /-- TAP_RESET (R551). -/
  | tapReset
  /-- TAP_BYPASS: the code of BYPASS or an undefined code is loaded (R551). -/
  | tapBypass (code : BitVec 6)
  /-- TAP_IDCODE (R552). -/
  | tapIdcode
  /-- TAP_SAMPLE_PRELOAD: `others`: levels of the balls that nothing in the device drives, from cell 336 on; `preload`: the
  values shifted in, a bit for each cell (R553). -/
  | tapSamplePreload (others : BitVec 109) (preload : BitVec 445)
  /-- TAP_EXTEST; `others` as in TAP_SAMPLE_PRELOAD (R553, R554). -/
  | tapExtest (others : BitVec 109)
  /-- TAP_CLAMP (R554). -/
  | tapClamp
  /-- TAP_HIGHZ (R554). -/
  | tapHighz
  /-- IRQ_BALL_UPDATE: ball `i` takes up its sources (R566). -/
  | irqBallUpdate (i : Fin 4)
  /-- HALT_CLR: a write of IRQ.HALT_CLR with CLR (R563). -/
  | haltClr (p : Path) (w : Word)
  /-- RAIL_BELOW_GOOD: rail `r` falls below its good threshold; `inLimits`: its ramp kept R32 (R37). -/
  | railBelowGood (r : Fin 13) (inLimits : Bool)
  /-- PAD_LEVEL_CHANGE: the field drives the conductor of nib `n` to `mv` millivolts, within Table 20.1, or (none) no longer
  drives it; `either`: the level that the comparator takes where the device does not determine it (R187, R188, R577, R609). -/
  | padLevelChange (n : Fin 336) (mv : Option Int) (either : Bool)
  /-- NIB_PORT_CHANGE: the design drives data `d` and output enable `e` on port `j` of island `x` (R195). -/
  | nibPortChange (x : Fin 48) (j : Fin 64) (d e : Bool)
  /-- CAPTURE_SAMPLE: a capture edge; `probes`: probe channels that change; `fall`: samples of the double-edge channels on
  the falling edge before it; `e`: edges of generator 56 that come with it (R297, R301). -/
  | captureSample (probes : List (Fin 64 × Bool)) (fall : List (Fin 336 × Bool)) (e : Nat)
  /-- SLICE_OPERATION: slice `k` of island `x` takes operands A, B, C, its choice of Z, SUB and SAT (R242). -/
  | sliceOperation (x : Fin 48) (k : Fin 32) (a : BitVec 27) (b : BitVec 18) (c : BitVec 48) (z : SliceZ) (sub sat : Bool)
  /-- DRAUGHT_BAD_CRC: a packet with a bad CRC or a framing error arrives on lane `n` (R461). -/
  | draughtBadCrc (n : Fin 8)
  deriving DecidableEq, Repr

end Sys2Proof
end

