-- ==== Sys2Proof/Machine/Bits.lean ====
section
/-! DEFINITION. Bit fields, sign extension, byte order and saturating counts, on natural numbers and words. -/

namespace Sys2Proof.Machine

/-- Bits `lo + w - 1 .. lo` of a number. -/
def bitsOf (n lo w : Nat) : Nat := n / 2 ^ lo % 2 ^ w

/-- `n` with bits `lo + w - 1 .. lo` replaced by `v`. -/
def withBits (n lo w v : Nat) : Nat :=
  n - bitsOf n lo w * 2 ^ lo + (v % 2 ^ w) * 2 ^ lo

/-- Bit `i` of a number as a Bool. -/
def bitOf (n i : Nat) : Bool := n / 2 ^ i % 2 == 1

def b2n (b : Bool) : Nat := if b then 1 else 0

/-- The value of a `w`-bit two's-complement field. -/
def signedOf (w n : Nat) : Int :=
  if n % 2 ^ w < 2 ^ (w - 1) then (n % 2 ^ w : Nat) else ((n % 2 ^ w : Nat) : Int) - (2 ^ w : Nat)

/-- Add to a count that stops at `2^w - 1` ("saturating"). -/
def satAdd (w n k : Nat) : Nat := if n + k < 2 ^ w then n + k else 2 ^ w - 1

/-- Add to a count that wraps at `2^w` ("wrapping"). -/
def wrapAdd (w n k : Nat) : Nat := (n + k) % 2 ^ w

/-- The number made of little-endian bytes. -/
def leNat : List Byte → Nat
  | [] => 0
  | b :: bs => b.toNat + 256 * leNat bs

/-- `n` little-endian bytes of a number. -/
def natLE : Nat → Nat → List Byte
  | 0, _ => []
  | n + 1, v => BitVec.ofNat 8 v :: natLE n (v / 256)

/-- The number made of big-endian bytes. -/
def beNat (bs : List Byte) : Nat := leNat bs.reverse

/-- `n` big-endian bytes of a number. -/
def natBE (n v : Nat) : List Byte := (natLE n v).reverse

/-- Set bits of a number below `n`, ascending. -/
def setBits (v : Nat) (n : Nat) : List Nat := (List.range n).filter (bitOf v)

/-- Number of set bits below `n`. -/
def popCount (v n : Nat) : Nat := (setBits v n).length

/-- First element of `l` that satisfies `p`. -/
def firstWhere {α : Type} (p : α → Bool) : List α → Option α
  | [] => none
  | a :: l => if p a then some a else firstWhere p l

/-- Replace element `i` of a list. -/
def setAt {α : Type} : List α → Nat → α → List α
  | [], _, _ => []
  | _ :: l, 0, v => v :: l
  | a :: l, i + 1, v => a :: setAt l i v

/-- Element `i` of a list, or `d` beyond its end. -/
def atD {α : Type} (d : α) : List α → Nat → α
  | [], _ => d
  | a :: _, 0 => a
  | _ :: l, i + 1 => atD d l i

end Sys2Proof.Machine
end

