-- ==== Sys2Proof/Machine/Crypto.lean ====
section
/-! DEFINITION. The checks and ciphers that the specification names by their standards: CRC-32 (Table 3.4),
SHA-256 and HMAC-SHA-256 (R538, R541), AES-XTS (R403, R404), AES-CMAC (R409), AES-GCM (R470), ECDH on P-256 (R471).
The algorithms' definitions are the standards', which the specification cites and does not repeat (log entry 4). -/

namespace Sys2Proof.Machine

/-! ### CRC-32 (Table 3.4) -/

/-- One bit of the reflected IEEE 802.3 polynomial. -/
def crcBit (c : BitVec 32) : BitVec 32 :=
  if c.getLsbD 0 then (c >>> 1) ^^^ 0xEDB88320#32 else c >>> 1

def crcByte (c : BitVec 32) (b : Byte) : BitVec 32 :=
  let c0 := c ^^^ b.setWidth 32
  crcBit (crcBit (crcBit (crcBit (crcBit (crcBit (crcBit (crcBit c0)))))))

/-- CRC-32 with initial and final value 0xFFFF_FFFF. -/
def crc32 (bs : List Byte) : BitVec 32 :=
  bs.foldl crcByte 0xFFFFFFFF#32 ^^^ 0xFFFFFFFF#32

/-! ### SHA-256 and HMAC -/

/-- The largest `r` with `r ^ e ≤ v`, built from bit `n - 1` down on top of `r`. -/
def rootFrom (e v : Nat) : Nat → Nat → Nat
  | 0, r => r
  | n + 1, r => rootFrom e v n (if (r + 2 ^ n) ^ e ≤ v then r + 2 ^ n else r)

/-- The primes below 312, the first 64 (by trial division). -/
def smallPrimes : List Nat :=
  (List.range 312).filter fun p => 2 ≤ p && (List.range 18).all fun q => q < 2 || q ≥ p || p % q != 0

/-- The first 32 bits of the fraction of the `e`-th root of `p`: the standard's constants. -/
def rootFrac (e p : Nat) : Word := BitVec.ofNat 32 (rootFrom e (p * 2 ^ (32 * e)) 37 0)

/-- Each round's constant: cube roots of the primes. -/
def shaK : List Word := smallPrimes.map (rootFrac 3)

/-- The working words: the last four values of each of the two feedback registers, newest first. -/
structure ShaSt where
  hi : List Word
  lo : List Word
  deriving DecidableEq, Repr

/-- The starting value: square roots of the first eight primes. -/
def shaInit : ShaSt :=
  let h := (smallPrimes.take 8).map (rootFrac 2)
  ⟨h.take 4, h.drop 4⟩

/-- The sum of three rotations. -/
def rot3 (w : Word) (i j k : Nat) : Word := w.rotateRight i ^^^ w.rotateRight j ^^^ w.rotateRight k

/-- One round with its constant and message word added together in `kw`. -/
def shaRound (s : ShaSt) (kw : Word) : ShaSt :=
  match s.hi, s.lo with
  | [p0, p1, p2, p3], [q0, q1, q2, q3] =>
    let t := q3 + kw + rot3 q0 6 11 25 + (q2 ^^^ (q0 &&& (q1 ^^^ q2)))
    ⟨[t + rot3 p0 2 13 22 + ((p0 &&& (p1 ||| p2)) ||| (p1 &&& p2)), p0, p1, p2], [p3 + t, q0, q1, q2]⟩
  | _, _ => s

/-- `n` further schedule words; the list holds the newest first. -/
def shaSched : Nat → List Word → List Word
  | 0, ws => ws
  | n + 1, ws =>
    let at' := atD 0#32 ws
    let x := at' 14
    let y := at' 1
    shaSched n ((at' 15 + at' 6 + (x.rotateRight 7 ^^^ x.rotateRight 18 ^^^ (x >>> 3))
      + (y.rotateRight 17 ^^^ y.rotateRight 19 ^^^ (y >>> 10))) :: ws)

def wordsBE : List Byte → List Word
  | a :: b :: c :: d :: r => BitVec.ofNat 32 (beNat [a, b, c, d]) :: wordsBE r
  | _ => []

def addWords (a b : List Word) : List Word := (a.zip b).map fun p => p.1 + p.2

def shaBlock (s : ShaSt) (blk : List Byte) : ShaSt :=
  let r := (addWords shaK (shaSched 48 (wordsBE blk).reverse).reverse).foldl shaRound s
  ⟨addWords s.hi r.hi, addWords s.lo r.lo⟩

/-- Fold over 64-byte blocks, at most `n` of them. -/
def shaBlocks : Nat → ShaSt → List Byte → ShaSt
  | 0, s, _ => s
  | n + 1, s, bs => if bs.isEmpty then s else shaBlocks n (shaBlock s (bs.take 64)) (bs.drop 64)

/-- SHA-256 of a byte string, 32 bytes. -/
def sha256 (m : List Byte) : List Byte :=
  let z := (64 - (m.length + 9) % 64) % 64
  let p := m ++ [0x80#8] ++ List.replicate z 0#8 ++ natBE 8 (8 * m.length)
  let s := shaBlocks (p.length / 64) shaInit p
  (s.hi ++ s.lo).flatMap (fun w => natBE 4 w.toNat)

/-- HMAC-SHA-256. -/
def hmacSha256 (key m : List Byte) : List Byte :=
  let k0 := if key.length > 64 then sha256 key else key
  let k := k0 ++ List.replicate (64 - k0.length) 0#8
  sha256 (k.map (· ^^^ 0x5c#8) ++ sha256 (k.map (· ^^^ 0x36#8) ++ m))

/-! ### AES (128- and 256-bit keys) -/

/-- Doubling in the AES field. -/
def gfDouble (b : Byte) : Byte := if b.getLsbD 7 then (b <<< 1) ^^^ 0x1b#8 else b <<< 1

def gfMulGo : Nat → Byte → Byte → Byte → Byte
  | 0, _, _, acc => acc
  | n + 1, a, b, acc => gfMulGo n (gfDouble a) (b >>> 1) (if b.getLsbD 0 then acc ^^^ a else acc)

/-- Multiplication in the AES field. -/
def gfMul (a b : Byte) : Byte := gfMulGo 8 a b 0#8

/-- `b^254`, the inverse (and 0 for 0). -/
def gfInv (b : Byte) : Byte :=
  let b2 := gfMul b b
  let b4 := gfMul b2 b2
  let b8 := gfMul b4 b4
  let b16 := gfMul b8 b8
  let b32 := gfMul b16 b16
  let b64 := gfMul b32 b32
  let b128 := gfMul b64 b64
  gfMul b128 (gfMul b64 (gfMul b32 (gfMul b16 (gfMul b8 (gfMul b4 b2)))))

def aesSbox (b : Byte) : Byte :=
  let i := gfInv b
  i ^^^ i.rotateLeft 1 ^^^ i.rotateLeft 2 ^^^ i.rotateLeft 3 ^^^ i.rotateLeft 4 ^^^ 0x63#8

def aesInvSbox (b : Byte) : Byte :=
  gfInv (b.rotateLeft 1 ^^^ b.rotateLeft 3 ^^^ b.rotateLeft 6 ^^^ 0x05#8)

def xorBytes (a b : List Byte) : List Byte := (a.zip b).map (fun p => p.1 ^^^ p.2)

/-- One 4-byte word of the key schedule: `ws` newest first, `nk` words in the key, index `i`. -/
def aesNextW (nk i : Nat) (rcon : Byte) (ws : List (List Byte)) : List Byte :=
  let prev := atD [] ws 0
  let old := atD [] ws (nk - 1)
  let t :=
    if i % nk = 0 then
      xorBytes (((prev.drop 1) ++ prev.take 1).map aesSbox) [rcon, 0#8, 0#8, 0#8]
    else if nk > 6 ∧ i % nk = 4 then prev.map aesSbox
    else prev
  xorBytes old t

def aesExpand : Nat → Nat → Nat → Byte → List (List Byte) → List (List Byte)
  | 0, _, _, _, ws => ws
  | n + 1, nk, i, rc, ws =>
    aesExpand n nk (i + 1) (if i % nk = 0 then gfDouble rc else rc) (aesNextW nk i rc ws :: ws)

def chunk4 : List Byte → List (List Byte)
  | a :: b :: c :: d :: r => [a, b, c, d] :: chunk4 r
  | _ => []

/-- Round keys of 16 bytes each, in order (11 for a 16-byte key, 15 for a 32-byte key). -/
def aesKeys (key : List Byte) : List (List Byte) :=
  let nk := key.length / 4
  let total := 4 * (nk + 7)
  let ws := (aesExpand (total - nk) nk nk 1#8 (chunk4 key).reverse).reverse
  (List.range (nk + 7)).map (fun r => (ws.drop (4 * r)).take 4 |>.flatten)

def aesShiftRows (s : List Byte) : List Byte :=
  (List.range 16).map (fun i => atD 0#8 s ((i + 4 * (i % 4)) % 16))

def aesInvShiftRows (s : List Byte) : List Byte :=
  (List.range 16).map (fun i => atD 0#8 s ((i + 16 - 4 * (i % 4)) % 16))

def aesMixCol (m0 m1 m2 m3 : Byte) (c : List Byte) : List Byte :=
  let a0 := atD 0#8 c 0
  let a1 := atD 0#8 c 1
  let a2 := atD 0#8 c 2
  let a3 := atD 0#8 c 3
  [gfMul m0 a0 ^^^ gfMul m1 a1 ^^^ gfMul m2 a2 ^^^ gfMul m3 a3,
   gfMul m3 a0 ^^^ gfMul m0 a1 ^^^ gfMul m1 a2 ^^^ gfMul m2 a3,
   gfMul m2 a0 ^^^ gfMul m3 a1 ^^^ gfMul m0 a2 ^^^ gfMul m1 a3,
   gfMul m1 a0 ^^^ gfMul m2 a1 ^^^ gfMul m3 a2 ^^^ gfMul m0 a3]

/-- AES encryption of one 16-byte block. -/
def aesEnc (key blk : List Byte) : List Byte :=
  let ks := aesKeys key
  let s0 := xorBytes blk (atD [] ks 0)
  let mids := (ks.drop 1).dropLast
  let s1 := mids.foldl (fun s k =>
    xorBytes ((chunk4 (aesShiftRows (s.map aesSbox))).flatMap (aesMixCol 2#8 3#8 1#8 1#8)) k) s0
  xorBytes (aesShiftRows (s1.map aesSbox)) (ks.getLastD [])

/-- AES decryption of one 16-byte block. -/
def aesDec (key blk : List Byte) : List Byte :=
  let ks := aesKeys key
  let s0 := (aesInvShiftRows (xorBytes blk (ks.getLastD []))).map aesInvSbox
  let mids := ((ks.drop 1).dropLast).reverse
  let s1 := mids.foldl (fun s k =>
    (aesInvShiftRows ((chunk4 (xorBytes s k)).flatMap (aesMixCol 14#8 11#8 13#8 9#8))).map aesInvSbox) s0
  xorBytes s1 (atD [] ks 0)

def chunk16 : Nat → List Byte → List (List Byte)
  | 0, _ => []
  | n + 1, bs => bs.take 16 :: chunk16 n (bs.drop 16)

/-! ### XTS on one 64-byte line (R403, R404) -/

/-- Multiplication by alpha of a 16-byte tweak held little-endian. -/
def xtsAlpha (t : List Byte) : List Byte :=
  let v := leNat t
  let d := v * 2 % 2 ^ 128
  natLE 16 (if v / 2 ^ 127 = 1 then d ^^^ 0x87 else d)

def xtsGo (f : List Byte → List Byte) : List (List Byte) → List Byte → List Byte
  | [], _ => []
  | b :: bs, t => xorBytes (f (xorBytes b t)) t ++ xtsGo f bs (xtsAlpha t)

/-- The stored bytes of a 64-byte line: data key, tweak key, line number. -/
def xtsEncLine (k1 k2 : List Byte) (line : Nat) (p : List Byte) : List Byte :=
  xtsGo (aesEnc k1) (chunk16 4 p) (aesEnc k2 (natLE 16 line))

def xtsDecLine (k1 k2 : List Byte) (line : Nat) (c : List Byte) : List Byte :=
  xtsGo (aesDec k1) (chunk16 4 c) (aesEnc k2 (natLE 16 line))

/-! ### CMAC (R409) -/

def cmacDouble (b : List Byte) : List Byte :=
  let v := beNat b
  let d := v * 2 % 2 ^ 128
  natBE 16 (if v / 2 ^ 127 = 1 then d ^^^ 0x87 else d)

/-- AES-CMAC of a message, 16 bytes. -/
def aesCmac (key m : List Byte) : List Byte :=
  let k1 := cmacDouble (aesEnc key (List.replicate 16 0#8))
  let k2 := cmacDouble k1
  let n := if m.isEmpty then 1 else (m.length + 15) / 16
  let last := m.drop (16 * (n - 1))
  let fin :=
    if last.length = 16 then xorBytes last k1
    else xorBytes (last ++ [0x80#8] ++ List.replicate (15 - last.length) 0#8) k2
  let x := (chunk16 (n - 1) m).foldl (fun x b => aesEnc key (xorBytes x b)) (List.replicate 16 0#8)
  aesEnc key (xorBytes x fin)

/-! ### GCM (R470) -/

def ghashMulGo : Nat → Nat → Nat → Nat → Nat
  | 0, _, _, z => z
  | n + 1, x, v, z =>
    ghashMulGo n x (if v % 2 = 1 then (v / 2) ^^^ (0xe1 * 2 ^ 120) else v / 2)
      (if bitOf x n then z ^^^ v else z)

/-- Multiplication in the GCM field; bit 127 of a number is the field's first bit. -/
def ghashMul (x y : Nat) : Nat := ghashMulGo 128 x y 0

def padTo16 (bs : List Byte) : List Byte := bs ++ List.replicate ((16 - bs.length % 16) % 16) 0#8

def ghash (h : Nat) (bs : List Byte) : Nat :=
  (chunk16 (bs.length / 16) bs).foldl (fun y b => ghashMul (y ^^^ beNat b) h) 0

/-- The counter-mode stream over the data (encryption and decryption are the same). -/
def gcmCtr (key iv : List Byte) : Nat → Nat → List Byte → List Byte
  | 0, _, _ => []
  | n + 1, c, bs => xorBytes (bs.take 16) (aesEnc key (iv ++ natBE 4 c)) ++ gcmCtr key iv n (c + 1) (bs.drop 16)

def gcmCrypt (key iv d : List Byte) : List Byte := gcmCtr key iv ((d.length + 15) / 16) 2 d

/-- The 128-bit tag over additional data and ciphertext. -/
def gcmTag (key iv aad ct : List Byte) : List Byte :=
  let h := beNat (aesEnc key (List.replicate 16 0#8))
  let s := ghash h (padTo16 aad ++ padTo16 ct ++ natBE 8 (8 * aad.length) ++ natBE 8 (8 * ct.length))
  xorBytes (natBE 16 s) (aesEnc key (iv ++ natBE 4 1))

/-! ### P-256 (R471) -/

def p256p : Nat := 0xffffffff00000001000000000000000000000000ffffffffffffffffffffffff
def p256n : Nat := 0xffffffff00000000ffffffffffffffffbce6faada7179e84f3b9cac2fc632551
def p256gx : Nat := 0x6b17d1f2e12c4247f8bce6e563a440f277037d812deb33a0f4a13945d898c296
def p256gy : Nat := 0x4fe342e2fe1a7f9b8ee7eb4a7c0f9e162bce33576b315ececbb6406837bf51f5

def powModGo : Nat → Nat → Nat → Nat → Nat → Nat
  | 0, _, _, _, acc => acc
  | n + 1, b, e, m, acc => powModGo n (b * b % m) (e / 2) m (if e % 2 = 1 then acc * b % m else acc)

def p256inv (a : Nat) : Nat := powModGo 256 (a % p256p) (p256p - 2) p256p 1

/-- Point addition on affine points; `none` is the point at infinity. -/
def p256add : Option (Nat × Nat) → Option (Nat × Nat) → Option (Nat × Nat)
  | none, q => q
  | p, none => p
  | some (x1, y1), some (x2, y2) =>
    let p := p256p
    if x1 = x2 ∧ (y1 + y2) % p = 0 then none
    else
      let l :=
        if x1 = x2 then (3 * x1 * x1 + (p - 3)) * p256inv (2 * y1) % p
        else (y2 + (p - y1)) * p256inv (x2 + (p - x1)) % p
      let x3 := (l * l + (p - x1) + (p - x2)) % p
      some (x3, (l * (x1 + (p - x3)) + (p - y1)) % p)

def p256mulGo : Nat → Nat → Option (Nat × Nat) → Option (Nat × Nat) → Option (Nat × Nat)
  | 0, _, _, acc => acc
  | n + 1, k, q, acc => p256mulGo n (k / 2) (p256add q q) (if k % 2 = 1 then p256add acc q else acc)

/-- Scalar multiplication. -/
def p256mul (k : Nat) (q : Nat × Nat) : Option (Nat × Nat) := p256mulGo 256 k (some q) none

/-- Is a point on the curve (the coefficient b is the standard's)? -/
def p256onCurve (q : Nat × Nat) : Bool :=
  let b := 0x5ac635d8aa3a93e7b3ebbd55769886bc651d06b0cc53b0f63bce3c3e27d2604b
  q.1 < p256p && q.2 < p256p && q.2 * q.2 % p256p == (q.1 * q.1 * q.1 + (p256p - 3) * q.1 + b) % p256p

/-- The 64-byte public key of a private scalar: X then Y, big-endian. -/
def p256pub (k : Nat) : List Byte :=
  match p256mul k (p256gx, p256gy) with
  | some (x, y) => natBE 32 x ++ natBE 32 y
  | none => List.replicate 64 0#8

/-- The x-coordinate of the shared point. -/
def p256shared (k : Nat) (pub : List Byte) : List Byte :=
  match p256mul k (beNat (pub.take 32), beNat (pub.drop 32)) with
  | some (x, _) => natBE 32 x
  | none => List.replicate 32 0#8

end Sys2Proof.Machine
end

