-- ==== Sys2Proof/Config.lean ====
section
/-! DEFINITION. What one part fixes, and the free values: constants with no body, which no proof can look into. -/

namespace Sys2Proof.Config

/-- `SYS.PAGE_VER.STEPPING` (R5). The manual describes B0 (00_scope.md, "Steppings and speed grades"), code 1.
DESIGN CHOICE: the model is a B0 part of the -8 grade (log entry 1). -/
def stepping : Nat := 1

/-- The speed grade is -8 (log entry 1): the generator maxima are the -8 column of Table 5.2. -/
def gradeMinus8 : Bool := true

/-- FREE VALUE. The n-th value that the specification leaves open: random draws (R405, R406, R471, R540), values
within a stated accuracy, outcomes left undefined. `State.freeCtr` says which is next (log entry 2). -/
opaque freeNat : Nat → Nat

/-- FREE VALUE. How many edges island clock generator `g` gives within oscillator cycle `t` while its source is a PLL output.
The two are unrelated clocks (R147, R167), so the specification fixes no number (log entry 3). -/
opaque edgesInCycle : (g t : Nat) → Nat

/-- DESIGN CHOICE. Codes of the test access port's instructions (R551; log entry 98): the specification gives none. Every other
code is BYPASS. -/
def irExtest : Nat := 0
def irIdcode : Nat := 1
def irSample : Nat := 2
def irClamp : Nat := 3
def irHighz : Nat := 4

/-- FREE VALUE. Where in the count of its divisor the divider of generator `g` stands at timestamp 0 while it divides the
oscillator (R167; log entry 3). -/
opaque dividerPhase : (g : Nat) → Nat

/-- FREE VALUE. The 40 bits (32 data, 8 check) of DRAM beat `b` where nothing has been written since the contents were
lost for the `epoch`-th time (R419: not retained; log entry 13). Beats from 2^40 on are those of the tag words. -/
opaque dramBeat : (epoch b : Nat) → Nat

end Sys2Proof.Config
end

