-- ==== Sys2Proof/Machine/Regs.lean ====
section
/-! DEFINITION. The register window's map: every register's address (`R.<page>_<register>`), its fields
(`F.<page>_<register>_<field>`, lowest bit and width), and the rows that give each field its type and reset value,
as the register tables of the specification have them (Tables 2.8 to 21.1). -/

namespace Sys2Proof.Machine

/-- A field: lowest bit and width. -/
structure Fld where
  lo : Nat
  w : Nat
  deriving DecidableEq, Repr

/-- Register field types, Table 0.3. `roh` is RO/H. -/
inductive FieldTy where
  | rw | ro | roh | w1c | wo | rws
  deriving DecidableEq, Repr

/-- One field of a register row. -/
structure FieldRow where
  lo : Nat
  w : Nat
  ty : FieldTy
  reset : Nat
  deriving DecidableEq, Repr

/-- `n` registers of one layout, at `off`, `off + stride`, ... within their page. -/
structure RegRow where
  off : Nat
  stride : Nat
  n : Nat
  fields : List FieldRow
  deriving DecidableEq, Repr

/-- The page kinds of Table 21.1 (UART0 has its own layout, Table 16.4). -/
inductive PageKind where
  | sys | vlog | pwr | surv | clk | isl | nib | cut | cfgc | blot | cap | ink | qcx | qst | trc | tdc | tin | memc | xts | keys | dma | lane | dlnk | uart | uart0 | bist | mon | irq | fi
  deriving DecidableEq, Repr

/-! ### Register addresses -/

def R.SYS_LEVEL : Nat := 0x40
def R.SYS_COMMIT : Nat := 0x44
def R.SYS_COMMIT_STAT : Nat := 0x48
def R.SYS_WRCOLL : Nat := 0x4C
def R.SYS_TSTAMP_LO : Nat := 0x50
def R.SYS_TSTAMP_HI : Nat := 0x54
def R.SYS_HSP_ERRCNT : Nat := 0x58
def R.SYS_RESET : Nat := 0x60
def R.VLOG_COUNT : Nat := 0x1040
def R.VLOG_NEXT : Nat := 0x1044
def R.VLOG_ENT_ADDR (j : Nat) : Nat := 0x1100 + 0x10 * j
def R.VLOG_ENT_INFO (j : Nat) : Nat := 0x1104 + 0x10 * j
def R.VLOG_ENT_TS_LO (j : Nat) : Nat := 0x1108 + 0x10 * j
def R.VLOG_ENT_TS_HI (j : Nat) : Nat := 0x110C + 0x10 * j
def R.PWR_DOM_EN0 : Nat := 0x2040
def R.PWR_DOM_EN1 : Nat := 0x2044
def R.PWR_DOM_STAT0 : Nat := 0x2048
def R.PWR_DOM_STAT1 : Nat := 0x204C
def R.PWR_RAIL_GOOD : Nat := 0x2050
def R.PWR_RAIL_LOSS : Nat := 0x2054
def R.PWR_COMMIT_INFO : Nat := 0x2058
def R.SURV_PHASE : Nat := 0x3040
def R.SURV_STATUS : Nat := 0x3044
def R.SURV_OVERRIDE : Nat := 0x3048
def R.SURV_MISMATCH_CNT : Nat := 0x304C
def R.SURV_ITEM_CNT : Nat := 0x3050
def R.SURV_RES_SEL : Nat := 0x3054
def R.SURV_RES_KIND : Nat := 0x3058
def R.SURV_RES_VAL : Nat := 0x305C
def R.SURV_RES_AUX : Nat := 0x3060
def R.SURV_MIS_SEL : Nat := 0x3064
def R.SURV_MIS_ITEM : Nat := 0x3068
def R.SURV_DUR_STEEP : Nat := 0x3070
def R.SURV_DUR_GERM : Nat := 0x3074
def R.SURV_DUR_KILN : Nat := 0x3078
def R.SURV_RST_CAUSE : Nat := 0x307C
def R.CLK_REF_CTRL (j : Nat) : Nat := 0x4040 + 0x10 * j
def R.CLK_REF_EXP (j : Nat) : Nat := 0x4044 + 0x10 * j
def R.CLK_REF_TOL (j : Nat) : Nat := 0x4048 + 0x10 * j
def R.CLK_REF_STAT (j : Nat) : Nat := 0x404C + 0x10 * j
def R.CLK_SYNC_CFG : Nat := 0x4080
def R.CLK_SYNC_CMD : Nat := 0x4084
def R.CLK_SYNC_STAT : Nat := 0x4088
def R.CLK_PLL_CTRL (j : Nat) : Nat := 0x4100 + 0x40 * j
def R.CLK_PLL_DIV (j : Nat) : Nat := 0x4104 + 0x40 * j
def R.CLK_PLL_OUTDIV (j : Nat) : Nat := 0x4108 + 0x40 * j
def R.CLK_PLL_LOCK (j : Nat) : Nat := 0x410C + 0x40 * j
def R.CLK_PLL_REFSEL (j : Nat) : Nat := 0x4110 + 0x40 * j
def R.CLK_PLL_REVERT (j : Nat) : Nat := 0x4114 + 0x40 * j
def R.CLK_PLL_STAT (j : Nat) : Nat := 0x4118 + 0x40 * j
def R.CLK_PLL_WINCNT (j : Nat) : Nat := 0x411C + 0x40 * j
def R.CLK_PLL_EVCNT (j : Nat) : Nat := 0x4120 + 0x40 * j
def R.CLK_PLL_VCOF (j : Nat) : Nat := 0x4124 + 0x40 * j
def R.ISL_COMMIT_INFO : Nat := 0x5040
def R.ISL_ONFB (j : Nat) : Nat := 0x5044 + 0x4 * j
def R.ISL_GATED (j : Nat) : Nat := 0x5050 + 0x4 * j
def R.ISL_GEN_CFG (j : Nat) : Nat := 0x5100 + 0x10 * j
def R.ISL_GEN_FB (j : Nat) : Nat := 0x5104 + 0x10 * j
def R.ISL_GEN_STAT (j : Nat) : Nat := 0x5108 + 0x10 * j
def R.NIB_COMMIT_INFO (k : Nat) : Nat := 0x8040 + 0x1000 * k
def R.NIB_BANK_STAT (k : Nat) : Nat := 0x8044 + 0x1000 * k
def R.NIB_LEVEL0 (k : Nat) : Nat := 0x8048 + 0x1000 * k
def R.NIB_LEVEL1 (k : Nat) : Nat := 0x804C + 0x1000 * k
def R.NIB_SRC_FAB0 (k : Nat) : Nat := 0x8050 + 0x1000 * k
def R.NIB_SRC_FAB1 (k : Nat) : Nat := 0x8054 + 0x1000 * k
def R.NIB_NIB_CFG (k j : Nat) : Nat := 0x8100 + 0x1000 * k + 0x10 * j
def R.NIB_NIB_GRP (k j : Nat) : Nat := 0x8104 + 0x1000 * k + 0x10 * j
def R.NIB_NIB_DECL (k j : Nat) : Nat := 0x8108 + 0x1000 * k + 0x10 * j
def R.NIB_NIB_STAT (k j : Nat) : Nat := 0x810C + 0x1000 * k + 0x10 * j
def R.CUT_CMD : Nat := 0x10040
def R.CUT_ACTIVE : Nat := 0x10044
def R.CUT_GRP_WAIT (j : Nat) : Nat := 0x10100 + 0x10 * j
def R.CUT_GRP_STAT (j : Nat) : Nat := 0x10104 + 0x10 * j
def R.CUT_GRP_SW_TS_LO (j : Nat) : Nat := 0x10108 + 0x10 * j
def R.CUT_GRP_SW_TS_HI (j : Nat) : Nat := 0x1010C + 0x10 * j
def R.CFGC_DESIGN_ID : Nat := 0x20040
def R.CFGC_IMG_INFO : Nat := 0x20044
def R.CFGC_FILLED0 : Nat := 0x20048
def R.CFGC_FILLED1 : Nat := 0x2004C
def R.CFGC_CRIT0 : Nat := 0x20050
def R.CFGC_CRIT1 : Nat := 0x20054
def R.CFGC_VERIFIED0 : Nat := 0x20058
def R.CFGC_VERIFIED1 : Nat := 0x2005C
def R.CFGC_GERM_ERR : Nat := 0x20060
def R.CFGC_PR_ISLAND : Nat := 0x20064
def R.CFGC_PR_SRC : Nat := 0x20068
def R.CFGC_PR_CMD : Nat := 0x2006C
def R.CFGC_PR_STAT : Nat := 0x20070
def R.CFGC_ISLSRC_SEL : Nat := 0x20074
def R.CFGC_ISLSRC : Nat := 0x20078
def R.BLOT_CTRL : Nat := 0x21040
def R.BLOT_STAT : Nat := 0x21044
def R.BLOT_CYCLES : Nat := 0x21048
def R.BLOT_CORR_CNT : Nat := 0x2104C
def R.BLOT_UNCORR_CNT : Nat := 0x21050
def R.BLOT_RELOAD_CNT : Nat := 0x21054
def R.BLOT_RELFAIL_CNT : Nat := 0x21058
def R.BLOT_LAST_CORR : Nat := 0x2105C
def R.BLOT_LAST_UNCORR : Nat := 0x21060
def R.BLOT_CNT_CLR : Nat := 0x21064
def R.CAP_CTRL : Nat := 0x30040
def R.CAP_GRP_EN0 : Nat := 0x30044
def R.CAP_GRP_EN1 : Nat := 0x30048
def R.CAP_GRP_DE0 : Nat := 0x3004C
def R.CAP_GRP_DE1 : Nat := 0x30050
def R.CAP_POST : Nat := 0x30054
def R.CAP_CMD : Nat := 0x30058
def R.CAP_STAT : Nat := 0x3005C
def R.CAP_TS_NOW_LO : Nat := 0x30060
def R.CAP_TS_NOW_HI : Nat := 0x30064
def R.CAP_TRIG_TS_LO : Nat := 0x30068
def R.CAP_TRIG_TS_HI : Nat := 0x3006C
def R.INK_CTRL : Nat := 0x31040
def R.INK_KEEP0 : Nat := 0x31044
def R.INK_KEEP1 : Nat := 0x31048
def R.INK_LOWWAT : Nat := 0x3104C
def R.INK_WR : Nat := 0x31050
def R.INK_RD : Nat := 0x31054
def R.INK_OLDEST : Nat := 0x31058
def R.INK_FILL : Nat := 0x3105C
def R.INK_FULL_INFO : Nat := 0x31060
def R.INK_LOST : Nat := 0x31064
def R.INK_THR_DROP : Nat := 0x31068
def R.INK_TRIG_IDX : Nat := 0x3106C
def R.INK_SPILL_BASE_LO : Nat := 0x31070
def R.INK_SPILL_BASE_HI : Nat := 0x31074
def R.INK_SPILL_SIZE : Nat := 0x31078
def R.INK_SPILL_WR : Nat := 0x3107C
def R.INK_SPILL_RD : Nat := 0x31080
def R.INK_SPILL_OLDEST : Nat := 0x31084
def R.INK_WIN_ADDR : Nat := 0x31088
def R.INK_WIN_LO : Nat := 0x3108C
def R.INK_WIN_HI : Nat := 0x31090
def R.INK_CE_CNT : Nat := 0x31094
def R.INK_UE_CNT : Nat := 0x31098
def R.QCX_CTRL (x : Nat) : Nat := 0x34040 + 0x1000 * x
def R.QCX_CMD (x : Nat) : Nat := 0x34044 + 0x1000 * x
def R.QCX_STAT (x : Nat) : Nat := 0x34048 + 0x1000 * x
def R.QCX_BASE (x : Nat) : Nat := 0x3404C + 0x1000 * x
def R.QCX_LIMIT (x : Nat) : Nat := 0x34050 + 0x1000 * x
def R.QCX_VBASE (x : Nat) : Nat := 0x34054 + 0x1000 * x
def R.QCX_START_ADDR (x : Nat) : Nat := 0x34058 + 0x1000 * x
def R.QCX_CUR_PC (x : Nat) : Nat := 0x3405C + 0x1000 * x
def R.QCX_TF_INFO (x : Nat) : Nat := 0x34060 + 0x1000 * x
def R.QCX_TF_TS_LO (x : Nat) : Nat := 0x34064 + 0x1000 * x
def R.QCX_TF_TS_HI (x : Nat) : Nat := 0x34068 + 0x1000 * x
def R.QCX_TRAP_CNT (x : Nat) : Nat := 0x3406C + 0x1000 * x
def R.QCX_HFLAG (x : Nat) : Nat := 0x34070 + 0x1000 * x
def R.QCX_DT_LAST (x : Nat) : Nat := 0x34074 + 0x1000 * x
def R.QCX_DT_MAX (x : Nat) : Nat := 0x34078 + 0x1000 * x
def R.QCX_TRIG_CNT (x : Nat) : Nat := 0x3407C + 0x1000 * x
def R.QCX_DT_STAT (x : Nat) : Nat := 0x34080 + 0x1000 * x
def R.QCX_DT_CLR (x : Nat) : Nat := 0x34084 + 0x1000 * x
def R.QCX_PAT (x j : Nat) : Nat := 0x34090 + 0x1000 * x + 0x4 * j
def R.QCX_LIM_LO (x j : Nat) : Nat := 0x340A0 + 0x1000 * x + 0x8 * j
def R.QCX_LIM_HI (x j : Nat) : Nat := 0x340A4 + 0x1000 * x + 0x8 * j
def R.QCX_TLIM_LO (x j : Nat) : Nat := 0x340C0 + 0x1000 * x + 0x8 * j
def R.QCX_TLIM_HI (x j : Nat) : Nat := 0x340C4 + 0x1000 * x + 0x8 * j
def R.QCX_CNT_LO (x j : Nat) : Nat := 0x340D0 + 0x1000 * x + 0x8 * j
def R.QCX_CNT_HI (x j : Nat) : Nat := 0x340D4 + 0x1000 * x + 0x8 * j
def R.QCX_TMR_LO (x j : Nat) : Nat := 0x340F0 + 0x1000 * x + 0x8 * j
def R.QCX_TMR_HI (x j : Nat) : Nat := 0x340F4 + 0x1000 * x + 0x8 * j
def R.QST_ADDR : Nat := 0x3C040
def R.QST_W0 : Nat := 0x3C044
def R.QST_W1 : Nat := 0x3C048
def R.QST_W2 : Nat := 0x3C04C
def R.QST_STAT : Nat := 0x3C050
def R.TRC_CTRL : Nat := 0x40040
def R.TRC_COMMIT_INFO : Nat := 0x40044
def R.TRC_Q_CNT : Nat := 0x40048
def R.TRC_Q_LOST : Nat := 0x4004C
def R.TRC_DIV_CNT : Nat := 0x40050
def R.TRC_STAT_CLR : Nat := 0x40054
def R.TRC_Q_W (j : Nat) : Nat := 0x40060 + 0x4 * j
def R.TRC_TEN (j : Nat) : Nat := 0x40080 + 0x4 * j
def R.TRC_TEN10 : Nat := 0x400A8
def R.TRC_TPROF (j : Nat) : Nat := 0x400C0 + 0x4 * j
def R.TRC_STAND (j : Nat) : Nat := 0x40180 + 0x4 * j
def R.TRC_STAND10 : Nat := 0x401A8
def R.TRC_PROF_EARLY (j : Nat) : Nat := 0x40200 + 0x10 * j
def R.TRC_PROF_LATE (j : Nat) : Nat := 0x40204 + 0x10 * j
def R.TRC_PROF_CFG (j : Nat) : Nat := 0x40208 + 0x10 * j
def R.TRC_PSTAT_EARLY (j : Nat) : Nat := 0x40300 + 0x8 * j
def R.TRC_PSTAT_LATE (j : Nat) : Nat := 0x40304 + 0x8 * j
def R.TRC_TX_CFG (j : Nat) : Nat := 0x40380 + 0x10 * j
def R.TRC_TX_MASK0 (j : Nat) : Nat := 0x40384 + 0x10 * j
def R.TRC_TX_MASK1 (j : Nat) : Nat := 0x40388 + 0x10 * j
def R.TRC_TX_DIV (j : Nat) : Nat := 0x4038C + 0x10 * j
def R.TDC_TB_STAT (i : Nat) : Nat := 0x50040 + 0x1000 * i
def R.TDC_CMD (i : Nat) : Nat := 0x50044 + 0x1000 * i
def R.TDC_CH_CFG (c : Nat) : Nat := 0x50100 + 0x1000 * (c / 8) + 0x40 * (c % 8)
def R.TDC_CH_OFS (c : Nat) : Nat := 0x50104 + 0x1000 * (c / 8) + 0x40 * (c % 8)
def R.TDC_CH_STAT (c : Nat) : Nat := 0x50108 + 0x1000 * (c / 8) + 0x40 * (c % 8)
def R.TDC_CH_LOST (c : Nat) : Nat := 0x5010C + 0x1000 * (c / 8) + 0x40 * (c % 8)
def R.TDC_CH_MISSED (c : Nat) : Nat := 0x50110 + 0x1000 * (c / 8) + 0x40 * (c % 8)
def R.TDC_CH_EDGES (c : Nat) : Nat := 0x50114 + 0x1000 * (c / 8) + 0x40 * (c % 8)
def R.TDC_CH_WM (c : Nat) : Nat := 0x50118 + 0x1000 * (c / 8) + 0x40 * (c % 8)
def R.TDC_CH_Q_W0 (c : Nat) : Nat := 0x50120 + 0x1000 * (c / 8) + 0x40 * (c % 8)
def R.TDC_CH_Q_W1 (c : Nat) : Nat := 0x50124 + 0x1000 * (c / 8) + 0x40 * (c % 8)
def R.TDC_CH_Q_W2 (c : Nat) : Nat := 0x50128 + 0x1000 * (c / 8) + 0x40 * (c % 8)
def R.TDC_CH_Q_W3 (c : Nat) : Nat := 0x5012C + 0x1000 * (c / 8) + 0x40 * (c % 8)
def R.TIN_TIN_CFG (j : Nat) : Nat := 0x54040 + 0x10 * j
def R.TIN_TIN_STAT (j : Nat) : Nat := 0x54044 + 0x10 * j
def R.TIN_TIN_FREQ (j : Nat) : Nat := 0x54048 + 0x10 * j
def R.MEMC_CFG : Nat := 0x60040
def R.MEMC_TIM0 : Nat := 0x60044
def R.MEMC_TIM1 : Nat := 0x60048
def R.MEMC_CMD : Nat := 0x6004C
def R.MEMC_STAT : Nat := 0x60050
def R.MEMC_DATA_TOP : Nat := 0x60054
def R.MEMC_FILL_BASE : Nat := 0x60058
def R.MEMC_FILL_LEN : Nat := 0x6005C
def R.MEMC_ARB : Nat := 0x60060
def R.MEMC_BUD_DMA : Nat := 0x60064
def R.MEMC_BUD_SPILL : Nat := 0x60068
def R.MEMC_INFLIGHT : Nat := 0x6006C
def R.MEMC_CE_CNT : Nat := 0x60070
def R.MEMC_UE_CNT : Nat := 0x60074
def R.MEMC_POISON_CNT : Nat := 0x60078
def R.MEMC_TAG_UE_CNT : Nat := 0x6007C
def R.MEMC_ERR_CNT : Nat := 0x60080
def R.MEMC_CE_LAST : Nat := 0x60084
def R.MEMC_UE_LAST : Nat := 0x60088
def R.MEMC_LAST_REQ : Nat := 0x6008C
def R.MEMC_ECC_CLR : Nat := 0x60090
def R.XTS_CTRL : Nat := 0x61040
def R.XTS_STAT : Nat := 0x61044
def R.XTS_CHECKS : Nat := 0x61048
def R.KEYS_SEL : Nat := 0x62040
def R.KEYS_CMD : Nat := 0x62044
def R.KEYS_LOADED : Nat := 0x62048
def R.KEYS_KW (j : Nat) : Nat := 0x62100 + 0x4 * j
def R.DMA_ENG_STAT (i : Nat) : Nat := 0x70040 + 0x1000 * i
def R.DMA_CH_CFG (c : Nat) : Nat := 0x70100 + 0x1000 * (c / 8) + 0x40 * (c % 8)
def R.DMA_SRC_LO (c : Nat) : Nat := 0x70104 + 0x1000 * (c / 8) + 0x40 * (c % 8)
def R.DMA_SRC_HI (c : Nat) : Nat := 0x70108 + 0x1000 * (c / 8) + 0x40 * (c % 8)
def R.DMA_DST_LO (c : Nat) : Nat := 0x7010C + 0x1000 * (c / 8) + 0x40 * (c % 8)
def R.DMA_DST_HI (c : Nat) : Nat := 0x70110 + 0x1000 * (c / 8) + 0x40 * (c % 8)
def R.DMA_IDX_LO (c : Nat) : Nat := 0x70114 + 0x1000 * (c / 8) + 0x40 * (c % 8)
def R.DMA_IDX_HI (c : Nat) : Nat := 0x70118 + 0x1000 * (c / 8) + 0x40 * (c % 8)
def R.DMA_NEXT_LO (c : Nat) : Nat := 0x70128 + 0x1000 * (c / 8) + 0x40 * (c % 8)
def R.DMA_NEXT_HI (c : Nat) : Nat := 0x7012C + 0x1000 * (c / 8) + 0x40 * (c % 8)
def R.DMA_COUNT (c : Nat) : Nat := 0x7011C + 0x1000 * (c / 8) + 0x40 * (c % 8)
def R.DMA_IDX_CUR (c : Nat) : Nat := 0x70120 + 0x1000 * (c / 8) + 0x40 * (c % 8)
def R.DMA_DONE_CNT (c : Nat) : Nat := 0x70124 + 0x1000 * (c / 8) + 0x40 * (c % 8)
def R.DMA_CMD (c : Nat) : Nat := 0x70130 + 0x1000 * (c / 8) + 0x40 * (c % 8)
def R.DMA_STAT (c : Nat) : Nat := 0x70134 + 0x1000 * (c / 8) + 0x40 * (c % 8)
def R.DMA_ERR_ADDR_LO (c : Nat) : Nat := 0x70138 + 0x1000 * (c / 8) + 0x40 * (c % 8)
def R.DMA_ERR_ADDR_HI (c : Nat) : Nat := 0x7013C + 0x1000 * (c / 8) + 0x40 * (c % 8)
def R.DMA_BUF (i j : Nat) : Nat := 0x70800 + 0x1000 * i + 0x4 * j
def R.LANE_CFG (n : Nat) : Nat := 0x80040 + 0x1000 * n
def R.LANE_REF (n : Nat) : Nat := 0x80044 + 0x1000 * n
def R.LANE_TX (n : Nat) : Nat := 0x80048 + 0x1000 * n
def R.LANE_STAT (n : Nat) : Nat := 0x8004C + 0x1000 * n
def R.LANE_TAPS (n : Nat) : Nat := 0x80050 + 0x1000 * n
def R.LANE_EYE (n : Nat) : Nat := 0x80054 + 0x1000 * n
def R.LANE_SCAN_CTRL (n : Nat) : Nat := 0x80058 + 0x1000 * n
def R.LANE_SCAN_ERR (n : Nat) : Nat := 0x8005C + 0x1000 * n
def R.LANE_ENC (n : Nat) : Nat := 0x80060 + 0x1000 * n
def R.LANE_CRC_CNT (n : Nat) : Nat := 0x80064 + 0x1000 * n
def R.LANE_REPLAY_CNT (n : Nat) : Nat := 0x80068 + 0x1000 * n
def R.LANE_RETRAIN_CNT (n : Nat) : Nat := 0x8006C + 0x1000 * n
def R.LANE_CV_CNT (n : Nat) : Nat := 0x80070 + 0x1000 * n
def R.LANE_PLAIN_CNT (n : Nat) : Nat := 0x80074 + 0x1000 * n
def R.DLNK_NODE : Nat := 0x88040
def R.DLNK_RQ_STAT : Nat := 0x88044
def R.DLNK_BADTYPE_CNT : Nat := 0x88048
def R.DLNK_BADTYPE_LAST : Nat := 0x8804C
def R.DLNK_UNREACH_CNT : Nat := 0x88050
def R.DLNK_STR_CFG (j : Nat) : Nat := 0x88080 + 0x8 * j
def R.DLNK_STR_STAT (j : Nat) : Nat := 0x88084 + 0x8 * j
def R.DLNK_ROUTE (j : Nat) : Nat := 0x88100 + 0x4 * j
def R.UART_CFG (n : Nat) : Nat := 0x90040 + 0x1000 * n
def R.UART_BAUD (n : Nat) : Nat := 0x90044 + 0x1000 * n
def R.UART_MAP (n : Nat) : Nat := 0x90048 + 0x1000 * n
def R.UART_STAT (n : Nat) : Nat := 0x9004C + 0x1000 * n
def R.UART_RXQ (n : Nat) : Nat := 0x90050 + 0x1000 * n
def R.UART_TXQ (n : Nat) : Nat := 0x90054 + 0x1000 * n
def R.UART_FCMD (n : Nat) : Nat := 0x90058 + 0x1000 * n
def R.UART_WM (n : Nat) : Nat := 0x9005C + 0x1000 * n
def R.UART_FCFG (n : Nat) : Nat := 0x90060 + 0x1000 * n
def R.UART_RX_LOST (n : Nat) : Nat := 0x90064 + 0x1000 * n
def R.UART_ERR_CNT (n : Nat) : Nat := 0x90068 + 0x1000 * n
def R.UART_TXFAIL_CNT (n : Nat) : Nat := 0x9006C + 0x1000 * n
def R.UART_IDTAB (n j : Nat) : Nat := 0x90100 + 0x1000 * n + 0x4 * j
def R.BIST_CTRL : Nat := 0xA0040
def R.BIST_SEL0 : Nat := 0xA0044
def R.BIST_SEL1 : Nat := 0xA0048
def R.BIST_CMD : Nat := 0xA004C
def R.BIST_STAT : Nat := 0xA0050
def R.BIST_KSEL0 : Nat := 0xA0054
def R.BIST_KSEL1 : Nat := 0xA0058
def R.BIST_KCTRL : Nat := 0xA005C
def R.BIST_FLOG_CNT : Nat := 0xA0060
def R.BIST_ELAPSED : Nat := 0xA0064
def R.BIST_REFUSE_TGT : Nat := 0xA0068
def R.BIST_RES (j : Nat) : Nat := 0xA0100 + 0x4 * j
def R.BIST_FLOG_A (j : Nat) : Nat := 0xA0300 + 0x8 * j
def R.BIST_FLOG_B (j : Nat) : Nat := 0xA0304 + 0x8 * j
def R.MON_CFG : Nat := 0xB0040
def R.MON_STAT : Nat := 0xB0044
def R.MON_UL_CMD : Nat := 0xB0080
def R.MON_UL_STAT : Nat := 0xB0084
def R.MON_UL_DATA (j : Nat) : Nat := 0xB00C0 + 0x4 * j
def R.MON_UL_CHAL (j : Nat) : Nat := 0xB00E0 + 0x4 * j
def R.IRQ_BALL_STAT : Nat := 0xC0040
def R.IRQ_HALT_CLR : Nat := 0xC0044
def R.IRQ_HALT_INFO : Nat := 0xC0080
def R.IRQ_HALT_TS_LO : Nat := 0xC0084
def R.IRQ_HALT_TS_HI : Nat := 0xC0088
def R.IRQ_HALT_A0 : Nat := 0xC008C
def R.IRQ_HALT_A1 : Nat := 0xC0090
def R.IRQ_MAP (j : Nat) : Nat := 0xC0100 + 0x4 * j
def R.IRQ_PEND (j : Nat) : Nat := 0xC0200 + 0x4 * j
def R.IRQ_PEND9 : Nat := 0xC0224
def R.FI_ISL_INFO (x : Nat) : Nat := 0x100040 + 0x1000 * x
def R.FI_ISL_STAT (x : Nat) : Nat := 0x100044 + 0x1000 * x
def R.FI_FENCE (x : Nat) : Nat := 0x100048 + 0x1000 * x
def R.FI_COMMIT_INFO (x : Nat) : Nat := 0x10004C + 0x1000 * x
def R.FI_HOLD_D0 (x : Nat) : Nat := 0x100050 + 0x1000 * x
def R.FI_HOLD_D1 (x : Nat) : Nat := 0x100054 + 0x1000 * x
def R.FI_HOLD_OE0 (x : Nat) : Nat := 0x100058 + 0x1000 * x
def R.FI_HOLD_OE1 (x : Nat) : Nat := 0x10005C + 0x1000 * x
def R.FI_PROBE0 (x : Nat) : Nat := 0x100060 + 0x1000 * x
def R.FI_PROBE1 (x : Nat) : Nat := 0x100064 + 0x1000 * x
def R.FI_WEDGE_INFO (x : Nat) : Nat := 0x100068 + 0x1000 * x
def R.FI_CE_CNT (x : Nat) : Nat := 0x100070 + 0x1000 * x
def R.FI_UE_CNT (x : Nat) : Nat := 0x100074 + 0x1000 * x
def R.FI_POISON_CNT (x : Nat) : Nat := 0x100078 + 0x1000 * x
def R.FI_CE_LAST (x : Nat) : Nat := 0x10007C + 0x1000 * x
def R.FI_UE_LAST (x : Nat) : Nat := 0x100080 + 0x1000 * x
def R.FI_ECC_CLR (x : Nat) : Nat := 0x100084 + 0x1000 * x
def R.FI_NPORT (x j : Nat) : Nat := 0x100100 + 0x1000 * x + 0x4 * j

/-! The common page layout (Table 4.1), by page number. -/

def R.PAGE_ID (p : Nat) : Nat := 0x1000 * p
def R.PAGE_VER (p : Nat) : Nat := 0x1000 * p + 0x004
def R.PAGE_CTRL (p : Nat) : Nat := 0x1000 * p + 0x008
def R.PAGE_STAT (p : Nat) : Nat := 0x1000 * p + 0x00C
def R.PAGE_IRQ_RAW (p : Nat) : Nat := 0x1000 * p + 0x010
def R.PAGE_IRQ_EN (p : Nat) : Nat := 0x1000 * p + 0x014
def R.PAGE_IRQ_PEND (p : Nat) : Nat := 0x1000 * p + 0x018
def R.PAGE_ERR_CODE (p : Nat) : Nat := 0x1000 * p + 0x01C
def R.PAGE_ERR_ADDR (p : Nat) : Nat := 0x1000 * p + 0x020

/-! ### Fields -/

def F.PAGE_CTRL_ENABLE : Fld := ⟨0, 1⟩
def F.PAGE_CTRL_STAGE_EN : Fld := ⟨1, 1⟩
def F.PAGE_STAT_WEDGED : Fld := ⟨2, 1⟩
def F.PAGE_STAT_BUSY : Fld := ⟨1, 1⟩
def F.PAGE_STAT_COMMIT_PENDING : Fld := ⟨3, 1⟩
def F.PAGE_STAT_COMMIT_REFUSED : Fld := ⟨4, 1⟩

def F.SYS_LEVEL_MON : Fld := ⟨0, 2⟩
def F.SYS_LEVEL_HSP : Fld := ⟨2, 2⟩
def F.SYS_LEVEL_DLNK : Fld := ⟨4, 2⟩
def F.SYS_LEVEL_FAB : Fld := ⟨6, 2⟩
def F.SYS_COMMIT_PAGE : Fld := ⟨0, 12⟩
def F.SYS_COMMIT_SCOPE : Fld := ⟨16, 1⟩
def F.SYS_COMMIT_GO : Fld := ⟨31, 1⟩
def F.SYS_COMMIT_STAT_BUSY : Fld := ⟨0, 1⟩
def F.SYS_COMMIT_STAT_DONE : Fld := ⟨1, 1⟩
def F.SYS_COMMIT_STAT_REFUSED : Fld := ⟨2, 1⟩
def F.SYS_COMMIT_STAT_WEDGED : Fld := ⟨3, 1⟩
def F.SYS_COMMIT_STAT_REASON : Fld := ⟨4, 4⟩
def F.SYS_COMMIT_STAT_PAGE : Fld := ⟨16, 12⟩
def F.SYS_WRCOLL_COUNT : Fld := ⟨0, 32⟩
def F.SYS_TSTAMP_LO_T : Fld := ⟨0, 32⟩
def F.SYS_TSTAMP_HI_T : Fld := ⟨0, 16⟩
def F.SYS_HSP_ERRCNT_COUNT : Fld := ⟨0, 16⟩
def F.SYS_RESET_KEY : Fld := ⟨0, 16⟩
def F.VLOG_COUNT_N : Fld := ⟨0, 32⟩
def F.VLOG_NEXT_IDX : Fld := ⟨0, 5⟩
def F.VLOG_ENT_ADDR_ADDR : Fld := ⟨0, 24⟩
def F.VLOG_ENT_INFO_REQ : Fld := ⟨0, 2⟩
def F.VLOG_ENT_INFO_WRITE : Fld := ⟨2, 1⟩
def F.VLOG_ENT_INFO_KIND : Fld := ⟨4, 3⟩
def F.VLOG_ENT_INFO_LEVEL : Fld := ⟨8, 2⟩
def F.VLOG_ENT_INFO_VALID : Fld := ⟨15, 1⟩
def F.VLOG_ENT_INFO_SEQ : Fld := ⟨16, 16⟩
def F.VLOG_ENT_TS_LO_T : Fld := ⟨0, 32⟩
def F.VLOG_ENT_TS_HI_T : Fld := ⟨0, 16⟩
def F.PWR_DOM_EN0_EN : Fld := ⟨0, 32⟩
def F.PWR_DOM_EN1_EN : Fld := ⟨0, 32⟩
def F.PWR_DOM_STAT0_ON : Fld := ⟨0, 32⟩
def F.PWR_DOM_STAT1_ON : Fld := ⟨0, 32⟩
def F.PWR_RAIL_GOOD_GOOD : Fld := ⟨0, 13⟩
def F.PWR_RAIL_LOSS_LOST : Fld := ⟨0, 13⟩
def F.PWR_COMMIT_INFO_REASON : Fld := ⟨8, 2⟩
def F.PWR_COMMIT_INFO_DOMAIN : Fld := ⟨0, 6⟩
def F.SURV_PHASE_STEP : Fld := ⟨4, 3⟩
def F.SURV_PHASE_PHASE : Fld := ⟨0, 3⟩
def F.SURV_STATUS_CLK_OSC : Fld := ⟨5, 1⟩
def F.SURV_STATUS_OVERRIDDEN : Fld := ⟨4, 1⟩
def F.SURV_STATUS_SIG_BAD : Fld := ⟨3, 1⟩
def F.SURV_STATUS_HEADER_BAD : Fld := ⟨2, 1⟩
def F.SURV_STATUS_MISMATCH : Fld := ⟨1, 1⟩
def F.SURV_STATUS_DONE : Fld := ⟨0, 1⟩
def F.SURV_OVERRIDE_KEY : Fld := ⟨24, 8⟩
def F.SURV_OVERRIDE_GO : Fld := ⟨0, 1⟩
def F.SURV_MISMATCH_CNT_COUNT : Fld := ⟨0, 12⟩
def F.SURV_ITEM_CNT_COUNT : Fld := ⟨0, 12⟩
def F.SURV_RES_SEL_RAW : Fld := ⟨31, 1⟩
def F.SURV_RES_SEL_INDEX : Fld := ⟨0, 12⟩
def F.SURV_RES_KIND_INDEX : Fld := ⟨16, 16⟩
def F.SURV_RES_KIND_KIND : Fld := ⟨8, 8⟩
def F.SURV_RES_KIND_CLASS : Fld := ⟨4, 4⟩
def F.SURV_RES_KIND_OUTCOME : Fld := ⟨0, 4⟩
def F.SURV_RES_VAL_VALUE : Fld := ⟨0, 32⟩
def F.SURV_RES_AUX_AUX : Fld := ⟨0, 32⟩
def F.SURV_MIS_SEL_N : Fld := ⟨0, 11⟩
def F.SURV_MIS_ITEM_ITEM : Fld := ⟨0, 12⟩
def F.SURV_DUR_STEEP_US : Fld := ⟨0, 32⟩
def F.SURV_DUR_GERM_US : Fld := ⟨0, 32⟩
def F.SURV_DUR_KILN_US : Fld := ⟨0, 32⟩
def F.SURV_RST_CAUSE_CAUSE : Fld := ⟨0, 5⟩
def F.CLK_REF_CTRL_EN : Fld := ⟨0, 1⟩
def F.CLK_REF_CTRL_TIMEBASE : Fld := ⟨4, 3⟩
def F.CLK_REF_CTRL_QUAL_N : Fld := ⟨8, 4⟩
def F.CLK_REF_EXP_EXP : Fld := ⟨0, 24⟩
def F.CLK_REF_TOL_PPM : Fld := ⟨0, 16⟩
def F.CLK_REF_STAT_QUAL : Fld := ⟨0, 1⟩
def F.CLK_REF_STAT_ACTIVE : Fld := ⟨1, 1⟩
def F.CLK_REF_STAT_COUNT : Fld := ⟨8, 24⟩
def F.CLK_SYNC_CFG_EDGE : Fld := ⟨4, 1⟩
def F.CLK_SYNC_CFG_PLLMASK : Fld := ⟨8, 4⟩
def F.CLK_SYNC_CMD_ARM : Fld := ⟨0, 1⟩
def F.CLK_SYNC_CMD_DISARM : Fld := ⟨1, 1⟩
def F.CLK_SYNC_STAT_ARMED : Fld := ⟨0, 1⟩
def F.CLK_SYNC_STAT_SKIPPED : Fld := ⟨4, 4⟩
def F.CLK_SYNC_STAT_COUNT : Fld := ⟨16, 16⟩
def F.CLK_PLL_CTRL_EN : Fld := ⟨0, 1⟩
def F.CLK_PLL_DIV_REFDIV : Fld := ⟨0, 6⟩
def F.CLK_PLL_DIV_FBDIV : Fld := ⟨16, 9⟩
def F.CLK_PLL_OUTDIV_OUT0 : Fld := ⟨0, 7⟩
def F.CLK_PLL_OUTDIV_OUT1 : Fld := ⟨8, 7⟩
def F.CLK_PLL_OUTDIV_OUT2 : Fld := ⟨16, 7⟩
def F.CLK_PLL_OUTDIV_OUT3 : Fld := ⟨24, 7⟩
def F.CLK_PLL_LOCK_TOL : Fld := ⟨0, 10⟩
def F.CLK_PLL_REFSEL_PRI0 : Fld := ⟨0, 3⟩
def F.CLK_PLL_REFSEL_PRI1 : Fld := ⟨4, 3⟩
def F.CLK_PLL_REFSEL_PRI2 : Fld := ⟨8, 3⟩
def F.CLK_PLL_REFSEL_PRI3 : Fld := ⟨12, 3⟩
def F.CLK_PLL_REFSEL_PRI4 : Fld := ⟨16, 3⟩
def F.CLK_PLL_REFSEL_MODE : Fld := ⟨20, 2⟩
def F.CLK_PLL_REFSEL_MANUAL : Fld := ⟨24, 3⟩
def F.CLK_PLL_REVERT_HOLD_MS : Fld := ⟨0, 14⟩
def F.CLK_PLL_STAT_STATE : Fld := ⟨0, 3⟩
def F.CLK_PLL_STAT_CUR : Fld := ⟨4, 3⟩
def F.CLK_PLL_STAT_BETTER : Fld := ⟨8, 3⟩
def F.CLK_PLL_STAT_ACQ_CAUSE : Fld := ⟨12, 3⟩
def F.CLK_PLL_STAT_HOLD_PEND : Fld := ⟨16, 1⟩
def F.CLK_PLL_WINCNT_COUNT : Fld := ⟨0, 21⟩
def F.CLK_PLL_EVCNT_SWITCHES : Fld := ⟨0, 16⟩
def F.CLK_PLL_EVCNT_LOL : Fld := ⟨16, 16⟩
def F.CLK_PLL_VCOF_MHZ : Fld := ⟨0, 13⟩
def F.ISL_COMMIT_INFO_GEN : Fld := ⟨0, 7⟩
def F.ISL_COMMIT_INFO_REASON : Fld := ⟨8, 3⟩
def F.ISL_ONFB_MAP : Fld := ⟨0, 32⟩
def F.ISL_GATED_MAP : Fld := ⟨0, 32⟩
def F.ISL_GEN_CFG_SRC_KIND : Fld := ⟨0, 2⟩
def F.ISL_GEN_CFG_SRC_PLL : Fld := ⟨2, 2⟩
def F.ISL_GEN_CFG_SRC_OUT : Fld := ⟨4, 2⟩
def F.ISL_GEN_CFG_SYNC_EN : Fld := ⟨6, 1⟩
def F.ISL_GEN_CFG_FOLLOW : Fld := ⟨8, 7⟩
def F.ISL_GEN_CFG_D : Fld := ⟨16, 7⟩
def F.ISL_GEN_FB_FB_KIND : Fld := ⟨0, 2⟩
def F.ISL_GEN_FB_FB_PLL : Fld := ⟨2, 2⟩
def F.ISL_GEN_FB_FB_OUT : Fld := ⟨4, 2⟩
def F.ISL_GEN_FB_AUTO_RET : Fld := ⟨7, 1⟩
def F.ISL_GEN_FB_FB_D : Fld := ⟨16, 7⟩
def F.ISL_GEN_STAT_ACTIVE : Fld := ⟨0, 2⟩
def F.ISL_GEN_STAT_CAUSE : Fld := ⟨4, 3⟩
def F.ISL_GEN_STAT_MHZ : Fld := ⟨16, 16⟩
def F.NIB_COMMIT_INFO_NIB : Fld := ⟨0, 6⟩
def F.NIB_COMMIT_INFO_REASON : Fld := ⟨8, 2⟩
def F.NIB_BANK_STAT_ARMED : Fld := ⟨0, 1⟩
def F.NIB_BANK_STAT_GATED : Fld := ⟨1, 1⟩
def F.NIB_BANK_STAT_VCCIO : Fld := ⟨4, 2⟩
def F.NIB_LEVEL0_IN : Fld := ⟨0, 32⟩
def F.NIB_LEVEL1_IN : Fld := ⟨0, 16⟩
def F.NIB_SRC_FAB0_FAB : Fld := ⟨0, 32⟩
def F.NIB_SRC_FAB1_FAB : Fld := ⟨0, 16⟩
def F.NIB_NIB_CFG_THR : Fld := ⟨0, 10⟩
def F.NIB_NIB_CFG_HYST : Fld := ⟨12, 2⟩
def F.NIB_NIB_CFG_SLOPE : Fld := ⟨16, 2⟩
def F.NIB_NIB_CFG_DRIVE : Fld := ⟨20, 2⟩
def F.NIB_NIB_CFG_MODE : Fld := ⟨24, 2⟩
def F.NIB_NIB_CFG_SLEW : Fld := ⟨26, 1⟩
def F.NIB_NIB_CFG_PD_EN : Fld := ⟨27, 1⟩
def F.NIB_NIB_GRP_CGRP : Fld := ⟨0, 6⟩
def F.NIB_NIB_DECL_ROLE : Fld := ⟨0, 2⟩
def F.NIB_NIB_DECL_INIT : Fld := ⟨4, 2⟩
def F.NIB_NIB_DECL_HALT : Fld := ⟨8, 2⟩
def F.NIB_NIB_DECL_SURV : Fld := ⟨12, 1⟩
def F.NIB_NIB_DECL_PAIR : Fld := ⟨16, 6⟩
def F.NIB_NIB_STAT_SRC : Fld := ⟨0, 2⟩
def F.NIB_NIB_STAT_LEVEL : Fld := ⟨4, 1⟩
def F.NIB_NIB_STAT_OE : Fld := ⟨5, 1⟩
def F.CUT_CMD_GROUP : Fld := ⟨0, 5⟩
def F.CUT_CMD_TARGET : Fld := ⟨8, 1⟩
def F.CUT_CMD_WAIT : Fld := ⟨9, 1⟩
def F.CUT_CMD_FORCE : Fld := ⟨10, 1⟩
def F.CUT_CMD_CANCEL : Fld := ⟨11, 1⟩
def F.CUT_CMD_GO : Fld := ⟨31, 1⟩
def F.CUT_ACTIVE_MAP : Fld := ⟨0, 32⟩
def F.CUT_GRP_WAIT_CTX : Fld := ⟨0, 3⟩
def F.CUT_GRP_WAIT_LINE : Fld := ⟨4, 2⟩
def F.CUT_GRP_WAIT_TMO_MS : Fld := ⟨16, 16⟩
def F.CUT_GRP_STAT_STATE : Fld := ⟨0, 2⟩
def F.CUT_GRP_STAT_RESULT : Fld := ⟨4, 4⟩
def F.CUT_GRP_STAT_TARGET : Fld := ⟨8, 1⟩
def F.CUT_GRP_STAT_FORCED : Fld := ⟨9, 1⟩
def F.CUT_GRP_STAT_NIBS : Fld := ⟨16, 9⟩
def F.CUT_GRP_STAT_BANKS : Fld := ⟨25, 7⟩
def F.CUT_GRP_SW_TS_LO_T : Fld := ⟨0, 32⟩
def F.CUT_GRP_SW_TS_HI_T : Fld := ⟨0, 16⟩
def F.CFGC_DESIGN_ID_ID : Fld := ⟨0, 32⟩
def F.CFGC_IMG_INFO_FAB_LEVEL : Fld := ⟨0, 2⟩
def F.CFGC_IMG_INFO_MP_ISL : Fld := ⟨8, 6⟩
def F.CFGC_IMG_INFO_UW_ISL : Fld := ⟨16, 6⟩
def F.CFGC_FILLED0_MAP : Fld := ⟨0, 32⟩
def F.CFGC_FILLED1_MAP : Fld := ⟨0, 16⟩
def F.CFGC_CRIT0_MAP : Fld := ⟨0, 32⟩
def F.CFGC_CRIT1_MAP : Fld := ⟨0, 16⟩
def F.CFGC_VERIFIED0_MAP : Fld := ⟨0, 32⟩
def F.CFGC_VERIFIED1_MAP : Fld := ⟨0, 16⟩
def F.CFGC_GERM_ERR_REASON : Fld := ⟨0, 4⟩
def F.CFGC_GERM_ERR_RECORD : Fld := ⟨4, 12⟩
def F.CFGC_GERM_ERR_ISL : Fld := ⟨16, 6⟩
def F.CFGC_GERM_ERR_KIND : Fld := ⟨24, 3⟩
def F.CFGC_PR_ISLAND_ISL : Fld := ⟨0, 6⟩
def F.CFGC_PR_SRC_ADDR : Fld := ⟨12, 20⟩
def F.CFGC_PR_CMD_GO : Fld := ⟨31, 1⟩
def F.CFGC_PR_STAT_STATE : Fld := ⟨0, 3⟩
def F.CFGC_PR_STAT_REASON : Fld := ⟨8, 4⟩
def F.CFGC_PR_STAT_DISCARD : Fld := ⟨16, 16⟩
def F.CFGC_ISLSRC_SEL_ISL : Fld := ⟨0, 6⟩
def F.CFGC_ISLSRC_ADDR : Fld := ⟨0, 32⟩
def F.BLOT_CTRL_RUN : Fld := ⟨0, 1⟩
def F.BLOT_CTRL_RELOAD : Fld := ⟨1, 1⟩
def F.BLOT_CTRL_INTERVAL : Fld := ⟨16, 16⟩
def F.BLOT_STAT_ISL : Fld := ⟨0, 6⟩
def F.BLOT_STAT_FRAME : Fld := ⟨8, 10⟩
def F.BLOT_STAT_RUNNING : Fld := ⟨31, 1⟩
def F.BLOT_CYCLES_N : Fld := ⟨0, 32⟩
def F.BLOT_CORR_CNT_N : Fld := ⟨0, 16⟩
def F.BLOT_UNCORR_CNT_N : Fld := ⟨0, 16⟩
def F.BLOT_RELOAD_CNT_N : Fld := ⟨0, 16⟩
def F.BLOT_RELFAIL_CNT_N : Fld := ⟨0, 16⟩
def F.BLOT_LAST_CORR_FRAME : Fld := ⟨0, 10⟩
def F.BLOT_LAST_CORR_ISL : Fld := ⟨16, 6⟩
def F.BLOT_LAST_CORR_WORD : Fld := ⟨24, 5⟩
def F.BLOT_LAST_UNCORR_FRAME : Fld := ⟨0, 10⟩
def F.BLOT_LAST_UNCORR_ISL : Fld := ⟨16, 6⟩
def F.BLOT_LAST_UNCORR_OUTCOME : Fld := ⟨24, 3⟩
def F.BLOT_CNT_CLR_CLR : Fld := ⟨0, 1⟩
def F.CAP_CTRL_MODE : Fld := ⟨0, 1⟩
def F.CAP_CTRL_TRIG_QUILL : Fld := ⟨4, 1⟩
def F.CAP_CTRL_TRIG_CTX : Fld := ⟨8, 3⟩
def F.CAP_CTRL_TRIG_LINE : Fld := ⟨12, 2⟩
def F.CAP_GRP_EN0_EN : Fld := ⟨0, 32⟩
def F.CAP_GRP_EN1_EN : Fld := ⟨0, 18⟩
def F.CAP_GRP_DE0_DE : Fld := ⟨0, 32⟩
def F.CAP_GRP_DE1_DE : Fld := ⟨0, 10⟩
def F.CAP_POST_WORDS : Fld := ⟨0, 32⟩
def F.CAP_CMD_ARM : Fld := ⟨0, 1⟩
def F.CAP_CMD_STOP : Fld := ⟨1, 1⟩
def F.CAP_CMD_TRIG : Fld := ⟨2, 1⟩
def F.CAP_STAT_STATE : Fld := ⟨0, 2⟩
def F.CAP_STAT_CAUSE : Fld := ⟨4, 3⟩
def F.CAP_STAT_THROTTLING : Fld := ⟨8, 1⟩
def F.CAP_STAT_SPILL_BUSY : Fld := ⟨9, 1⟩
def F.CAP_STAT_FRAME : Fld := ⟨16, 7⟩
def F.CAP_TS_NOW_LO_T : Fld := ⟨0, 32⟩
def F.CAP_TS_NOW_HI_T : Fld := ⟨0, 16⟩
def F.CAP_TRIG_TS_LO_T : Fld := ⟨0, 32⟩
def F.CAP_TRIG_TS_HI_T : Fld := ⟨0, 16⟩
def F.INK_CTRL_POLICY : Fld := ⟨0, 2⟩
def F.INK_CTRL_TRAP_EN : Fld := ⟨4, 1⟩
def F.INK_CTRL_TRAP_CTX : Fld := ⟨8, 3⟩
def F.INK_CTRL_SPILL_EN : Fld := ⟨12, 1⟩
def F.INK_CTRL_THR_SHIFT : Fld := ⟨16, 4⟩
def F.INK_KEEP0_KEEP : Fld := ⟨0, 32⟩
def F.INK_KEEP1_KEEP : Fld := ⟨0, 18⟩
def F.INK_LOWWAT_BLOCKS : Fld := ⟨0, 10⟩
def F.INK_WR_WORD : Fld := ⟨0, 18⟩
def F.INK_RD_BLOCK : Fld := ⟨0, 9⟩
def F.INK_OLDEST_BLOCK : Fld := ⟨0, 9⟩
def F.INK_FILL_WORDS : Fld := ⟨0, 19⟩
def F.INK_FULL_INFO_CAUSE : Fld := ⟨0, 2⟩
def F.INK_FULL_INFO_COUNT : Fld := ⟨16, 16⟩
def F.INK_LOST_N : Fld := ⟨0, 32⟩
def F.INK_THR_DROP_N : Fld := ⟨0, 32⟩
def F.INK_TRIG_IDX_WORD : Fld := ⟨0, 18⟩
def F.INK_SPILL_BASE_LO_ADDR : Fld := ⟨12, 20⟩
def F.INK_SPILL_BASE_HI_ADDR : Fld := ⟨0, 8⟩
def F.INK_SPILL_SIZE_BLOCKS : Fld := ⟨0, 20⟩
def F.INK_SPILL_WR_BLOCK : Fld := ⟨0, 20⟩
def F.INK_SPILL_RD_BLOCK : Fld := ⟨0, 20⟩
def F.INK_SPILL_OLDEST_BLOCK : Fld := ⟨0, 20⟩
def F.INK_WIN_ADDR_WORD : Fld := ⟨0, 18⟩
def F.INK_WIN_ADDR_UE : Fld := ⟨31, 1⟩
def F.INK_WIN_LO_D : Fld := ⟨0, 32⟩
def F.INK_WIN_HI_D : Fld := ⟨0, 32⟩
def F.INK_CE_CNT_N : Fld := ⟨0, 16⟩
def F.INK_UE_CNT_N : Fld := ⟨0, 16⟩
def F.QCX_CTRL_CRIT : Fld := ⟨0, 1⟩
def F.QCX_CTRL_OVF_TRAP : Fld := ⟨1, 1⟩
def F.QCX_CMD_START : Fld := ⟨0, 1⟩
def F.QCX_CMD_STOP : Fld := ⟨1, 1⟩
def F.QCX_CMD_TRAP : Fld := ⟨2, 1⟩
def F.QCX_STAT_STATE : Fld := ⟨0, 2⟩
def F.QCX_STAT_DBL : Fld := ⟨2, 1⟩
def F.QCX_STAT_DBL_CAUSE : Fld := ⟨4, 3⟩
def F.QCX_STAT_PEND : Fld := ⟨8, 3⟩
def F.QCX_BASE_ADDR : Fld := ⟨0, 12⟩
def F.QCX_LIMIT_ADDR : Fld := ⟨0, 12⟩
def F.QCX_VBASE_ADDR : Fld := ⟨0, 12⟩
def F.QCX_START_ADDR_ADDR : Fld := ⟨0, 12⟩
def F.QCX_CUR_PC_ADDR : Fld := ⟨0, 12⟩
def F.QCX_TF_INFO_PC : Fld := ⟨0, 12⟩
def F.QCX_TF_INFO_CAUSE : Fld := ⟨16, 3⟩
def F.QCX_TF_INFO_OPC : Fld := ⟨24, 6⟩
def F.QCX_TF_INFO_VALID : Fld := ⟨31, 1⟩
def F.QCX_TF_TS_LO_T : Fld := ⟨0, 32⟩
def F.QCX_TF_TS_HI_T : Fld := ⟨0, 16⟩
def F.QCX_TRAP_CNT_N : Fld := ⟨0, 16⟩
def F.QCX_HFLAG_F : Fld := ⟨0, 4⟩
def F.QCX_DT_LAST_EDGES : Fld := ⟨0, 32⟩
def F.QCX_DT_MAX_EDGES : Fld := ⟨0, 32⟩
def F.QCX_TRIG_CNT_N : Fld := ⟨0, 32⟩
def F.QCX_DT_STAT_OPEN : Fld := ⟨0, 1⟩
def F.QCX_DT_CLR_CLR : Fld := ⟨0, 1⟩
def F.QCX_PAT_GROUP : Fld := ⟨0, 6⟩
def F.QCX_PAT_MASK : Fld := ⟨8, 8⟩
def F.QCX_PAT_VALUE : Fld := ⟨16, 8⟩
def F.QCX_LIM_LO_L : Fld := ⟨0, 32⟩
def F.QCX_LIM_HI_L : Fld := ⟨0, 16⟩
def F.QCX_TLIM_LO_L : Fld := ⟨0, 32⟩
def F.QCX_TLIM_HI_L : Fld := ⟨0, 16⟩
def F.QCX_CNT_LO_N : Fld := ⟨0, 32⟩
def F.QCX_CNT_HI_N : Fld := ⟨0, 16⟩
def F.QCX_TMR_LO_N : Fld := ⟨0, 32⟩
def F.QCX_TMR_HI_N : Fld := ⟨0, 16⟩
def F.QST_ADDR_ADDR : Fld := ⟨0, 12⟩
def F.QST_W0_D : Fld := ⟨0, 32⟩
def F.QST_W1_D : Fld := ⟨0, 32⟩
def F.QST_W2_D : Fld := ⟨0, 32⟩
def F.QST_STAT_PERR : Fld := ⟨0, 1⟩
def F.TRC_CTRL_RUN : Fld := ⟨0, 1⟩
def F.TRC_COMMIT_INFO_NIB : Fld := ⟨0, 9⟩
def F.TRC_COMMIT_INFO_REASON : Fld := ⟨16, 3⟩
def F.TRC_Q_CNT_N : Fld := ⟨0, 11⟩
def F.TRC_Q_LOST_N : Fld := ⟨0, 32⟩
def F.TRC_DIV_CNT_N : Fld := ⟨0, 32⟩
def F.TRC_STAT_CLR_CLR : Fld := ⟨0, 1⟩
def F.TRC_Q_W_D : Fld := ⟨0, 32⟩
def F.TRC_TEN_EN : Fld := ⟨0, 32⟩
def F.TRC_TEN10_EN : Fld := ⟨0, 16⟩
def F.TRC_TPROF_PROF : Fld := ⟨0, 32⟩
def F.TRC_STAND_ST : Fld := ⟨0, 32⟩
def F.TRC_STAND10_ST : Fld := ⟨0, 16⟩
def F.TRC_PROF_EARLY_CYC : Fld := ⟨0, 24⟩
def F.TRC_PROF_LATE_CYC : Fld := ⟨0, 24⟩
def F.TRC_PROF_CFG_CLEAN : Fld := ⟨0, 16⟩
def F.TRC_PROF_CFG_ZVAL : Fld := ⟨16, 1⟩
def F.TRC_PSTAT_EARLY_CYC : Fld := ⟨0, 24⟩
def F.TRC_PSTAT_LATE_CYC : Fld := ⟨0, 24⟩
def F.TRC_TX_CFG_STROBE : Fld := ⟨0, 9⟩
def F.TRC_TX_CFG_EDGE : Fld := ⟨9, 1⟩
def F.TRC_TX_CFG_BANK : Fld := ⟨12, 3⟩
def F.TRC_TX_CFG_DELAY : Fld := ⟨16, 8⟩
def F.TRC_TX_CFG_EN : Fld := ⟨31, 1⟩
def F.TRC_TX_MASK0_M : Fld := ⟨0, 32⟩
def F.TRC_TX_MASK1_M : Fld := ⟨0, 16⟩
def F.TRC_TX_DIV_N : Fld := ⟨0, 32⟩
def F.TDC_TB_STAT_MHZ : Fld := ⟨0, 16⟩
def F.TDC_TB_STAT_RUNNING : Fld := ⟨16, 1⟩
def F.TDC_TB_STAT_BREAKS : Fld := ⟨24, 8⟩
def F.TDC_CMD_ZERO : Fld := ⟨0, 1⟩
def F.TDC_CH_CFG_EN : Fld := ⟨0, 1⟩
def F.TDC_CH_CFG_SRC_KIND : Fld := ⟨4, 1⟩
def F.TDC_CH_CFG_NIB : Fld := ⟨8, 9⟩
def F.TDC_CH_CFG_TIN : Fld := ⟨20, 2⟩
def F.TDC_CH_CFG_OVF : Fld := ⟨24, 1⟩
def F.TDC_CH_OFS_OFS : Fld := ⟨0, 16⟩
def F.TDC_CH_STAT_CNT : Fld := ⟨0, 11⟩
def F.TDC_CH_LOST_N : Fld := ⟨0, 32⟩
def F.TDC_CH_MISSED_N : Fld := ⟨0, 32⟩
def F.TDC_CH_EDGES_N : Fld := ⟨0, 32⟩
def F.TDC_CH_WM_N : Fld := ⟨0, 11⟩
def F.TDC_CH_Q_W0_D : Fld := ⟨0, 32⟩
def F.TDC_CH_Q_W1_D : Fld := ⟨0, 32⟩
def F.TDC_CH_Q_W2_D : Fld := ⟨0, 32⟩
def F.TDC_CH_Q_W3_D : Fld := ⟨0, 32⟩
def F.TIN_TIN_CFG_EN : Fld := ⟨0, 1⟩
def F.TIN_TIN_CFG_MODE : Fld := ⟨1, 1⟩
def F.TIN_TIN_CFG_TERM : Fld := ⟨2, 1⟩
def F.TIN_TIN_CFG_SLOPE : Fld := ⟨4, 2⟩
def F.TIN_TIN_CFG_HYST : Fld := ⟨6, 2⟩
def F.TIN_TIN_CFG_PRESC : Fld := ⟨8, 4⟩
def F.TIN_TIN_CFG_THR : Fld := ⟨16, 12⟩
def F.TIN_TIN_STAT_ACTIVE : Fld := ⟨0, 1⟩
def F.TIN_TIN_FREQ_HZ : Fld := ⟨0, 32⟩
def F.MEMC_CFG_RATE : Fld := ⟨0, 4⟩
def F.MEMC_CFG_DEVW : Fld := ⟨4, 1⟩
def F.MEMC_CFG_DENS : Fld := ⟨5, 2⟩
def F.MEMC_CFG_RANKS : Fld := ⟨7, 1⟩
def F.MEMC_CFG_CK_PLL : Fld := ⟨8, 2⟩
def F.MEMC_CFG_CK_OUT : Fld := ⟨10, 2⟩
def F.MEMC_TIM0_CL : Fld := ⟨0, 6⟩
def F.MEMC_TIM0_CWL : Fld := ⟨8, 6⟩
def F.MEMC_TIM0_RCD : Fld := ⟨16, 6⟩
def F.MEMC_TIM0_RP : Fld := ⟨24, 6⟩
def F.MEMC_TIM1_RAS : Fld := ⟨0, 8⟩
def F.MEMC_TIM1_RFC : Fld := ⟨8, 10⟩
def F.MEMC_TIM1_REFI : Fld := ⟨18, 14⟩
def F.MEMC_CMD_INIT : Fld := ⟨0, 1⟩
def F.MEMC_CMD_STOP : Fld := ⟨1, 1⟩
def F.MEMC_CMD_FILL : Fld := ⟨2, 1⟩
def F.MEMC_STAT_STATE : Fld := ⟨0, 3⟩
def F.MEMC_STAT_TRAIN_ERR : Fld := ⟨4, 4⟩
def F.MEMC_DATA_TOP_MIB : Fld := ⟨0, 16⟩
def F.MEMC_FILL_BASE_LINE : Fld := ⟨0, 28⟩
def F.MEMC_FILL_BASE_SLOT : Fld := ⟨28, 4⟩
def F.MEMC_FILL_LEN_LINES : Fld := ⟨0, 28⟩
def F.MEMC_ARB_W_DMA : Fld := ⟨0, 4⟩
def F.MEMC_ARB_W_SPILL : Fld := ⟨4, 4⟩
def F.MEMC_ARB_URG_BLK : Fld := ⟨16, 9⟩
def F.MEMC_BUD_DMA_MIN : Fld := ⟨0, 15⟩
def F.MEMC_BUD_DMA_MAX : Fld := ⟨16, 15⟩
def F.MEMC_BUD_SPILL_MIN : Fld := ⟨0, 15⟩
def F.MEMC_BUD_SPILL_MAX : Fld := ⟨16, 15⟩
def F.MEMC_INFLIGHT_NOW : Fld := ⟨0, 16⟩
def F.MEMC_INFLIGHT_PEAK : Fld := ⟨16, 16⟩
def F.MEMC_CE_CNT_N : Fld := ⟨0, 32⟩
def F.MEMC_UE_CNT_N : Fld := ⟨0, 32⟩
def F.MEMC_POISON_CNT_N : Fld := ⟨0, 32⟩
def F.MEMC_TAG_UE_CNT_N : Fld := ⟨0, 32⟩
def F.MEMC_ERR_CNT_N : Fld := ⟨0, 32⟩
def F.MEMC_CE_LAST_LINE : Fld := ⟨0, 28⟩
def F.MEMC_UE_LAST_LINE : Fld := ⟨0, 28⟩
def F.MEMC_UE_LAST_KIND : Fld := ⟨28, 3⟩
def F.MEMC_LAST_REQ_CE_REQ : Fld := ⟨0, 2⟩
def F.MEMC_LAST_REQ_UE_REQ : Fld := ⟨4, 2⟩
def F.MEMC_LAST_REQ_UE_SLOT : Fld := ⟨8, 4⟩
def F.MEMC_ECC_CLR_CLR : Fld := ⟨0, 1⟩
def F.XTS_CTRL_MODE : Fld := ⟨0, 1⟩
def F.XTS_CTRL_KSIZE : Fld := ⟨1, 1⟩
def F.XTS_CTRL_INTEG : Fld := ⟨2, 1⟩
def F.XTS_STAT_RNG_OK : Fld := ⟨0, 1⟩
def F.XTS_STAT_EPH_KEY : Fld := ⟨1, 1⟩
def F.XTS_CHECKS_N : Fld := ⟨0, 32⟩
def F.KEYS_SEL_SLOT : Fld := ⟨0, 4⟩
def F.KEYS_CMD_LOAD : Fld := ⟨0, 1⟩
def F.KEYS_CMD_RANDOM : Fld := ⟨1, 1⟩
def F.KEYS_CMD_CLEAR : Fld := ⟨2, 1⟩
def F.KEYS_LOADED_MAP : Fld := ⟨0, 16⟩
def F.KEYS_KW_K : Fld := ⟨0, 32⟩
def F.DMA_ENG_STAT_RUNMAP : Fld := ⟨0, 8⟩
def F.DMA_ENG_STAT_PAUSEMAP : Fld := ⟨8, 8⟩
def F.DMA_ENG_STAT_ERRMAP : Fld := ⟨16, 8⟩
def F.DMA_CH_CFG_ESIZE : Fld := ⟨0, 3⟩
def F.DMA_CH_CFG_SRC_MODE : Fld := ⟨4, 2⟩
def F.DMA_CH_CFG_DST_MODE : Fld := ⟨8, 2⟩
def F.DMA_CH_CFG_SRC_KIND : Fld := ⟨12, 2⟩
def F.DMA_CH_CFG_DST_KIND : Fld := ⟨16, 2⟩
def F.DMA_CH_CFG_STREAM : Fld := ⟨20, 4⟩
def F.DMA_CH_CFG_CHAIN : Fld := ⟨24, 1⟩
def F.DMA_SRC_LO_ADDR : Fld := ⟨0, 32⟩
def F.DMA_SRC_HI_ADDR : Fld := ⟨0, 8⟩
def F.DMA_DST_LO_ADDR : Fld := ⟨0, 32⟩
def F.DMA_DST_HI_ADDR : Fld := ⟨0, 8⟩
def F.DMA_IDX_LO_ADDR : Fld := ⟨0, 32⟩
def F.DMA_IDX_HI_ADDR : Fld := ⟨0, 8⟩
def F.DMA_NEXT_LO_ADDR : Fld := ⟨0, 32⟩
def F.DMA_NEXT_HI_ADDR : Fld := ⟨0, 8⟩
def F.DMA_COUNT_N : Fld := ⟨0, 28⟩
def F.DMA_IDX_CUR_N : Fld := ⟨0, 28⟩
def F.DMA_DONE_CNT_N : Fld := ⟨0, 28⟩
def F.DMA_CMD_START : Fld := ⟨0, 1⟩
def F.DMA_CMD_PAUSE : Fld := ⟨1, 1⟩
def F.DMA_CMD_RESUME : Fld := ⟨2, 1⟩
def F.DMA_CMD_CANCEL : Fld := ⟨3, 1⟩
def F.DMA_STAT_STATE : Fld := ⟨0, 3⟩
def F.DMA_STAT_RESP : Fld := ⟨4, 4⟩
def F.DMA_STAT_PHASE : Fld := ⟨8, 2⟩
def F.DMA_STAT_OUT : Fld := ⟨16, 7⟩
def F.DMA_ERR_ADDR_LO_ADDR : Fld := ⟨0, 32⟩
def F.DMA_ERR_ADDR_HI_ADDR : Fld := ⟨0, 8⟩
def F.DMA_BUF_D : Fld := ⟨0, 32⟩
def F.LANE_CFG_EN : Fld := ⟨0, 1⟩
def F.LANE_CFG_RX_EQ : Fld := ⟨1, 1⟩
def F.LANE_CFG_RATEMASK : Fld := ⟨8, 8⟩
def F.LANE_CFG_EQ_TARGET : Fld := ⟨16, 7⟩
def F.LANE_REF_SRC : Fld := ⟨0, 2⟩
def F.LANE_REF_KHZ : Fld := ⟨12, 20⟩
def F.LANE_TX_PRE : Fld := ⟨0, 4⟩
def F.LANE_TX_MAIN : Fld := ⟨8, 6⟩
def F.LANE_TX_POST : Fld := ⟨16, 5⟩
def F.LANE_STAT_STATE : Fld := ⟨0, 3⟩
def F.LANE_STAT_RATE : Fld := ⟨4, 3⟩
def F.LANE_STAT_PRESENT : Fld := ⟨8, 1⟩
def F.LANE_STAT_DEGRADED : Fld := ⟨9, 1⟩
def F.LANE_STAT_ENC_UP : Fld := ⟨10, 1⟩
def F.LANE_STAT_CAUSE : Fld := ⟨12, 2⟩
def F.LANE_STAT_PTYPE : Fld := ⟨16, 8⟩
def F.LANE_STAT_PNODE : Fld := ⟨24, 8⟩
def F.LANE_TAPS_PRE : Fld := ⟨0, 4⟩
def F.LANE_TAPS_MAIN : Fld := ⟨8, 6⟩
def F.LANE_TAPS_POST : Fld := ⟨16, 5⟩
def F.LANE_EYE_METRIC : Fld := ⟨0, 7⟩
def F.LANE_EYE_REQS : Fld := ⟨15, 17⟩
def F.LANE_SCAN_CTRL_GO : Fld := ⟨0, 1⟩
def F.LANE_SCAN_CTRL_PHASE : Fld := ⟨8, 6⟩
def F.LANE_SCAN_CTRL_VOFS : Fld := ⟨16, 8⟩
def F.LANE_SCAN_CTRL_DWELL : Fld := ⟨24, 4⟩
def F.LANE_SCAN_ERR_N : Fld := ⟨0, 32⟩
def F.LANE_ENC_EN : Fld := ⟨0, 1⟩
def F.LANE_ENC_MODE : Fld := ⟨1, 1⟩
def F.LANE_ENC_KSIZE : Fld := ⟨2, 1⟩
def F.LANE_ENC_SLOT : Fld := ⟨4, 4⟩
def F.LANE_CRC_CNT_N : Fld := ⟨0, 32⟩
def F.LANE_REPLAY_CNT_N : Fld := ⟨0, 32⟩
def F.LANE_RETRAIN_CNT_N : Fld := ⟨0, 32⟩
def F.LANE_CV_CNT_N : Fld := ⟨0, 32⟩
def F.LANE_PLAIN_CNT_N : Fld := ⟨0, 32⟩
def F.DLNK_NODE_ID : Fld := ⟨0, 8⟩
def F.DLNK_RQ_STAT_N : Fld := ⟨0, 5⟩
def F.DLNK_BADTYPE_CNT_N : Fld := ⟨0, 32⟩
def F.DLNK_BADTYPE_LAST_TYPE : Fld := ⟨0, 8⟩
def F.DLNK_BADTYPE_LAST_SRC : Fld := ⟨8, 8⟩
def F.DLNK_BADTYPE_LAST_LANE : Fld := ⟨16, 3⟩
def F.DLNK_UNREACH_CNT_N : Fld := ⟨0, 32⟩
def F.DLNK_STR_CFG_EN : Fld := ⟨0, 1⟩
def F.DLNK_STR_CFG_LANE : Fld := ⟨4, 3⟩
def F.DLNK_STR_CFG_DST : Fld := ⟨8, 8⟩
def F.DLNK_STR_STAT_OPEN : Fld := ⟨0, 1⟩
def F.DLNK_STR_STAT_CREDIT : Fld := ⟨8, 24⟩
def F.DLNK_ROUTE_LANE0 : Fld := ⟨0, 3⟩
def F.DLNK_ROUTE_VALID0 : Fld := ⟨7, 1⟩
def F.DLNK_ROUTE_LANE1 : Fld := ⟨8, 3⟩
def F.DLNK_ROUTE_VALID1 : Fld := ⟨15, 1⟩
def F.DLNK_ROUTE_LANE2 : Fld := ⟨16, 3⟩
def F.DLNK_ROUTE_VALID2 : Fld := ⟨23, 1⟩
def F.DLNK_ROUTE_LANE3 : Fld := ⟨24, 3⟩
def F.DLNK_ROUTE_VALID3 : Fld := ⟨31, 1⟩
def F.UART_CFG_EN : Fld := ⟨0, 1⟩
def F.UART_CFG_MODE : Fld := ⟨1, 2⟩
def F.UART_CFG_DBITS : Fld := ⟨4, 4⟩
def F.UART_CFG_PARITY : Fld := ⟨8, 2⟩
def F.UART_CFG_STOP : Fld := ⟨10, 2⟩
def F.UART_CFG_INV : Fld := ⟨12, 1⟩
def F.UART_CFG_SIG : Fld := ⟨13, 1⟩
def F.UART_CFG_ESL : Fld := ⟨14, 1⟩
def F.UART_CFG_RETRY : Fld := ⟨16, 3⟩
def F.UART_CFG_EGT : Fld := ⟨24, 8⟩
def F.UART_BAUD_N : Fld := ⟨0, 20⟩
def F.UART_MAP_RX_NIB : Fld := ⟨0, 9⟩
def F.UART_MAP_ISL : Fld := ⟨16, 6⟩
def F.UART_STAT_RXCNT : Fld := ⟨0, 7⟩
def F.UART_STAT_TXCNT : Fld := ⟨8, 7⟩
def F.UART_STAT_RXBUSY : Fld := ⟨16, 1⟩
def F.UART_STAT_TXBUSY : Fld := ⟨17, 1⟩
def F.UART_STAT_LINE : Fld := ⟨18, 1⟩
def F.UART_RXQ_ENTRY : Fld := ⟨0, 32⟩
def F.UART_TXQ_DATA : Fld := ⟨0, 9⟩
def F.UART_FCMD_ID : Fld := ⟨0, 6⟩
def F.UART_FCMD_GO : Fld := ⟨31, 1⟩
def F.UART_WM_N : Fld := ⟨0, 7⟩
def F.UART_FCFG_BRK : Fld := ⟨0, 4⟩
def F.UART_FCFG_DELIM : Fld := ⟨4, 2⟩
def F.UART_FCFG_AUTOBAUD : Fld := ⟨8, 1⟩
def F.UART_RX_LOST_N : Fld := ⟨0, 32⟩
def F.UART_ERR_CNT_N : Fld := ⟨0, 32⟩
def F.UART_TXFAIL_CNT_N : Fld := ⟨0, 32⟩
def F.UART_IDTAB_LEN : Fld := ⟨0, 4⟩
def F.UART_IDTAB_CKS : Fld := ⟨4, 1⟩
def F.UART_IDTAB_DIR : Fld := ⟨5, 2⟩
def F.BIST_CTRL_MODE : Fld := ⟨0, 1⟩
def F.BIST_CTRL_LBIST : Fld := ⟨1, 1⟩
def F.BIST_CTRL_MBIST : Fld := ⟨2, 1⟩
def F.BIST_CTRL_LONG : Fld := ⟨3, 1⟩
def F.BIST_CTRL_REPAIR_EN : Fld := ⟨4, 1⟩
def F.BIST_CTRL_PAR : Fld := ⟨8, 3⟩
def F.BIST_SEL0_MAP : Fld := ⟨0, 32⟩
def F.BIST_SEL1_MAPA : Fld := ⟨0, 29⟩
def F.BIST_SEL1_MAPB : Fld := ⟨30, 2⟩
def F.BIST_CMD_START : Fld := ⟨0, 1⟩
def F.BIST_CMD_ABORT : Fld := ⟨1, 1⟩
def F.BIST_STAT_STATE : Fld := ⟨0, 2⟩
def F.BIST_STAT_ORIGIN : Fld := ⟨2, 1⟩
def F.BIST_STAT_CUR : Fld := ⟨8, 6⟩
def F.BIST_STAT_NFAIL : Fld := ⟨16, 8⟩
def F.BIST_STAT_NREP : Fld := ⟨24, 8⟩
def F.BIST_KSEL0_MAP : Fld := ⟨0, 32⟩
def F.BIST_KSEL1_MAPA : Fld := ⟨0, 29⟩
def F.BIST_KSEL1_MAPB : Fld := ⟨30, 2⟩
def F.BIST_KCTRL_LBIST : Fld := ⟨1, 1⟩
def F.BIST_KCTRL_MBIST : Fld := ⟨2, 1⟩
def F.BIST_KCTRL_LONG : Fld := ⟨3, 1⟩
def F.BIST_KCTRL_REPAIR_EN : Fld := ⟨4, 1⟩
def F.BIST_KCTRL_REPAIR_FAILS : Fld := ⟨5, 1⟩
def F.BIST_KCTRL_PAR : Fld := ⟨8, 3⟩
def F.BIST_FLOG_CNT_N : Fld := ⟨0, 16⟩
def F.BIST_ELAPSED_US : Fld := ⟨0, 32⟩
def F.BIST_REFUSE_TGT_T : Fld := ⟨0, 6⟩
def F.BIST_RES_LRES : Fld := ⟨0, 2⟩
def F.BIST_RES_MRES : Fld := ⟨2, 2⟩
def F.BIST_RES_REPAIRED : Fld := ⟨4, 1⟩
def F.BIST_RES_SPARES : Fld := ⟨8, 3⟩
def F.BIST_FLOG_A_TARGET : Fld := ⟨0, 6⟩
def F.BIST_FLOG_A_MEM : Fld := ⟨8, 6⟩
def F.BIST_FLOG_A_WORD : Fld := ⟨16, 16⟩
def F.BIST_FLOG_B_BIT : Fld := ⟨0, 7⟩
def F.BIST_FLOG_B_REPAIRED : Fld := ⟨8, 1⟩
def F.BIST_FLOG_B_VALID : Fld := ⟨31, 1⟩
def F.MON_CFG_ECHO : Fld := ⟨0, 1⟩
def F.MON_CFG_IDLE_MIN : Fld := ⟨8, 8⟩
def F.MON_STAT_MON_FAILS : Fld := ⟨0, 4⟩
def F.MON_STAT_HSP_FAILS : Fld := ⟨4, 4⟩
def F.MON_STAT_DLNK_FAILS : Fld := ⟨8, 4⟩
def F.MON_STAT_MON_LOCK : Fld := ⟨16, 1⟩
def F.MON_STAT_HSP_LOCK : Fld := ⟨17, 1⟩
def F.MON_STAT_DLNK_LOCK : Fld := ⟨18, 1⟩
def F.MON_STAT_PW_SET : Fld := ⟨24, 1⟩
def F.MON_STAT_KEY_SET : Fld := ⟨25, 1⟩
def F.MON_UL_CMD_OP : Fld := ⟨0, 3⟩
def F.MON_UL_CMD_LEN : Fld := ⟨8, 6⟩
def F.MON_UL_CMD_LEVEL : Fld := ⟨16, 2⟩
def F.MON_UL_CMD_GO : Fld := ⟨31, 1⟩
def F.MON_UL_STAT_RESULT : Fld := ⟨0, 3⟩
def F.MON_UL_DATA_D : Fld := ⟨0, 32⟩
def F.MON_UL_CHAL_D : Fld := ⟨0, 32⟩
def F.IRQ_BALL_STAT_ASSERTED : Fld := ⟨0, 4⟩
def F.IRQ_HALT_CLR_CLR : Fld := ⟨0, 1⟩
def F.IRQ_HALT_INFO_CAUSE : Fld := ⟨0, 3⟩
def F.IRQ_HALT_INFO_ALSO : Fld := ⟨8, 4⟩
def F.IRQ_HALT_INFO_VALID : Fld := ⟨31, 1⟩
def F.IRQ_HALT_TS_LO_T : Fld := ⟨0, 32⟩
def F.IRQ_HALT_TS_HI_T : Fld := ⟨0, 16⟩
def F.IRQ_HALT_A0_D : Fld := ⟨0, 32⟩
def F.IRQ_HALT_A1_D : Fld := ⟨0, 32⟩
def F.IRQ_PEND_ACT : Fld := ⟨0, 32⟩
def F.IRQ_PEND9_ACT : Fld := ⟨0, 16⟩
def F.FI_ISL_INFO_ROW : Fld := ⟨0, 3⟩
def F.FI_ISL_INFO_COL : Fld := ⟨4, 3⟩
def F.FI_ISL_INFO_BANK : Fld := ⟨8, 3⟩
def F.FI_ISL_INFO_EMPTY : Fld := ⟨12, 1⟩
def F.FI_ISL_INFO_UW : Fld := ⟨13, 1⟩
def F.FI_ISL_INFO_MP : Fld := ⟨14, 1⟩
def F.FI_ISL_INFO_CRIT : Fld := ⟨15, 1⟩
def F.FI_ISL_STAT_FENCED : Fld := ⟨0, 1⟩
def F.FI_ISL_STAT_DRAINED : Fld := ⟨1, 1⟩
def F.FI_ISL_STAT_GATED : Fld := ⟨2, 1⟩
def F.FI_FENCE_FENCE : Fld := ⟨0, 1⟩
def F.FI_COMMIT_INFO_REASON : Fld := ⟨0, 3⟩
def F.FI_HOLD_D0_D : Fld := ⟨0, 32⟩
def F.FI_HOLD_D1_D : Fld := ⟨0, 32⟩
def F.FI_HOLD_OE0_OE : Fld := ⟨0, 32⟩
def F.FI_HOLD_OE1_OE : Fld := ⟨0, 32⟩
def F.FI_PROBE0_MAP : Fld := ⟨0, 32⟩
def F.FI_PROBE1_MAP : Fld := ⟨0, 32⟩
def F.FI_WEDGE_INFO_PORT : Fld := ⟨0, 5⟩
def F.FI_WEDGE_INFO_VALID : Fld := ⟨8, 1⟩
def F.FI_CE_CNT_N : Fld := ⟨0, 16⟩
def F.FI_UE_CNT_N : Fld := ⟨0, 16⟩
def F.FI_POISON_CNT_N : Fld := ⟨0, 16⟩
def F.FI_CE_LAST_WORD : Fld := ⟨0, 9⟩
def F.FI_CE_LAST_MEM : Fld := ⟨12, 5⟩
def F.FI_CE_LAST_KIND : Fld := ⟨18, 2⟩
def F.FI_CE_LAST_SYND : Fld := ⟨24, 8⟩
def F.FI_UE_LAST_WORD : Fld := ⟨0, 9⟩
def F.FI_UE_LAST_MEM : Fld := ⟨12, 5⟩
def F.FI_UE_LAST_KIND : Fld := ⟨18, 2⟩
def F.FI_UE_LAST_SYND : Fld := ⟨24, 8⟩
def F.FI_ECC_CLR_CLR : Fld := ⟨0, 1⟩
def F.FI_NPORT_NIB : Fld := ⟨0, 9⟩

/-! ### The rows of each page -/

/-- Block registers of the sys page. -/
def rows_sys : List RegRow :=
  [⟨0x040, 4, 1, [⟨0, 2, .roh, 0x0⟩, ⟨2, 2, .roh, 0x0⟩, ⟨4, 2, .roh, 0x0⟩, ⟨6, 2, .roh, 0x0⟩]⟩,
   ⟨0x044, 4, 1, [⟨0, 12, .wo, 0x0⟩, ⟨16, 1, .wo, 0x0⟩, ⟨31, 1, .wo, 0x0⟩]⟩,
   ⟨0x048, 4, 1, [⟨0, 1, .roh, 0x0⟩, ⟨1, 1, .roh, 0x0⟩, ⟨2, 1, .roh, 0x0⟩, ⟨3, 1, .roh, 0x0⟩, ⟨4, 4, .roh, 0x0⟩, ⟨16, 12, .roh, 0x0⟩]⟩,
   ⟨0x04C, 4, 1, [⟨0, 32, .roh, 0x0⟩]⟩,
   ⟨0x050, 4, 1, [⟨0, 32, .roh, 0x0⟩]⟩,
   ⟨0x054, 4, 1, [⟨0, 16, .roh, 0x0⟩]⟩,
   ⟨0x058, 4, 1, [⟨0, 16, .roh, 0x0⟩]⟩,
   ⟨0x060, 4, 1, [⟨0, 16, .wo, 0x0⟩]⟩]

/-- Block registers of the vlog page. -/
def rows_vlog : List RegRow :=
  [⟨0x040, 4, 1, [⟨0, 32, .roh, 0x0⟩]⟩,
   ⟨0x044, 4, 1, [⟨0, 5, .roh, 0x0⟩]⟩,
   ⟨0x100, 16, 32, [⟨0, 24, .roh, 0x0⟩]⟩,
   ⟨0x104, 16, 32, [⟨0, 2, .roh, 0x0⟩, ⟨2, 1, .roh, 0x0⟩, ⟨4, 3, .roh, 0x0⟩, ⟨8, 2, .roh, 0x0⟩, ⟨15, 1, .roh, 0x0⟩, ⟨16, 16, .roh, 0x0⟩]⟩,
   ⟨0x108, 16, 32, [⟨0, 32, .roh, 0x0⟩]⟩,
   ⟨0x10C, 16, 32, [⟨0, 16, .roh, 0x0⟩]⟩]

/-- Block registers of the pwr page. -/
def rows_pwr : List RegRow :=
  [⟨0x040, 4, 1, [⟨0, 32, .rws, 0xFFFFFFFF⟩]⟩,
   ⟨0x044, 4, 1, [⟨0, 32, .rws, 0xFFFFFFFF⟩]⟩,
   ⟨0x048, 4, 1, [⟨0, 32, .roh, 0xFFFFFFFF⟩]⟩,
   ⟨0x04C, 4, 1, [⟨0, 32, .roh, 0xFFFFFFFF⟩]⟩,
   ⟨0x050, 4, 1, [⟨0, 13, .roh, 0x1FFF⟩]⟩,
   ⟨0x054, 4, 1, [⟨0, 13, .w1c, 0x0⟩]⟩,
   ⟨0x058, 4, 1, [⟨8, 2, .roh, 0x0⟩, ⟨0, 6, .roh, 0x0⟩]⟩]

/-- Block registers of the surv page. -/
def rows_surv : List RegRow :=
  [⟨0x040, 4, 1, [⟨4, 3, .roh, 0x0⟩, ⟨0, 3, .roh, 0x0⟩]⟩,
   ⟨0x044, 4, 1, [⟨5, 1, .roh, 0x0⟩, ⟨4, 1, .roh, 0x0⟩, ⟨3, 1, .roh, 0x0⟩, ⟨2, 1, .roh, 0x0⟩, ⟨1, 1, .roh, 0x0⟩, ⟨0, 1, .roh, 0x0⟩]⟩,
   ⟨0x048, 4, 1, [⟨24, 8, .wo, 0x0⟩, ⟨0, 1, .wo, 0x0⟩]⟩,
   ⟨0x04C, 4, 1, [⟨0, 12, .roh, 0x0⟩]⟩,
   ⟨0x050, 4, 1, [⟨0, 12, .roh, 0x0⟩]⟩,
   ⟨0x054, 4, 1, [⟨31, 1, .rw, 0x0⟩, ⟨0, 12, .rw, 0x0⟩]⟩,
   ⟨0x058, 4, 1, [⟨16, 16, .roh, 0x0⟩, ⟨8, 8, .roh, 0x0⟩, ⟨4, 4, .roh, 0x0⟩, ⟨0, 4, .roh, 0x0⟩]⟩,
   ⟨0x05C, 4, 1, [⟨0, 32, .roh, 0x0⟩]⟩,
   ⟨0x060, 4, 1, [⟨0, 32, .roh, 0x0⟩]⟩,
   ⟨0x064, 4, 1, [⟨0, 11, .rw, 0x0⟩]⟩,
   ⟨0x068, 4, 1, [⟨0, 12, .roh, 0xFFF⟩]⟩,
   ⟨0x070, 4, 1, [⟨0, 32, .roh, 0x0⟩]⟩] ++
  [⟨0x074, 4, 1, [⟨0, 32, .roh, 0x0⟩]⟩,
   ⟨0x078, 4, 1, [⟨0, 32, .roh, 0x0⟩]⟩,
   ⟨0x07C, 4, 1, [⟨0, 5, .roh, 0x1⟩]⟩]

/-- Block registers of the clk page. -/
def rows_clk : List RegRow :=
  [⟨0x040, 16, 4, [⟨0, 1, .rw, 0x0⟩, ⟨4, 3, .rw, 0x0⟩, ⟨8, 4, .rw, 0x2⟩]⟩,
   ⟨0x044, 16, 4, [⟨0, 24, .rw, 0x2000⟩]⟩,
   ⟨0x048, 16, 4, [⟨0, 16, .rw, 0x61A8⟩]⟩,
   ⟨0x04C, 16, 4, [⟨0, 1, .roh, 0x0⟩, ⟨1, 1, .roh, 0x0⟩, ⟨8, 24, .roh, 0x0⟩]⟩,
   ⟨0x080, 4, 1, [⟨4, 1, .rw, 0x0⟩, ⟨8, 4, .rw, 0x0⟩]⟩,
   ⟨0x084, 4, 1, [⟨0, 1, .wo, 0x0⟩, ⟨1, 1, .wo, 0x0⟩]⟩,
   ⟨0x088, 4, 1, [⟨0, 1, .roh, 0x0⟩, ⟨4, 4, .roh, 0x0⟩, ⟨16, 16, .roh, 0x0⟩]⟩,
   ⟨0x100, 64, 4, [⟨0, 1, .rw, 0x0⟩]⟩,
   ⟨0x104, 64, 4, [⟨0, 6, .rw, 0x1⟩, ⟨16, 9, .rw, 0x80⟩]⟩,
   ⟨0x108, 64, 4, [⟨0, 7, .rw, 0x0⟩, ⟨8, 7, .rw, 0x0⟩, ⟨16, 7, .rw, 0x0⟩, ⟨24, 7, .rw, 0x0⟩]⟩,
   ⟨0x10C, 64, 4, [⟨0, 10, .rw, 0x64⟩]⟩,
   ⟨0x110, 64, 4, [⟨0, 3, .rw, 0x0⟩, ⟨4, 3, .rw, 0x0⟩, ⟨8, 3, .rw, 0x0⟩, ⟨12, 3, .rw, 0x0⟩, ⟨16, 3, .rw, 0x0⟩, ⟨20, 2, .rw, 0x0⟩, ⟨24, 3, .rw, 0x0⟩]⟩] ++
  [⟨0x114, 64, 4, [⟨0, 14, .rw, 0x3E8⟩]⟩,
   ⟨0x118, 64, 4, [⟨0, 3, .roh, 0x0⟩, ⟨4, 3, .roh, 0x7⟩, ⟨8, 3, .roh, 0x7⟩, ⟨12, 3, .roh, 0x0⟩, ⟨16, 1, .roh, 0x0⟩]⟩,
   ⟨0x11C, 64, 4, [⟨0, 21, .roh, 0x0⟩]⟩,
   ⟨0x120, 64, 4, [⟨0, 16, .roh, 0x0⟩, ⟨16, 16, .roh, 0x0⟩]⟩,
   ⟨0x124, 64, 4, [⟨0, 13, .roh, 0x0⟩]⟩]

/-- Block registers of the isl page. -/
def rows_isl : List RegRow :=
  [⟨0x040, 4, 1, [⟨0, 7, .roh, 0x0⟩, ⟨8, 3, .roh, 0x0⟩]⟩,
   ⟨0x044, 4, 3, [⟨0, 32, .roh, 0x0⟩]⟩,
   ⟨0x050, 4, 3, [⟨0, 32, .roh, 0x0⟩]⟩,
   ⟨0x100, 16, 66, [⟨0, 2, .rws, 0x1⟩, ⟨2, 2, .rws, 0x0⟩, ⟨4, 2, .rws, 0x0⟩, ⟨6, 1, .rws, 0x0⟩, ⟨8, 7, .rws, 0x0⟩, ⟨16, 7, .rws, 0x1⟩]⟩,
   ⟨0x104, 16, 66, [⟨0, 2, .rws, 0x0⟩, ⟨2, 2, .rws, 0x0⟩, ⟨4, 2, .rws, 0x0⟩, ⟨7, 1, .rws, 0x0⟩, ⟨16, 7, .rws, 0x1⟩]⟩,
   ⟨0x108, 16, 66, [⟨0, 2, .roh, 0x1⟩, ⟨4, 3, .roh, 0x0⟩, ⟨16, 16, .roh, 0x32⟩]⟩]

/-- Block registers of the nib page. -/
def rows_nib : List RegRow :=
  [⟨0x040, 4, 1, [⟨0, 6, .roh, 0x0⟩, ⟨8, 2, .roh, 0x0⟩]⟩,
   ⟨0x044, 4, 1, [⟨0, 1, .roh, 0x0⟩, ⟨1, 1, .roh, 0x0⟩, ⟨4, 2, .roh, 0x0⟩]⟩,
   ⟨0x048, 4, 1, [⟨0, 32, .roh, 0x0⟩]⟩,
   ⟨0x04C, 4, 1, [⟨0, 16, .roh, 0x0⟩]⟩,
   ⟨0x050, 4, 1, [⟨0, 32, .roh, 0x0⟩]⟩,
   ⟨0x054, 4, 1, [⟨0, 16, .roh, 0x0⟩]⟩,
   ⟨0x100, 16, 48, [⟨0, 10, .rws, 0x200⟩, ⟨12, 2, .rws, 0x0⟩, ⟨16, 2, .rws, 0x0⟩, ⟨20, 2, .rws, 0x1⟩, ⟨24, 2, .rws, 0x0⟩, ⟨26, 1, .rws, 0x0⟩, ⟨27, 1, .rws, 0x1⟩]⟩,
   ⟨0x104, 16, 48, [⟨0, 6, .rws, 0x3F⟩]⟩,
   ⟨0x108, 16, 48, [⟨0, 2, .ro, 0x0⟩, ⟨4, 2, .ro, 0x2⟩, ⟨8, 2, .ro, 0x0⟩, ⟨12, 1, .ro, 0x0⟩, ⟨16, 6, .ro, 0x3F⟩]⟩,
   ⟨0x10C, 16, 48, [⟨0, 2, .roh, 0x2⟩, ⟨4, 1, .roh, 0x0⟩, ⟨5, 1, .roh, 0x0⟩]⟩]

/-- Block registers of the cut page. -/
def rows_cut : List RegRow :=
  [⟨0x040, 4, 1, [⟨0, 5, .wo, 0x0⟩, ⟨8, 1, .wo, 0x0⟩, ⟨9, 1, .wo, 0x0⟩, ⟨10, 1, .wo, 0x0⟩, ⟨11, 1, .wo, 0x0⟩, ⟨31, 1, .wo, 0x0⟩]⟩,
   ⟨0x044, 4, 1, [⟨0, 32, .roh, 0x0⟩]⟩,
   ⟨0x100, 16, 32, [⟨0, 3, .rw, 0x0⟩, ⟨4, 2, .rw, 0x0⟩, ⟨16, 16, .rw, 0x3E8⟩]⟩,
   ⟨0x104, 16, 32, [⟨0, 2, .roh, 0x0⟩, ⟨4, 4, .roh, 0x0⟩, ⟨8, 1, .roh, 0x0⟩, ⟨9, 1, .roh, 0x0⟩, ⟨16, 9, .roh, 0x0⟩, ⟨25, 7, .roh, 0x0⟩]⟩,
   ⟨0x108, 16, 32, [⟨0, 32, .roh, 0x0⟩]⟩,
   ⟨0x10C, 16, 32, [⟨0, 16, .roh, 0x0⟩]⟩]

/-- Block registers of the cfgc page. -/
def rows_cfgc : List RegRow :=
  [⟨0x040, 4, 1, [⟨0, 32, .roh, 0x0⟩]⟩,
   ⟨0x044, 4, 1, [⟨0, 2, .roh, 0x0⟩, ⟨8, 6, .roh, 0x3F⟩, ⟨16, 6, .roh, 0x3F⟩]⟩,
   ⟨0x048, 4, 1, [⟨0, 32, .roh, 0x0⟩]⟩,
   ⟨0x04C, 4, 1, [⟨0, 16, .roh, 0x0⟩]⟩,
   ⟨0x050, 4, 1, [⟨0, 32, .roh, 0x0⟩]⟩,
   ⟨0x054, 4, 1, [⟨0, 16, .roh, 0x0⟩]⟩,
   ⟨0x058, 4, 1, [⟨0, 32, .roh, 0x0⟩]⟩,
   ⟨0x05C, 4, 1, [⟨0, 16, .roh, 0x0⟩]⟩,
   ⟨0x060, 4, 1, [⟨0, 4, .roh, 0x0⟩, ⟨4, 12, .roh, 0x0⟩, ⟨16, 6, .roh, 0x3F⟩, ⟨24, 3, .roh, 0x0⟩]⟩,
   ⟨0x064, 4, 1, [⟨0, 6, .rw, 0x0⟩]⟩,
   ⟨0x068, 4, 1, [⟨12, 20, .rw, 0x0⟩]⟩,
   ⟨0x06C, 4, 1, [⟨31, 1, .wo, 0x0⟩]⟩] ++
  [⟨0x070, 4, 1, [⟨0, 3, .roh, 0x0⟩, ⟨8, 4, .roh, 0x0⟩, ⟨16, 16, .roh, 0x0⟩]⟩,
   ⟨0x074, 4, 1, [⟨0, 6, .rw, 0x0⟩]⟩,
   ⟨0x078, 4, 1, [⟨0, 32, .roh, 0x0⟩]⟩]

/-- Block registers of the blot page. -/
def rows_blot : List RegRow :=
  [⟨0x040, 4, 1, [⟨0, 1, .rw, 0x1⟩, ⟨1, 1, .rw, 0x1⟩, ⟨16, 16, .rw, 0x0⟩]⟩,
   ⟨0x044, 4, 1, [⟨0, 6, .roh, 0x0⟩, ⟨8, 10, .roh, 0x0⟩, ⟨31, 1, .roh, 0x0⟩]⟩,
   ⟨0x048, 4, 1, [⟨0, 32, .roh, 0x0⟩]⟩,
   ⟨0x04C, 4, 1, [⟨0, 16, .roh, 0x0⟩]⟩,
   ⟨0x050, 4, 1, [⟨0, 16, .roh, 0x0⟩]⟩,
   ⟨0x054, 4, 1, [⟨0, 16, .roh, 0x0⟩]⟩,
   ⟨0x058, 4, 1, [⟨0, 16, .roh, 0x0⟩]⟩,
   ⟨0x05C, 4, 1, [⟨0, 10, .roh, 0x0⟩, ⟨16, 6, .roh, 0x0⟩, ⟨24, 5, .roh, 0x0⟩]⟩,
   ⟨0x060, 4, 1, [⟨0, 10, .roh, 0x0⟩, ⟨16, 6, .roh, 0x0⟩, ⟨24, 3, .roh, 0x0⟩]⟩,
   ⟨0x064, 4, 1, [⟨0, 1, .wo, 0x0⟩]⟩]

/-- Block registers of the cap page. -/
def rows_cap : List RegRow :=
  [⟨0x040, 4, 1, [⟨0, 1, .rw, 0x0⟩, ⟨4, 1, .rw, 0x0⟩, ⟨8, 3, .rw, 0x0⟩, ⟨12, 2, .rw, 0x0⟩]⟩,
   ⟨0x044, 4, 1, [⟨0, 32, .rw, 0x0⟩]⟩,
   ⟨0x048, 4, 1, [⟨0, 18, .rw, 0x0⟩]⟩,
   ⟨0x04C, 4, 1, [⟨0, 32, .rw, 0x0⟩]⟩,
   ⟨0x050, 4, 1, [⟨0, 10, .rw, 0x0⟩]⟩,
   ⟨0x054, 4, 1, [⟨0, 32, .rw, 0x0⟩]⟩,
   ⟨0x058, 4, 1, [⟨0, 1, .wo, 0x0⟩, ⟨1, 1, .wo, 0x0⟩, ⟨2, 1, .wo, 0x0⟩]⟩,
   ⟨0x05C, 4, 1, [⟨0, 2, .roh, 0x0⟩, ⟨4, 3, .roh, 0x0⟩, ⟨8, 1, .roh, 0x0⟩, ⟨9, 1, .roh, 0x0⟩, ⟨16, 7, .roh, 0x0⟩]⟩,
   ⟨0x060, 4, 1, [⟨0, 32, .roh, 0x0⟩]⟩,
   ⟨0x064, 4, 1, [⟨0, 16, .roh, 0x0⟩]⟩,
   ⟨0x068, 4, 1, [⟨0, 32, .roh, 0x0⟩]⟩,
   ⟨0x06C, 4, 1, [⟨0, 16, .roh, 0x0⟩]⟩]

/-- Block registers of the ink page. -/
def rows_ink : List RegRow :=
  [⟨0x040, 4, 1, [⟨0, 2, .rw, 0x0⟩, ⟨4, 1, .rw, 0x0⟩, ⟨8, 3, .rw, 0x0⟩, ⟨12, 1, .rw, 0x0⟩, ⟨16, 4, .rw, 0x1⟩]⟩,
   ⟨0x044, 4, 1, [⟨0, 32, .rw, 0xFFFFFFFF⟩]⟩,
   ⟨0x048, 4, 1, [⟨0, 18, .rw, 0x3FFFF⟩]⟩,
   ⟨0x04C, 4, 1, [⟨0, 10, .rw, 0x100⟩]⟩,
   ⟨0x050, 4, 1, [⟨0, 18, .roh, 0x0⟩]⟩,
   ⟨0x054, 4, 1, [⟨0, 9, .rw, 0x0⟩]⟩,
   ⟨0x058, 4, 1, [⟨0, 9, .roh, 0x0⟩]⟩,
   ⟨0x05C, 4, 1, [⟨0, 19, .roh, 0x0⟩]⟩,
   ⟨0x060, 4, 1, [⟨0, 2, .roh, 0x0⟩, ⟨16, 16, .roh, 0x0⟩]⟩,
   ⟨0x064, 4, 1, [⟨0, 32, .roh, 0x0⟩]⟩,
   ⟨0x068, 4, 1, [⟨0, 32, .roh, 0x0⟩]⟩,
   ⟨0x06C, 4, 1, [⟨0, 18, .roh, 0x0⟩]⟩] ++
  [⟨0x070, 4, 1, [⟨12, 20, .rw, 0x0⟩]⟩,
   ⟨0x074, 4, 1, [⟨0, 8, .rw, 0x0⟩]⟩,
   ⟨0x078, 4, 1, [⟨0, 20, .rw, 0x10⟩]⟩,
   ⟨0x07C, 4, 1, [⟨0, 20, .roh, 0x0⟩]⟩,
   ⟨0x080, 4, 1, [⟨0, 20, .rw, 0x0⟩]⟩,
   ⟨0x084, 4, 1, [⟨0, 20, .roh, 0x0⟩]⟩,
   ⟨0x088, 4, 1, [⟨0, 18, .rw, 0x0⟩, ⟨31, 1, .roh, 0x0⟩]⟩,
   ⟨0x08C, 4, 1, [⟨0, 32, .roh, 0x0⟩]⟩,
   ⟨0x090, 4, 1, [⟨0, 32, .roh, 0x0⟩]⟩,
   ⟨0x094, 4, 1, [⟨0, 16, .roh, 0x0⟩]⟩,
   ⟨0x098, 4, 1, [⟨0, 16, .roh, 0x0⟩]⟩]

/-- Block registers of the qcx page. -/
def rows_qcx : List RegRow :=
  [⟨0x040, 4, 1, [⟨0, 1, .rw, 0x0⟩, ⟨1, 1, .rw, 0x0⟩]⟩,
   ⟨0x044, 4, 1, [⟨0, 1, .wo, 0x0⟩, ⟨1, 1, .wo, 0x0⟩, ⟨2, 1, .wo, 0x0⟩]⟩,
   ⟨0x048, 4, 1, [⟨0, 2, .roh, 0x0⟩, ⟨2, 1, .roh, 0x0⟩, ⟨4, 3, .roh, 0x0⟩, ⟨8, 3, .roh, 0x0⟩]⟩,
   ⟨0x04C, 4, 1, [⟨0, 12, .rw, 0x0⟩]⟩,
   ⟨0x050, 4, 1, [⟨0, 12, .rw, 0xFFF⟩]⟩,
   ⟨0x054, 4, 1, [⟨0, 12, .rw, 0x0⟩]⟩,
   ⟨0x058, 4, 1, [⟨0, 12, .rw, 0x0⟩]⟩,
   ⟨0x05C, 4, 1, [⟨0, 12, .roh, 0x0⟩]⟩,
   ⟨0x060, 4, 1, [⟨0, 12, .roh, 0x0⟩, ⟨16, 3, .roh, 0x0⟩, ⟨24, 6, .roh, 0x0⟩, ⟨31, 1, .roh, 0x0⟩]⟩,
   ⟨0x064, 4, 1, [⟨0, 32, .roh, 0x0⟩]⟩,
   ⟨0x068, 4, 1, [⟨0, 16, .roh, 0x0⟩]⟩,
   ⟨0x06C, 4, 1, [⟨0, 16, .roh, 0x0⟩]⟩] ++
  [⟨0x070, 4, 1, [⟨0, 4, .rw, 0x0⟩]⟩,
   ⟨0x074, 4, 1, [⟨0, 32, .roh, 0x0⟩]⟩,
   ⟨0x078, 4, 1, [⟨0, 32, .roh, 0x0⟩]⟩,
   ⟨0x07C, 4, 1, [⟨0, 32, .roh, 0x0⟩]⟩,
   ⟨0x080, 4, 1, [⟨0, 1, .roh, 0x0⟩]⟩,
   ⟨0x084, 4, 1, [⟨0, 1, .wo, 0x0⟩]⟩,
   ⟨0x090, 4, 4, [⟨0, 6, .rw, 0x0⟩, ⟨8, 8, .rw, 0x0⟩, ⟨16, 8, .rw, 0x0⟩]⟩,
   ⟨0x0A0, 8, 4, [⟨0, 32, .rw, 0x0⟩]⟩,
   ⟨0x0A4, 8, 4, [⟨0, 16, .rw, 0x0⟩]⟩,
   ⟨0x0C0, 8, 2, [⟨0, 32, .rw, 0x0⟩]⟩,
   ⟨0x0C4, 8, 2, [⟨0, 16, .rw, 0x0⟩]⟩,
   ⟨0x0D0, 8, 4, [⟨0, 32, .roh, 0x0⟩]⟩] ++
  [⟨0x0D4, 8, 4, [⟨0, 16, .roh, 0x0⟩]⟩,
   ⟨0x0F0, 8, 2, [⟨0, 32, .roh, 0x0⟩]⟩,
   ⟨0x0F4, 8, 2, [⟨0, 16, .roh, 0x0⟩]⟩]

/-- Block registers of the qst page. -/
def rows_qst : List RegRow :=
  [⟨0x040, 4, 1, [⟨0, 12, .rw, 0x0⟩]⟩,
   ⟨0x044, 4, 1, [⟨0, 32, .rw, 0x0⟩]⟩,
   ⟨0x048, 4, 1, [⟨0, 32, .rw, 0x0⟩]⟩,
   ⟨0x04C, 4, 1, [⟨0, 32, .rw, 0x0⟩]⟩,
   ⟨0x050, 4, 1, [⟨0, 1, .roh, 0x0⟩]⟩]

/-- Block registers of the trc page. -/
def rows_trc : List RegRow :=
  [⟨0x040, 4, 1, [⟨0, 1, .rw, 0x0⟩]⟩,
   ⟨0x044, 4, 1, [⟨0, 9, .roh, 0x0⟩, ⟨16, 3, .roh, 0x0⟩]⟩,
   ⟨0x048, 4, 1, [⟨0, 11, .roh, 0x0⟩]⟩,
   ⟨0x04C, 4, 1, [⟨0, 32, .roh, 0x0⟩]⟩,
   ⟨0x050, 4, 1, [⟨0, 32, .roh, 0x0⟩]⟩,
   ⟨0x054, 4, 1, [⟨0, 1, .wo, 0x0⟩]⟩,
   ⟨0x060, 4, 4, [⟨0, 32, .roh, 0x0⟩]⟩,
   ⟨0x080, 4, 10, [⟨0, 32, .rws, 0x0⟩]⟩,
   ⟨0x0A8, 4, 1, [⟨0, 16, .rws, 0x0⟩]⟩,
   ⟨0x0C0, 4, 42, [⟨0, 32, .rws, 0x0⟩]⟩,
   ⟨0x180, 4, 10, [⟨0, 32, .roh, 0x0⟩]⟩,
   ⟨0x1A8, 4, 1, [⟨0, 16, .roh, 0x0⟩]⟩] ++
  [⟨0x200, 16, 16, [⟨0, 24, .rws, 0x0⟩]⟩,
   ⟨0x204, 16, 16, [⟨0, 24, .rws, 0x0⟩]⟩,
   ⟨0x208, 16, 16, [⟨0, 16, .rws, 0x1⟩, ⟨16, 1, .rws, 0x0⟩]⟩,
   ⟨0x300, 8, 16, [⟨0, 24, .roh, 0x0⟩]⟩,
   ⟨0x304, 8, 16, [⟨0, 24, .roh, 0x0⟩]⟩,
   ⟨0x380, 16, 8, [⟨0, 9, .rws, 0x0⟩, ⟨9, 1, .rws, 0x0⟩, ⟨12, 3, .rws, 0x0⟩, ⟨16, 8, .rws, 0x0⟩, ⟨31, 1, .rws, 0x0⟩]⟩,
   ⟨0x384, 16, 8, [⟨0, 32, .rws, 0x0⟩]⟩,
   ⟨0x388, 16, 8, [⟨0, 16, .rws, 0x0⟩]⟩,
   ⟨0x38C, 16, 8, [⟨0, 32, .roh, 0x0⟩]⟩]

/-- Block registers of the tdc page. -/
def rows_tdc : List RegRow :=
  [⟨0x040, 4, 1, [⟨0, 16, .roh, 0x0⟩, ⟨16, 1, .roh, 0x0⟩, ⟨24, 8, .roh, 0x0⟩]⟩,
   ⟨0x044, 4, 1, [⟨0, 1, .wo, 0x0⟩]⟩,
   ⟨0x100, 64, 8, [⟨0, 1, .rw, 0x0⟩, ⟨4, 1, .rw, 0x0⟩, ⟨8, 9, .rw, 0x0⟩, ⟨20, 2, .rw, 0x0⟩, ⟨24, 1, .rw, 0x0⟩]⟩,
   ⟨0x104, 64, 8, [⟨0, 16, .rw, 0x0⟩]⟩,
   ⟨0x108, 64, 8, [⟨0, 11, .roh, 0x0⟩]⟩,
   ⟨0x10C, 64, 8, [⟨0, 32, .roh, 0x0⟩]⟩,
   ⟨0x110, 64, 8, [⟨0, 32, .roh, 0x0⟩]⟩,
   ⟨0x114, 64, 8, [⟨0, 32, .roh, 0x0⟩]⟩,
   ⟨0x118, 64, 8, [⟨0, 11, .rw, 0x200⟩]⟩,
   ⟨0x120, 64, 8, [⟨0, 32, .roh, 0x0⟩]⟩,
   ⟨0x124, 64, 8, [⟨0, 32, .roh, 0x0⟩]⟩,
   ⟨0x128, 64, 8, [⟨0, 32, .roh, 0x0⟩]⟩] ++
  [⟨0x12C, 64, 8, [⟨0, 32, .roh, 0x0⟩]⟩]

/-- Block registers of the tin page. -/
def rows_tin : List RegRow :=
  [⟨0x040, 16, 4, [⟨0, 1, .rw, 0x0⟩, ⟨1, 1, .rw, 0x0⟩, ⟨2, 1, .rw, 0x0⟩, ⟨4, 2, .rw, 0x0⟩, ⟨6, 2, .rw, 0x0⟩, ⟨8, 4, .rw, 0x0⟩, ⟨16, 12, .rw, 0x0⟩]⟩,
   ⟨0x044, 16, 4, [⟨0, 1, .roh, 0x0⟩]⟩,
   ⟨0x048, 16, 4, [⟨0, 32, .roh, 0x0⟩]⟩]

/-- Block registers of the memc page. -/
def rows_memc : List RegRow :=
  [⟨0x040, 4, 1, [⟨0, 4, .rw, 0x0⟩, ⟨4, 1, .rw, 0x0⟩, ⟨5, 2, .rw, 0x1⟩, ⟨7, 1, .rw, 0x0⟩, ⟨8, 2, .rw, 0x0⟩, ⟨10, 2, .rw, 0x0⟩]⟩,
   ⟨0x044, 4, 1, [⟨0, 6, .rw, 0xB⟩, ⟨8, 6, .rw, 0x9⟩, ⟨16, 6, .rw, 0xB⟩, ⟨24, 6, .rw, 0xB⟩]⟩,
   ⟨0x048, 4, 1, [⟨0, 8, .rw, 0x1C⟩, ⟨8, 10, .rw, 0x118⟩, ⟨18, 14, .rw, 0x1860⟩]⟩,
   ⟨0x04C, 4, 1, [⟨0, 1, .wo, 0x0⟩, ⟨1, 1, .wo, 0x0⟩, ⟨2, 1, .wo, 0x0⟩]⟩,
   ⟨0x050, 4, 1, [⟨0, 3, .roh, 0x0⟩, ⟨4, 4, .roh, 0x0⟩]⟩,
   ⟨0x054, 4, 1, [⟨0, 16, .roh, 0x0⟩]⟩,
   ⟨0x058, 4, 1, [⟨0, 28, .rw, 0x0⟩, ⟨28, 4, .rw, 0x0⟩]⟩,
   ⟨0x05C, 4, 1, [⟨0, 28, .rw, 0x1⟩]⟩,
   ⟨0x060, 4, 1, [⟨0, 4, .rw, 0x4⟩, ⟨4, 4, .rw, 0x4⟩, ⟨16, 9, .rw, 0x180⟩]⟩,
   ⟨0x064, 4, 1, [⟨0, 15, .rw, 0x2000⟩, ⟨16, 15, .rw, 0x6000⟩]⟩,
   ⟨0x068, 4, 1, [⟨0, 15, .rw, 0x1000⟩, ⟨16, 15, .rw, 0x4000⟩]⟩,
   ⟨0x06C, 4, 1, [⟨0, 16, .roh, 0x0⟩, ⟨16, 16, .roh, 0x0⟩]⟩] ++
  [⟨0x070, 4, 1, [⟨0, 32, .roh, 0x0⟩]⟩,
   ⟨0x074, 4, 1, [⟨0, 32, .roh, 0x0⟩]⟩,
   ⟨0x078, 4, 1, [⟨0, 32, .roh, 0x0⟩]⟩,
   ⟨0x07C, 4, 1, [⟨0, 32, .roh, 0x0⟩]⟩,
   ⟨0x080, 4, 1, [⟨0, 32, .roh, 0x0⟩]⟩,
   ⟨0x084, 4, 1, [⟨0, 28, .roh, 0x0⟩]⟩,
   ⟨0x088, 4, 1, [⟨0, 28, .roh, 0x0⟩, ⟨28, 3, .roh, 0x0⟩]⟩,
   ⟨0x08C, 4, 1, [⟨0, 2, .roh, 0x0⟩, ⟨4, 2, .roh, 0x0⟩, ⟨8, 4, .roh, 0x0⟩]⟩,
   ⟨0x090, 4, 1, [⟨0, 1, .wo, 0x0⟩]⟩]

/-- Block registers of the xts page. -/
def rows_xts : List RegRow :=
  [⟨0x040, 4, 1, [⟨0, 1, .rw, 0x0⟩, ⟨1, 1, .rw, 0x1⟩, ⟨2, 1, .rw, 0x0⟩]⟩,
   ⟨0x044, 4, 1, [⟨0, 1, .roh, 0x0⟩, ⟨1, 1, .roh, 0x0⟩]⟩,
   ⟨0x048, 4, 1, [⟨0, 32, .roh, 0x0⟩]⟩]

/-- Block registers of the keys page. -/
def rows_keys : List RegRow :=
  [⟨0x040, 4, 1, [⟨0, 4, .rw, 0x0⟩]⟩,
   ⟨0x044, 4, 1, [⟨0, 1, .wo, 0x0⟩, ⟨1, 1, .wo, 0x0⟩, ⟨2, 1, .wo, 0x0⟩]⟩,
   ⟨0x048, 4, 1, [⟨0, 16, .roh, 0x0⟩]⟩,
   ⟨0x100, 4, 24, [⟨0, 32, .wo, 0x0⟩]⟩]

/-- Block registers of the dma page. -/
def rows_dma : List RegRow :=
  [⟨0x040, 4, 1, [⟨0, 8, .roh, 0x0⟩, ⟨8, 8, .roh, 0x0⟩, ⟨16, 8, .roh, 0x0⟩]⟩,
   ⟨0x100, 64, 8, [⟨0, 3, .rw, 0x0⟩, ⟨4, 2, .rw, 0x0⟩, ⟨8, 2, .rw, 0x0⟩, ⟨12, 2, .rw, 0x0⟩, ⟨16, 2, .rw, 0x0⟩, ⟨20, 4, .rw, 0x0⟩, ⟨24, 1, .rw, 0x0⟩]⟩,
   ⟨0x104, 64, 8, [⟨0, 32, .rw, 0x0⟩]⟩,
   ⟨0x108, 64, 8, [⟨0, 8, .rw, 0x0⟩]⟩,
   ⟨0x10C, 64, 8, [⟨0, 32, .rw, 0x0⟩]⟩,
   ⟨0x110, 64, 8, [⟨0, 8, .rw, 0x0⟩]⟩,
   ⟨0x114, 64, 8, [⟨0, 32, .rw, 0x0⟩]⟩,
   ⟨0x118, 64, 8, [⟨0, 8, .rw, 0x0⟩]⟩,
   ⟨0x128, 64, 8, [⟨0, 32, .rw, 0x0⟩]⟩,
   ⟨0x12C, 64, 8, [⟨0, 8, .rw, 0x0⟩]⟩,
   ⟨0x11C, 64, 8, [⟨0, 28, .rw, 0x1⟩]⟩,
   ⟨0x120, 64, 8, [⟨0, 28, .rw, 0x0⟩]⟩] ++
  [⟨0x124, 64, 8, [⟨0, 28, .roh, 0x0⟩]⟩,
   ⟨0x130, 64, 8, [⟨0, 1, .wo, 0x0⟩, ⟨1, 1, .wo, 0x0⟩, ⟨2, 1, .wo, 0x0⟩, ⟨3, 1, .wo, 0x0⟩]⟩,
   ⟨0x134, 64, 8, [⟨0, 3, .roh, 0x0⟩, ⟨4, 4, .roh, 0x0⟩, ⟨8, 2, .roh, 0x0⟩, ⟨16, 7, .roh, 0x0⟩]⟩,
   ⟨0x138, 64, 8, [⟨0, 32, .roh, 0x0⟩]⟩,
   ⟨0x13C, 64, 8, [⟨0, 8, .roh, 0x0⟩]⟩,
   ⟨0x800, 4, 512, [⟨0, 32, .rw, 0x0⟩]⟩]

/-- Block registers of the lane page. -/
def rows_lane : List RegRow :=
  [⟨0x040, 4, 1, [⟨0, 1, .rw, 0x0⟩, ⟨1, 1, .rw, 0x1⟩, ⟨8, 8, .rw, 0xFF⟩, ⟨16, 7, .rw, 0x7F⟩]⟩,
   ⟨0x044, 4, 1, [⟨0, 2, .rw, 0x0⟩, ⟨12, 20, .rw, 0x0⟩]⟩,
   ⟨0x048, 4, 1, [⟨0, 4, .rw, 0x0⟩, ⟨8, 6, .rw, 0x30⟩, ⟨16, 5, .rw, 0x0⟩]⟩,
   ⟨0x04C, 4, 1, [⟨0, 3, .roh, 0x0⟩, ⟨4, 3, .roh, 0x0⟩, ⟨8, 1, .roh, 0x0⟩, ⟨9, 1, .roh, 0x0⟩, ⟨10, 1, .roh, 0x0⟩, ⟨12, 2, .roh, 0x0⟩, ⟨16, 8, .roh, 0x0⟩, ⟨24, 8, .roh, 0x0⟩]⟩,
   ⟨0x050, 4, 1, [⟨0, 4, .roh, 0x0⟩, ⟨8, 6, .roh, 0x30⟩, ⟨16, 5, .roh, 0x0⟩]⟩,
   ⟨0x054, 4, 1, [⟨0, 7, .roh, 0x0⟩, ⟨15, 17, .roh, 0x0⟩]⟩,
   ⟨0x058, 4, 1, [⟨0, 1, .wo, 0x0⟩, ⟨8, 6, .wo, 0x0⟩, ⟨16, 8, .wo, 0x0⟩, ⟨24, 4, .wo, 0x0⟩]⟩,
   ⟨0x05C, 4, 1, [⟨0, 32, .roh, 0x0⟩]⟩,
   ⟨0x060, 4, 1, [⟨0, 1, .rw, 0x0⟩, ⟨1, 1, .rw, 0x0⟩, ⟨2, 1, .rw, 0x1⟩, ⟨4, 4, .rw, 0x0⟩]⟩,
   ⟨0x064, 4, 1, [⟨0, 32, .roh, 0x0⟩]⟩,
   ⟨0x068, 4, 1, [⟨0, 32, .roh, 0x0⟩]⟩,
   ⟨0x06C, 4, 1, [⟨0, 32, .roh, 0x0⟩]⟩] ++
  [⟨0x070, 4, 1, [⟨0, 32, .roh, 0x0⟩]⟩,
   ⟨0x074, 4, 1, [⟨0, 32, .roh, 0x0⟩]⟩]

/-- Block registers of the dlnk page. -/
def rows_dlnk : List RegRow :=
  [⟨0x040, 4, 1, [⟨0, 8, .rw, 0x0⟩]⟩,
   ⟨0x044, 4, 1, [⟨0, 5, .roh, 0x0⟩]⟩,
   ⟨0x048, 4, 1, [⟨0, 32, .roh, 0x0⟩]⟩,
   ⟨0x04C, 4, 1, [⟨0, 8, .roh, 0x0⟩, ⟨8, 8, .roh, 0x0⟩, ⟨16, 3, .roh, 0x0⟩]⟩,
   ⟨0x050, 4, 1, [⟨0, 32, .roh, 0x0⟩]⟩,
   ⟨0x080, 8, 16, [⟨0, 1, .rw, 0x0⟩, ⟨4, 3, .rw, 0x0⟩, ⟨8, 8, .rw, 0x0⟩]⟩,
   ⟨0x084, 8, 16, [⟨0, 1, .roh, 0x0⟩, ⟨8, 24, .roh, 0x0⟩]⟩,
   ⟨0x100, 4, 64, [⟨0, 3, .rw, 0x0⟩, ⟨7, 1, .rw, 0x0⟩, ⟨8, 3, .rw, 0x0⟩, ⟨15, 1, .rw, 0x0⟩, ⟨16, 3, .rw, 0x0⟩, ⟨23, 1, .rw, 0x0⟩, ⟨24, 3, .rw, 0x0⟩, ⟨31, 1, .rw, 0x0⟩]⟩]

/-- Block registers of the uart page. -/
def rows_uart : List RegRow :=
  [⟨0x040, 4, 1, [⟨0, 1, .rw, 0x0⟩, ⟨1, 2, .rw, 0x0⟩, ⟨4, 4, .rw, 0x8⟩, ⟨8, 2, .rw, 0x0⟩, ⟨10, 2, .rw, 0x0⟩, ⟨12, 1, .rw, 0x0⟩, ⟨13, 1, .rw, 0x1⟩, ⟨14, 1, .rw, 0x0⟩, ⟨16, 3, .rw, 0x4⟩, ⟨24, 8, .rw, 0x0⟩]⟩,
   ⟨0x044, 4, 1, [⟨0, 20, .rw, 0x1B20⟩]⟩,
   ⟨0x048, 4, 1, [⟨0, 9, .ro, 0x1FF⟩, ⟨16, 6, .ro, 0x3F⟩]⟩,
   ⟨0x04C, 4, 1, [⟨0, 7, .roh, 0x0⟩, ⟨8, 7, .roh, 0x0⟩, ⟨16, 1, .roh, 0x0⟩, ⟨17, 1, .roh, 0x0⟩, ⟨18, 1, .roh, 0x1⟩]⟩,
   ⟨0x050, 4, 1, [⟨0, 32, .roh, 0x0⟩]⟩,
   ⟨0x054, 4, 1, [⟨0, 9, .wo, 0x0⟩]⟩,
   ⟨0x058, 4, 1, [⟨0, 6, .wo, 0x0⟩, ⟨31, 1, .wo, 0x0⟩]⟩,
   ⟨0x05C, 4, 1, [⟨0, 7, .rw, 0x1⟩]⟩,
   ⟨0x060, 4, 1, [⟨0, 4, .rw, 0x0⟩, ⟨4, 2, .rw, 0x0⟩, ⟨8, 1, .rw, 0x0⟩]⟩,
   ⟨0x064, 4, 1, [⟨0, 32, .roh, 0x0⟩]⟩,
   ⟨0x068, 4, 1, [⟨0, 32, .roh, 0x0⟩]⟩,
   ⟨0x06C, 4, 1, [⟨0, 32, .roh, 0x0⟩]⟩] ++
  [⟨0x100, 4, 64, [⟨0, 4, .rw, 0x0⟩, ⟨4, 1, .rw, 0x0⟩, ⟨5, 2, .rw, 0x0⟩]⟩]

/-- Block registers of the uart0 page. -/
def rows_uart0 : List RegRow :=
  [⟨0x040, 4, 1, [⟨0, 1, .ro, 0x1⟩, ⟨1, 2, .ro, 0x0⟩, ⟨4, 4, .ro, 0x8⟩, ⟨8, 2, .ro, 0x0⟩, ⟨10, 2, .ro, 0x0⟩, ⟨12, 1, .ro, 0x0⟩, ⟨13, 1, .ro, 0x0⟩, ⟨14, 1, .ro, 0x0⟩, ⟨16, 3, .ro, 0x0⟩, ⟨24, 8, .ro, 0x0⟩]⟩,
   ⟨0x044, 4, 1, [⟨0, 20, .rw, 0x1B20⟩]⟩,
   ⟨0x04C, 4, 1, [⟨0, 7, .roh, 0x0⟩, ⟨8, 7, .roh, 0x0⟩, ⟨16, 1, .roh, 0x0⟩, ⟨17, 1, .roh, 0x0⟩, ⟨18, 1, .roh, 0x1⟩]⟩,
   ⟨0x068, 4, 1, [⟨0, 32, .roh, 0x0⟩]⟩]

/-- Block registers of the bist page. -/
def rows_bist : List RegRow :=
  [⟨0x040, 4, 1, [⟨0, 1, .rw, 0x0⟩, ⟨1, 1, .rw, 0x1⟩, ⟨2, 1, .rw, 0x1⟩, ⟨3, 1, .rw, 0x0⟩, ⟨4, 1, .rw, 0x1⟩, ⟨8, 3, .rw, 0x7⟩]⟩,
   ⟨0x044, 4, 1, [⟨0, 32, .rw, 0x0⟩]⟩,
   ⟨0x048, 4, 1, [⟨0, 29, .rw, 0x0⟩, ⟨30, 2, .rw, 0x0⟩]⟩,
   ⟨0x04C, 4, 1, [⟨0, 1, .wo, 0x0⟩, ⟨1, 1, .wo, 0x0⟩]⟩,
   ⟨0x050, 4, 1, [⟨0, 2, .roh, 0x0⟩, ⟨2, 1, .roh, 0x0⟩, ⟨8, 6, .roh, 0x0⟩, ⟨16, 8, .roh, 0x0⟩, ⟨24, 8, .roh, 0x0⟩]⟩,
   ⟨0x054, 4, 1, [⟨0, 32, .rw, 0xFFFFFFFF⟩]⟩,
   ⟨0x058, 4, 1, [⟨0, 29, .rw, 0x1FFFFFFF⟩, ⟨30, 2, .rw, 0x3⟩]⟩,
   ⟨0x05C, 4, 1, [⟨1, 1, .rw, 0x1⟩, ⟨2, 1, .rw, 0x1⟩, ⟨3, 1, .rw, 0x0⟩, ⟨4, 1, .rw, 0x1⟩, ⟨5, 1, .rw, 0x0⟩, ⟨8, 3, .rw, 0x7⟩]⟩,
   ⟨0x060, 4, 1, [⟨0, 16, .roh, 0x0⟩]⟩,
   ⟨0x064, 4, 1, [⟨0, 32, .roh, 0x0⟩]⟩,
   ⟨0x068, 4, 1, [⟨0, 6, .roh, 0x0⟩]⟩,
   ⟨0x100, 4, 64, [⟨0, 2, .roh, 0x0⟩, ⟨2, 2, .roh, 0x0⟩, ⟨4, 1, .roh, 0x0⟩, ⟨8, 3, .roh, 0x0⟩]⟩] ++
  [⟨0x300, 8, 16, [⟨0, 6, .roh, 0x0⟩, ⟨8, 6, .roh, 0x0⟩, ⟨16, 16, .roh, 0x0⟩]⟩,
   ⟨0x304, 8, 16, [⟨0, 7, .roh, 0x0⟩, ⟨8, 1, .roh, 0x0⟩, ⟨31, 1, .roh, 0x0⟩]⟩]

/-- Block registers of the mon page. -/
def rows_mon : List RegRow :=
  [⟨0x040, 4, 1, [⟨0, 1, .rw, 0x1⟩, ⟨8, 8, .rw, 0x0⟩]⟩,
   ⟨0x044, 4, 1, [⟨0, 4, .roh, 0x0⟩, ⟨4, 4, .roh, 0x0⟩, ⟨8, 4, .roh, 0x0⟩, ⟨16, 1, .roh, 0x0⟩, ⟨17, 1, .roh, 0x0⟩, ⟨18, 1, .roh, 0x0⟩, ⟨24, 1, .roh, 0x0⟩, ⟨25, 1, .roh, 0x0⟩]⟩,
   ⟨0x080, 4, 1, [⟨0, 3, .wo, 0x0⟩, ⟨8, 6, .wo, 0x0⟩, ⟨16, 2, .wo, 0x0⟩, ⟨31, 1, .wo, 0x0⟩]⟩,
   ⟨0x084, 4, 1, [⟨0, 3, .roh, 0x0⟩]⟩,
   ⟨0x0C0, 4, 8, [⟨0, 32, .wo, 0x0⟩]⟩,
   ⟨0x0E0, 4, 8, [⟨0, 32, .roh, 0x0⟩]⟩]

/-- Block registers of the irq page. -/
def rows_irq : List RegRow :=
  [⟨0x040, 4, 1, [⟨0, 4, .roh, 0x0⟩]⟩,
   ⟨0x044, 4, 1, [⟨0, 1, .wo, 0x0⟩]⟩,
   ⟨0x080, 4, 1, [⟨0, 3, .roh, 0x0⟩, ⟨8, 4, .roh, 0x0⟩, ⟨31, 1, .roh, 0x0⟩]⟩,
   ⟨0x084, 4, 1, [⟨0, 32, .roh, 0x0⟩]⟩,
   ⟨0x088, 4, 1, [⟨0, 16, .roh, 0x0⟩]⟩,
   ⟨0x08C, 4, 1, [⟨0, 32, .roh, 0x0⟩]⟩,
   ⟨0x090, 4, 1, [⟨0, 32, .roh, 0x0⟩]⟩,
   ⟨0x100, 4, 38, [⟨0, 2, .rw, 0x0⟩, ⟨3, 1, .rw, 0x0⟩, ⟨4, 2, .rw, 0x0⟩, ⟨7, 1, .rw, 0x0⟩, ⟨8, 2, .rw, 0x0⟩, ⟨11, 1, .rw, 0x0⟩, ⟨12, 2, .rw, 0x0⟩, ⟨15, 1, .rw, 0x0⟩, ⟨16, 2, .rw, 0x0⟩, ⟨19, 1, .rw, 0x0⟩, ⟨20, 2, .rw, 0x0⟩, ⟨23, 1, .rw, 0x0⟩, ⟨24, 2, .rw, 0x0⟩, ⟨27, 1, .rw, 0x0⟩, ⟨28, 2, .rw, 0x0⟩, ⟨31, 1, .rw, 0x0⟩]⟩,
   ⟨0x200, 4, 9, [⟨0, 32, .roh, 0x0⟩]⟩,
   ⟨0x224, 4, 1, [⟨0, 16, .roh, 0x0⟩]⟩]

/-- Block registers of the fi page. -/
def rows_fi : List RegRow :=
  [⟨0x040, 4, 1, [⟨0, 3, .ro, 0x0⟩, ⟨4, 3, .ro, 0x0⟩, ⟨8, 3, .ro, 0x0⟩, ⟨12, 1, .ro, 0x0⟩, ⟨13, 1, .ro, 0x0⟩, ⟨14, 1, .ro, 0x0⟩, ⟨15, 1, .ro, 0x0⟩]⟩,
   ⟨0x044, 4, 1, [⟨0, 1, .roh, 0x1⟩, ⟨1, 1, .roh, 0x0⟩, ⟨2, 1, .roh, 0x0⟩]⟩,
   ⟨0x048, 4, 1, [⟨0, 1, .rws, 0x1⟩]⟩,
   ⟨0x04C, 4, 1, [⟨0, 3, .roh, 0x0⟩]⟩,
   ⟨0x050, 4, 1, [⟨0, 32, .rws, 0x0⟩]⟩,
   ⟨0x054, 4, 1, [⟨0, 32, .rws, 0x0⟩]⟩,
   ⟨0x058, 4, 1, [⟨0, 32, .rws, 0x0⟩]⟩,
   ⟨0x05C, 4, 1, [⟨0, 32, .rws, 0x0⟩]⟩,
   ⟨0x060, 4, 1, [⟨0, 32, .ro, 0x0⟩]⟩,
   ⟨0x064, 4, 1, [⟨0, 32, .ro, 0x0⟩]⟩,
   ⟨0x068, 4, 1, [⟨0, 5, .roh, 0x0⟩, ⟨8, 1, .roh, 0x0⟩]⟩,
   ⟨0x070, 4, 1, [⟨0, 16, .roh, 0x0⟩]⟩] ++
  [⟨0x074, 4, 1, [⟨0, 16, .roh, 0x0⟩]⟩,
   ⟨0x078, 4, 1, [⟨0, 16, .roh, 0x0⟩]⟩,
   ⟨0x07C, 4, 1, [⟨0, 9, .roh, 0x0⟩, ⟨12, 5, .roh, 0x0⟩, ⟨18, 2, .roh, 0x0⟩, ⟨24, 8, .roh, 0x0⟩]⟩,
   ⟨0x080, 4, 1, [⟨0, 9, .roh, 0x0⟩, ⟨12, 5, .roh, 0x0⟩, ⟨18, 2, .roh, 0x0⟩, ⟨24, 8, .roh, 0x0⟩]⟩,
   ⟨0x084, 4, 1, [⟨0, 1, .wo, 0x0⟩]⟩,
   ⟨0x100, 4, 64, [⟨0, 9, .ro, 0x1FF⟩]⟩]

/-- The block registers of a page kind. -/
def rowsOf : PageKind → List RegRow
  | .sys => rows_sys
  | .vlog => rows_vlog
  | .pwr => rows_pwr
  | .surv => rows_surv
  | .clk => rows_clk
  | .isl => rows_isl
  | .nib => rows_nib
  | .cut => rows_cut
  | .cfgc => rows_cfgc
  | .blot => rows_blot
  | .cap => rows_cap
  | .ink => rows_ink
  | .qcx => rows_qcx
  | .qst => rows_qst
  | .trc => rows_trc
  | .tdc => rows_tdc
  | .tin => rows_tin
  | .memc => rows_memc
  | .xts => rows_xts
  | .keys => rows_keys
  | .dma => rows_dma
  | .lane => rows_lane
  | .dlnk => rows_dlnk
  | .uart => rows_uart
  | .uart0 => rows_uart0
  | .bist => rows_bist
  | .mon => rows_mon
  | .irq => rows_irq
  | .fi => rows_fi

/-- The `IRQ_RAW` bits 29:0 that a page kind defines; bits 31 and 30 are WEDGED and REFUSAL (Table 4.1). -/
def irqMask : PageKind → Nat
  | .sys => 0xC0000003
  | .vlog => 0xC0000001
  | .pwr => 0xC0000003
  | .surv => 0xC000000F
  | .clk => 0xDFFFFFFF
  | .isl => 0xC000001F
  | .nib => 0xC0000003
  | .cut => 0xC000000F
  | .cfgc => 0xC0000003
  | .blot => 0xC000001F
  | .cap => 0xC000000F
  | .ink => 0xC000001F
  | .qcx => 0xC00000FF
  | .qst => 0xC0000001
  | .trc => 0xC000001F
  | .tdc => 0xC001FFFF
  | .tin => 0xC0000000
  | .memc => 0xC000003F
  | .xts => 0xC0000000
  | .keys => 0xC0000000
  | .dma => 0xC0FFFFFF
  | .lane => 0xC000001F
  | .dlnk => 0xC0000007
  | .uart => 0xC000007F
  | .uart0 => 0xC000007F
  | .bist => 0xC0000003
  | .mon => 0xC0000007
  | .irq => 0xC0000000
  | .fi => 0xC000007F

end Sys2Proof.Machine
end

