-- ==== Sys2Proof/Machine/Tab.lean ====
section
/-! DEFINITION. Sparse tables: the one form in which State holds whatever is addressed or numbered (registers,
memories, contexts, channels). A table is a list of (key, value) pairs with strictly rising keys; an unlisted key
reads as the table's default, and no listed entry equals its default, so that equal contents are equal data. -/

namespace Sys2Proof.Machine

/-- A sparse table from numbers to `β`. -/
abbrev Tab (β : Type) := List (Nat × β)

/-- What key `k` reads as, `d` being what unlisted keys read as. -/
def tabGet {β : Type} (d : Nat → β) : Tab β → Nat → β
  | [], k => d k
  | (j, v) :: m, k => if k = j then v else tabGet d m k

/-- Insert before the first larger key. -/
def tabInsert {β : Type} (k : Nat) (v : β) : Tab β → Tab β
  | [] => [(k, v)]
  | (j, w) :: m => if k < j then (k, v) :: (j, w) :: m else (j, w) :: tabInsert k v m

/-- Drop every entry of key `k`. -/
def tabErase {β : Type} (k : Nat) : Tab β → Tab β
  | [] => []
  | (j, w) :: m => if j = k then tabErase k m else (j, w) :: tabErase k m

/-- Write key `k`; writing the default removes the entry. -/
def tabSet {β : Type} [DecidableEq β] (d : Nat → β) (m : Tab β) (k : Nat) (v : β) : Tab β :=
  if v = d k then tabErase k m else tabInsert k v (tabErase k m)

/-- The canonical form: keys strictly rise and no entry equals its default. -/
abbrev tabWf {β : Type} (d : Nat → β) (m : Tab β) : Prop :=
  m.Pairwise (fun a b => a.1 < b.1) ∧ ∀ e ∈ m, e.2 ≠ d e.1

/-- Write a run of consecutive keys. -/
def tabSetRun {β : Type} [DecidableEq β] (d : Nat → β) : Tab β → Nat → List β → Tab β
  | m, _, [] => m
  | m, k, v :: vs => tabSetRun d (tabSet d m k v) (k + 1) vs

/-- Read a run of `n` consecutive keys. -/
def tabGetRun {β : Type} (d : Nat → β) (m : Tab β) (k : Nat) : Nat → List β
  | 0 => []
  | n + 1 => tabGet d m k :: tabGetRun d m (k + 1) n

/-- Read `n` consecutive keys from `k` in one pass over a table whose keys rise. -/
def tabRead {β : Type} (d : Nat → β) : Tab β → Nat → Nat → List β
  | [], k, n => (List.range n).map (fun i => d (k + i))
  | (j, v) :: m, k, n =>
    if j < k then tabRead d m k n
    else if n ≤ j - k then (List.range n).map (fun i => d (k + i))
    else (List.range (j - k)).map (fun i => d (k + i)) ++ v :: tabRead d m (j + 1) (n - (j - k) - 1)

/-- The entries of a run of values from key `k`, defaults left out. -/
def tabEntries {β : Type} [DecidableEq β] (d : Nat → β) : Nat → List β → Tab β
  | _, [] => []
  | k, v :: vs => if v = d k then tabEntries d (k + 1) vs else (k, v) :: tabEntries d (k + 1) vs

/-- Replace the run of keys from `k` by the values `vs`. -/
def tabPut {β : Type} [DecidableEq β] (d : Nat → β) (m : Tab β) (k : Nat) (vs : List β) : Tab β :=
  m.filter (fun e => e.1 < k) ++ tabEntries d k vs ++ m.filter (fun e => k + vs.length ≤ e.1)

/-- Drop every entry whose key `p` picks: those keys read as the default. -/
def tabDrop {β : Type} (p : Nat → Bool) (m : Tab β) : Tab β := m.filter (fun e => !p e.1)

end Sys2Proof.Machine
end

