-- ==== Sys2Proof/Machine/State.lean ====
section
/-! DEFINITION. The state of the Atgan: plain data, all of it. Every register the manual names lives in the one
register store `State.regs`, keyed by its byte address; the other parts hold what the manual gives the device
beside its registers, block by block, in chapter order. -/

namespace Sys2Proof.Machine

/-- Start-up phases (Table 3.2) and the condition with VAON down or a full reset asserted (`reset`). -/
inductive Phase where
  | reset | steep | steepHold | germinate | germFail | kiln | kilnFail | run | halt
  deriving DecidableEq, Repr

/-- Violation kinds, Table 4.5. -/
inductive VKind where
  | unimpl | level | rsvdField | rsvdValue | pdOff
  deriving DecidableEq, Repr

/-- The response to one register access (R113, R116, R121, R122, R124). `none`: no response is given. -/
inductive Resp where
  | none | ok | violation (k : VKind) | refused | wedged | halted
  deriving DecidableEq, Repr

/-- The commit sequence at the root (Table 4.6); ABORT is over within the step that begins it. -/
inductive CPhase where
  | idle | prepare | apply
  deriving DecidableEq, Repr

/-- What stops the machine. The specification gives every fault of Table 19.1 an effect on the state, so a step of
the model never answers a fault; the one constructor is raised by nobody and is safe. -/
inductive Fault where
  | none
  deriving DecidableEq, Repr

/-- Why a step answers no next state. -/
inductive Refusal where
  /-- Raised by `exec` for a command that has no meaning yet. Safe. -/
  | notModelled (mnemonic : String)
  deriving DecidableEq, Repr

/-- A command that a prepared block has taken and not begun (R136). -/
structure HeldCmd where
  /-- Requester path -/
  path : Path
  /-- Byte address of its register -/
  addr : Nat
  /-- The word as merged into the register (R118) -/
  word : Word
  deriving DecidableEq, Repr

/-- Register fabric root, paths and commit engine (04_register_model.md). -/
structure Root where
  /-- Timestamp counter, 48 bits, oscillator cycles since power-on (R127, R126). Reset 0. -/
  ts : Nat
  /-- Sequence number of the next violation, bits 15:0, counted since power-on (Table 4.10). Reset 0. -/
  logSeq : Nat
  /-- Arbitration slot last used (R114); slot n covers timestamps 4n to 4n + 3. Reset 0. -/
  slot : Nat
  /-- One more than the highest path code admitted in that slot, 0 for none (R114). Reset 0. -/
  slotTop : Nat
  /-- Register addresses written in that slot, with the path code (R115). Reset empty. -/
  slotWrites : List (Nat × Nat)
  /-- Access level of each path by its code, Table 4.2 (R100, R101). Reset 0. -/
  levels : Tab Nat
  /-- High halves latched by LO reads, per path and counter: key 4 × LO address + path code (R127). Reset 0. -/
  latches : Tab Nat
  /-- Last response given on each path by its code (R113). Reset none. -/
  resp : Tab Resp
  /-- Data words of the last read on each path by its code. Reset empty. -/
  data : Tab (List Word)
  /-- Timestamp of each path's arming write of SYS.RESET, by path code (R568). Reset disarmed. -/
  arm : Tab (Option Nat)
  /-- The path whose qualifying write awaits the full reset (R569). Reset none. -/
  resetReq : Option Path
  /-- Commit sequence at the root, Table 4.6. Reset idle. -/
  cPhase : CPhase
  /-- Pages covered by the commit in progress (R132). Reset empty. -/
  cPages : List Nat
  /-- Units that have not answered PREPARE (R134). Reset empty. -/
  cWait : List CUnit
  /-- Units that have not acknowledged APPLY (R139). Reset empty. -/
  cApply : List CUnit
  /-- Commands taken by a block whose unit has accepted a PREPARE, oldest first: their operations start when the commit
  ends (R136). Reset empty. -/
  held : List HeldCmd
  /-- HSP status byte of the last transaction, none when no status was given (R108, R110). Reset none. -/
  hspStatus : Option Byte
  /-- HSP index byte of the last transaction (R108). Reset 0. -/
  hspIndex : Byte
  deriving DecidableEq, Repr

/-- Supplies, RST_N and reset sources (02_package_power.md, 03_steep_survey.md). -/
structure Pwr where
  /-- Bit r: rail r is above its good threshold (R35). At reset every rail is good, 0x1FFF (Table 2.11). -/
  good : Nat
  /-- Bit r: rail r has been good since the later of the last power-on and its own last loss (R38). Reset 0x1FFF. -/
  armed : Nat
  /-- A ramp or sequence broke R32, R33 or R34, so pad states are not guaranteed (R37). Reset false. -/
  breach : Bool
  /-- RST_N is high (R36). Reset true: State.reset stands after the release of the reset. -/
  rstN : Bool
  /-- Sources of Table 3.1 that asserted since the previous start of Steep (R64). Reset bit 0. -/
  causeNew : Nat
  /-- RST_CAUSE bits that a read returned as 1 since the previous start of Steep (R64). Reset 0. -/
  causeRead : Nat
  /-- Switched domains that are not fully on: 1 off, 2 powering up, 3 powering down (R51, R52). Reset 0 (on, R53). -/
  dom : Tab Nat
  deriving DecidableEq, Repr

/-- One signature item (Table 3.5). -/
structure SurvItem where
  /-- KIND, 1 to 6 -/
  kind : Nat
  /-- INFO_ONLY -/
  info : Bool
  /-- INDEX -/
  idx : Nat
  /-- LO -/
  lo : Nat
  /-- HI -/
  hi : Nat
  /-- PARAM -/
  param : Nat
  deriving DecidableEq, Repr

/-- What Steep measured for an item (Table 3.10). -/
structure SurvRes where
  /-- CLASS: load class or end -/
  cls : Nat
  /-- OUTCOME -/
  out : Nat
  /-- VALUE -/
  val : Nat
  /-- AUX -/
  aux : Nat
  deriving DecidableEq, Repr

/-- The survey sequencer and its result store (03_steep_survey.md). -/
structure Surv where
  /-- Steps 1 to 4 and 7 of Table 3.3 that are complete, bit n for step n. Reset 0. -/
  done : Nat
  /-- Items of the signature block in order (Table 3.5). Reset empty. -/
  items : List SurvItem
  /-- Result of item i (R79); unlisted items read NOT_MEASURED. Reset empty. -/
  res : Tab SurvRes
  /-- Nibs whose load or cable survey is under way, each with its compliance code (R16, R67, R68). Reset empty. -/
  under : List (Nat × Nat)
  /-- Items whose measurement has finished, by item number. Reset empty. -/
  fixed : Tab Bool
  /-- Lanes that carry a lane item of the signature, bit n; taken at the start of Steep (R459). Reset 0. -/
  lanes : Nat
  /-- Raw rail millivolts (Table 3.3 step 2). Reset 0. -/
  rails : Tab Nat
  /-- Raw FSENSE field millivolts (R69). Reset 0. -/
  fsense : Tab Nat
  /-- Raw idle millivolts of each nib (step 4). Reset 0. -/
  idle : Tab Nat
  /-- Load runs made on each nib: class and value, latest first (R72). Reset empty. -/
  runs : Tab (List (Nat × Nat))
  /-- Round trips of the cable shots taken on each nib so far (R74). Reset empty. -/
  shots : Tab (List Nat)
  /-- Timestamp at the start of the present start-up phase (R84). Reset 0. -/
  t0 : Nat
  /-- Steep times the cables from REF0 through PLL0 (R77). Reset false. -/
  usePll : Bool
  /-- Islands still to load in Germinate, ascending (R264). Reset empty. -/
  toLoad : List Nat
  /-- Banks still to arm in Kiln, ascending; none until KILN_ARM (R82). Reset none. -/
  toArm : Option (List Nat)
  /-- Kiln's self-test pass has ended well and Kiln waits for the bank PLLs (R82). Reset false. -/
  selfTestOk : Bool
  /-- Duration of Steep in µs, until Kiln records it (R84). Reset 0. -/
  durSteep : Nat
  /-- Duration of Germinate in µs, until Kiln records it (R84). Reset 0. -/
  durGerm : Nat
  deriving DecidableEq, Repr

/-- Configuration flash, configuration memory and the Blotter (08_reconfiguration_blotter.md). -/
structure Cfg where
  /-- External configuration flash, bytes by address; erased bytes read 0xFF (R257, R258). Reset: the model's
  choice, an erased flash (log entry 8). -/
  flash : Tab Byte
  /-- Configuration memory: 72-bit words (64 data, 8 check) at island × 20480 + frame × 32 + word (R262, R263).
  Reset 0 (blank). -/
  mem : Tab Nat
  /-- The latest read of the flash: its address and bytes, none before the first (R257). Reset none. -/
  read : Option (Nat × Nat)
  /-- Flash address of each island's current section (CFGC.ISLSRC). Reset 0. -/
  islSrc : Tab Nat
  /-- Partial reconfiguration in progress: island and section address (R272). Reset none. -/
  pr : Option (Nat × Nat)
  /-- The Blotter waits at its frame for a reload (R282, R285). Reset false. -/
  reload : Bool
  /-- The Blotter pauses between two cycles (R279). Reset false. -/
  pause : Bool
  /-- The island being read was fenced during the frame in progress (R284). Reset false. -/
  skip : Bool
  deriving DecidableEq, Repr

/-- What a PLL holds beside its registers (05_clocks_islands.md). -/
structure Pll where
  /-- Consecutive agreeing lock windows (R153). Reset 0. -/
  agree : Nat
  /-- Consecutive disagreeing lock windows (R153). Reset 0. -/
  bad : Nat
  /-- Lock windows since acquisition or the release of a switch (R155, R159). Reset 0. -/
  wins : Nat
  /-- In ACQUIRE: the VCO calibration is done (R154). In SWITCHING: the input has moved to the target (R158). Reset false. -/
  go : Bool
  /-- Counts of the last agreeing lock windows, latest first, at most 4 (R158). Reset empty. -/
  hist : List Nat
  /-- The frozen control: sum and number of the windows that it is the average of; none while the loop controls (R158).
  Reset none. -/
  frozen : Option (Nat × Nat)
  deriving DecidableEq, Repr

/-- References, PLLs and generators beside their registers. -/
structure Clk where
  /-- PLLs 0 to 3. Reset all zero. -/
  pll : Tab Pll
  /-- Consecutive good windows of each reference (R149). Reset 0. -/
  goodWin : Tab Nat
  /-- References disqualified since they were last enabled, or qualified, bit r (R149, R150). Reset 0. -/
  disq : Nat
  /-- PLLs restarted by SYNC_IN whose common first edge is still to come (R164). Reset 0. -/
  restart : Nat
  /-- Divider restarts of each generator by synchronisation (R166). Reset 0. -/
  restarts : Tab Nat
  deriving DecidableEq, Repr

/-- Nib cells and cutover groups beside their registers (06_nibs_cutover.md). Keys are global nib numbers. -/
structure Nib where
  /-- Voltage in mV to which the field drives each nib's conductor, none where it does not (R186, R609). Reset none: the
  model's choice of the outside (log entry 9). -/
  field : Tab (Option Int)
  /-- Comparator output at the pad (R187). Reset low, as its pulled-down pad reads. -/
  cmp : Tab Bool
  /-- Input register (R188). Reset 0. -/
  inReg : Tab Bool
  /-- Output register, data (R193 to R196). Reset 0. -/
  outD : Tab Bool
  /-- Output register, output enable. Reset 0. -/
  outE : Tab Bool
  /-- Source: 0 PASS, 1 FABRIC, 2 OFF (R193). Reset 2. -/
  src : Tab Nat
  /-- Kiln has latched the halt states (R197). Reset false. -/
  latched : Bool
  /-- HALT ball is high (R29). Reset false. -/
  haltBall : Bool
  /-- WAITING groups whose quiet-point event has been emitted and is crossing (R206, R208). Reset empty. -/
  evt : List Nat
  deriving DecidableEq, Repr

/-- A handshake port or long channel in flight (R225, R226). -/
structure Hs where
  /-- Transfers launched and not yet taken, oldest first, at most 4 (R226). -/
  wait : List (BitVec 64)
  /-- Receive queue of the destination, oldest first, at most 4 (R226). -/
  queue : List (BitVec 64)
  /-- Source and destination islands of a long channel, once a command has named what the image binds (R225). -/
  ends : Option (Nat × Nat)
  deriving DecidableEq, Repr

/-- The response pulse of the fabric master port (Table 7.3). -/
inductive MpPulse where
  | none | ack (rdata : Word) | err (eclass : Nat) (ekind : Nat)
  deriving DecidableEq, Repr

/-- An access forwarded to the design that decodes the user window (R249). -/
structure UwAcc where
  /-- Requester path -/
  path : Path
  /-- Byte address in the register window -/
  addr : Nat
  /-- Write data; none for a read -/
  wdata : Option Word
  /-- Access level of the requester (R105, R249) -/
  level : Nat
  deriving DecidableEq, Repr

/-- Fabric state that the device holds (07_fabric.md). -/
structure Fab where
  /-- Flip-flops of each island's 9,600 logic cells, two to a cell, one bit each, as its frames last set them (R221, R223); how
  the design clocks them on is the design's (log entry 10). Reset 0. -/
  ff : Tab Nat
  /-- Block memory words, 72 bits (64 data, 8 check), at island × 12288 + memory × 512 + word (R231). Reset 0, a good word
  (DESIGN CHOICE, log entry 10). -/
  bram : Tab Nat
  /-- Output of a block memory port after a read: data and error output, key 2 × (island × 24 + memory) + port
  (R231, R239). Reset 0 without error (DESIGN CHOICE, log entry 10). -/
  bramOut : Tab (Nat × Bool)
  /-- P of each arithmetic slice, 48 bits, key island × 32 + slice (R243). Reset 0. -/
  slP : Tab Nat
  /-- Overflow output of each slice (R243). Reset false. -/
  slOv : Tab Bool
  /-- Handshake ports (key 4 × source island + direction) and long channels (key 192 + channel). Reset empty. -/
  hs : Tab Hs
  /-- Nib ports as the design drives them: data + 2 × output enable, key 64 × island + port (R195). Reset 0. -/
  port : Tab Nat
  /-- What has crossed from each nib port into the clock of its nib's bank, where the port does not reach the output register
  directly: data + 2 × output enable, key as `port` (R229). Reset 0. -/
  crossed : Tab Nat
  /-- Changes of a port launched into such a crossing and not taken, oldest first, at most 4 (R226, R229). Reset empty. -/
  crossQ : Tab (List Nat)
  /-- Probe channels as the design drives them (R245). Reset 0. -/
  probe : Tab Bool
  /-- Last pulse of the fabric master port (R247). Reset none. -/
  mp : MpPulse
  /-- User-window accesses forwarded and not answered, oldest first (R249). Reset empty. -/
  uw : List UwAcc
  /-- The last access handed to the design that decodes the user window, forwarded or answered within its burst (R105,
  R249). Reset none. -/
  uwLast : Option UwAcc
  deriving DecidableEq, Repr

/-- A change of a nib's input register, as the capture engine saw it (R359). -/
structure LEdge where
  /-- Timestamp -/
  t : Nat
  /-- Level after the change -/
  lvl : Bool
  /-- Timestamp of the change before it, none when none was seen -/
  prev : Option Nat
  deriving DecidableEq, Repr

/-- Capture engine and Inkwell beside their registers (09_capture_inkwell.md). -/
structure Cap where
  /-- Capture timestamp, 48 bits (R288). Reset 0. -/
  ts : Nat
  /-- Sample of each channel at the last capture edge (R287). Reset 0. -/
  samp : Tab Bool
  /-- Input registers and probes as they stood on the last capture edge: the first stage of the synchronisers (R245, R289).
  Reset 0. -/
  s1 : Tab Bool
  /-- The same one capture edge before. Reset 0. -/
  s2 : Tab Bool
  /-- The same two capture edges before: what emerged from the synchronisers on the last edge. Reset 0. -/
  s3 : Tab Bool
  /-- `samp` at the capture edges before the last, latest first, at most 4 (R320). Reset empty. -/
  hist : List (Tab Bool)
  /-- Sample of each double-edge channel on the last falling edge (R290). Reset 0. -/
  sampF : Tab Bool
  /-- A capture edge has come since the last Quill edge (R320). Reset false. -/
  fresh : Bool
  /-- The latest change of each nib's input register (R345, R359). Reset none. -/
  ledge : Tab (Option LEdge)
  /-- The fabric's ports (`port` and `crossed` of Fab) on the last capture edges, latest first, at most 3: V on its way through
  a two-stage synchroniser (R345). Reset empty. -/
  ports : List (Tab Nat × Tab Nat)
  /-- Trigger pulses on their way to the engine, oldest first: the capture edges before the one that registers it, and the ARG of
  its mark (R294, R324). Reset empty. -/
  trig : List (Nat × Nat)
  /-- A STOP of the Quill waits for the capture edge that it reaches (R312, R321). Reset false. -/
  stop : Bool
  /-- Front-end queue, oldest first, at most 512 words (R301). With each word: bit 0 it is the first trigger mark, bit 1
  it is the header of a segment still open, bit 2 the first trigger mark was lost right after it, bit 3 it is the header of a
  closed segment. Reset empty. -/
  fq : List (Nat × Nat)
  /-- Inkwell words, 72 bits (64 data, 8 check) (R300). Reset 0. -/
  ink : Tab Nat
  /-- Timestamp bits 47:36 of the latest TIME, FULL or MARK word queued (R298); none before the first. Reset none. -/
  hi : Option Nat
  /-- Word in its block that the next queued word will be (R300). Reset 0. -/
  bpos : Nat
  /-- Words stored since the first trigger mark, none before it (R295). Reset none. -/
  post : Option Nat
  /-- Records lost since the last LOST mark (Table 9.5). Reset 0. -/
  lost : Nat
  /-- A GAP mark is due before the next record (R313). Reset false. -/
  gap : Bool
  /-- A full of cause RING stands (R302, R305, R307). Reset false. -/
  ring : Bool
  /-- A full of cause RATE stands (R305, R307). Reset false. -/
  rate : Bool
  /-- WRAP has been applied to the full that stands (Table 9.6). Reset false. -/
  wrap : Bool
  /-- Throttling began on a full of cause RATE (R310). Reset false. -/
  thrRate : Bool
  /-- Frames since throttling began (R310). Reset 0. -/
  thr : Nat
  /-- Open FULL segment: timestamp of its first frame, frames, bytes that fill no whole word yet (R299). Reset none. -/
  seg : Option (Nat × Nat × List Byte)
  /-- Inkwell word that holds the header of the segment being stored, and its COUNT, 0 while the segment is open (R299).
  Reset none. -/
  hdr : Option (Nat × Nat)
  /-- Blocks completed since ARM (R302). Reset 0. -/
  blocks : Nat
  /-- Blocks freed or consumed since ARM (R302, R304). Reset 0. -/
  freed : Nat
  /-- Line writes of spilled blocks issued since ARM, in order (R304). Reset 0. -/
  spIss : Nat
  /-- Inkwell block, counted since ARM, that line write spIss comes from (R304). Reset 0. -/
  spBlk : Nat
  /-- Those that are not acknowledged, by number since ARM, ascending (R304). Reset empty. -/
  spOut : List Nat
  /-- Spill blocks discarded or consumed since ARM (R305). Reset 0. -/
  spFreed : Nat
  deriving DecidableEq, Repr

/-- A Quill context beside its registers (10_quill_sequencer.md). -/
structure QCtx where
  /-- Address of the next word. Reset 0. -/
  pc : Nat
  /-- RETT made the next edge a trap edge (R329). Reset false. -/
  rett : Bool
  /-- Counters 0 to 3, 48 bits (R322). Reset 0. -/
  cnt : Tab Nat
  /-- Timers 0 and 1, 48 bits (R322). Reset 0. -/
  tmr : Tab Nat
  /-- Bits 1:0 timer counts, bits 3:2 timer started since START (R322, Table 10.2). Reset 0. -/
  trun : Nat
  /-- Quill edges since an open dead time was opened (R334). Reset none. -/
  dt : Option Nat
  deriving DecidableEq, Repr

/-- The Quill beside its registers. -/
structure Quill where
  /-- Contexts 0 to 7. Reset all zero. -/
  ctx : Tab QCtx
  /-- Control store, 99-bit words: 96 data, 3 parity (R314, R316). Reset 0 (R317). -/
  store : Tab Nat
  /-- Contexts that have executed on the present Quill edge, bit x. Reset 0. -/
  did : Nat
  /-- Event lines pulsed on the present edge, bit 4 × context + line (R324). Reset 0. -/
  cur : Nat
  /-- Event lines pulsed on the previous edge (Table 10.2, LINE_IN). Reset 0. -/
  prev : Nat
  /-- Timestamp of the last pulse of each line, key 4 × context + line (R206, R208). Reset none. -/
  pulsed : Tab (Option Nat)
  /-- Samples on their way: of this Quill edge, of the one before, and so on (R320). Words see `z2`, or `z4` where the samples
  pass a synchroniser. Reset 0. -/
  z0 : Tab Bool
  /-- See z0. Reset 0. -/
  z1 : Tab Bool
  /-- See z0. Reset 0. -/
  z2 : Tab Bool
  /-- See z0. Reset 0. -/
  z3 : Tab Bool
  /-- See z0. Reset 0. -/
  z4 : Tab Bool
  /-- See z0. Reset 0. -/
  z5 : Tab Bool
  /-- Store words written while contexts still have their turn on the present edge: address and word, oldest first (R337). Reset
  empty. -/
  wr : List (Nat × Nat)
  /-- LIM and TLIM low halves held for a path, key 8 × address + path (R338). Reset none. -/
  held : Tab (Option Word)
  /-- QST for each path: ADDR (key 4 × path), W0 and W1 held for a write, and the fetched word (R342). Reset 0. -/
  qst : Tab Nat
  deriving DecidableEq, Repr

/-- A pending edge of a traced pair (R346). -/
structure TEdge where
  /-- Timestamp -/
  t : Nat
  /-- Level after the edge -/
  lvl : Bool
  /-- L on the capture edge of the change (Table 11.2 LVAL) -/
  l : Bool
  /-- Timestamp of the legacy change before it, none when none was seen (R359) -/
  prev : Option Nat
  /-- For a strobe: comparators whose data word of this side is sampled, at t + DELAY, with the word (R354) -/
  word : List (Nat × Nat)
  /-- For a legacy strobe: with each comparator the latest change of every data pair's legacy value at that sampling (R359) -/
  last : List (Nat × List (Option LEdge))
  deriving DecidableEq, Repr

/-- A traced pair (11_tracing.md), keyed by its output nib. -/
structure TPair where
  /-- In step (R350). Reset false. -/
  step : Bool
  /-- A capture edge has come since it went out of step. Reset false. -/
  fresh : Bool
  /-- L and V at the last edge that was matched. Reset 0. -/
  l : Bool
  /-- See l. Reset 0. -/
  v : Bool
  /-- L and V at the last capture edge. Reset 0. -/
  cl : Bool
  /-- See cl. Reset 0. -/
  cv : Bool
  /-- Pending edges of the legacy side, oldest first (R346). Reset empty. -/
  pl : List TEdge
  /-- Pending edges of the replacement side. Reset empty. -/
  pv : List TEdge
  /-- Consecutive matches since the divergence that stands (R357). Reset 0. -/
  clean : Nat
  deriving DecidableEq, Repr

/-- A transaction whose strobe edges have matched and which is not decided (R354). -/
structure TTxn where
  /-- Comparator -/
  k : Nat
  /-- Legacy strobe edge -/
  l : TEdge
  /-- Replacement strobe edge -/
  v : TEdge
  deriving DecidableEq, Repr

/-- Tracing beside its registers. -/
structure Trc where
  /-- Pairs by output nib. Reset out of step. -/
  pair : Tab TPair
  /-- Transactions under way, oldest first. Reset empty. -/
  txn : List TTxn
  /-- Divergence queue, oldest first, at most 1,024: timestamp of the decision and the four words (R360). Reset
  empty. -/
  q : List (Nat × List Nat)
  /-- Record latch of each path (R361). Reset empty. -/
  latch : Tab (List Nat)
  deriving DecidableEq, Repr

/-- An entry of a TDC queue (Table 12.1). -/
structure TEnt where
  /-- Timestamp, 64 bits -/
  t : Nat
  /-- Capture timestamp, 48 bits -/
  cts : Nat
  /-- Bits 31:16 of word 3 -/
  flags : Nat
  deriving DecidableEq, Repr

/-- What a channel would hold had its queue been read in the generator cycle of the overflow (R390). -/
structure TOver where
  /-- Timebase count of that cycle -/
  cnt : Nat
  /-- The queue with the new entry, before the read -/
  q : List TEnt
  /-- LOST -/
  lost : Nat
  /-- The LOST bit of IRQ_RAW -/
  irq : Bool
  /-- Flags that the next entry has come to owe since -/
  since : Nat
  deriving DecidableEq, Repr

/-- Time-interval unit beside its registers (12_time_interval.md). -/
structure Tdc where
  /-- Generator edges counted by the timebase of each half (R370). Reset 0. -/
  tb : Tab Nat
  /-- Timebase at the last timestamped edge of each channel (R374). Reset none. -/
  last : Tab (Option Nat)
  /-- Queue of each channel, oldest first, at most 1,024 (R377). Reset empty. -/
  q : Tab (List TEnt)
  /-- What the next entry carries: bit 0 GAP, 1 MISSED, 2 LOST. Reset 0. -/
  due : Tab Nat
  /-- Edges of each TIN input since its prescaler was reset (R382). Reset 0. -/
  presc : Tab Nat
  /-- Selected edges of each TIN input in the present one-second window (R384). Reset 0. -/
  hz : Tab Nat
  /-- The overflow of each channel that a read in the same generator cycle undoes (R390). Reset none. -/
  late : Tab (Option TOver)
  /-- Entry latched by each path, key 4 × channel + path (R378). Reset empty. -/
  latch : Tab (List Nat)
  /-- Output of each TIN input's comparator, none until an edge has shown it since the input was enabled (R381). Reset none. -/
  cmp : Tab (Option Bool)
  deriving DecidableEq, Repr

/-- A key set (R407): K1 data, K2 tweak, KT tag. -/
structure KeySet where
  /-- K1 -/
  k1 : List Byte
  /-- K2 -/
  k2 : List Byte
  /-- KT -/
  kt : List Byte
  deriving DecidableEq, Repr

/-- External memory, encryption and keys beside their registers (13_memory_encryption.md). -/
structure Mem where
  /-- 40-bit DRAM beats (32 data, 8 check) by beat number, byte address / 4; none where nothing has been written since
  the contents were last lost. Reset none. -/
  beat : Tab (Option Nat)
  /-- Tag word of each line as two beats, key 2 × line (R408, R409). Reset none. -/
  tag : Tab (Option Nat)
  /-- Ranges filled with zero plaintext, latest first: first line, lines, key set (R418). Reset empty. -/
  fills : List (Nat × Nat × KeySet)
  /-- How often DRAM contents were lost (R419): what an unwritten beat holds changes with it. Reset 0. -/
  epoch : Nat
  /-- FILL in progress: first line, lines, slot (R418). Reset none. -/
  fill : Option (Nat × Nat × Nat)
  /-- Lines of it that an access found already filled. Reset empty. -/
  reached : List Nat
  /-- Key set of ephemeral mode (R405). Reset none. -/
  eph : Option KeySet
  /-- Key slots (R406). Reset none. -/
  slot : Tab (Option KeySet)
  /-- Key words held for each path, key 24 × path + word (R424). Reset 0. -/
  kw : Tab Word
  /-- Failures so far of the command that met a parity error last (R396). Reset 0. -/
  alerts : Nat
  /-- The controller's own tags in use while it fills are 1 more than this modulo 1,024 (R413). Reset 0. -/
  ctl : Nat
  /-- Level of the DDR_RESET_N ball: low while the controller asserts it (R419). Reset low. -/
  resetN : Bool
  /-- The arbiter's turn is spill's (R415). Reset true. -/
  spillTurn : Bool
  /-- Lines left of that turn. Reset 0. -/
  left : Nat
  deriving DecidableEq, Repr

/-- A request of a DMA channel that is in flight (R431). -/
structure DReq where
  /-- PHASE of Table 14.5: 0 descriptor, 1 index, 2 element read, 3 element write -/
  ph : Nat
  /-- Element number since START or the descriptor began -/
  n : Nat
  /-- Address -/
  addr : Nat
  /-- Response (Table 13.2) -/
  resp : Nat
  /-- Data of a read -/
  data : List Byte
  deriving DecidableEq, Repr

/-- A DMA channel beside its registers (14_dma.md). -/
structure Chan where
  /-- Requests in flight. Reset empty. -/
  fl : List DReq
  /-- Index entries fetched whose element read is not issued: element and OFFSET (R436). Reset empty. -/
  idx : List (Nat × Nat)
  /-- Elements read and not yet written, by element number (R431). Reset empty. -/
  got : Tab (List Byte)
  /-- Next element whose index read is to be issued. Reset 0. -/
  ni : Nat
  /-- Next element whose read is to be issued. Reset 0. -/
  nr : Nat
  /-- Next element whose write is to be issued. Reset 0. -/
  nw : Nat
  /-- Elements in all: COUNT when the transfer or the descriptor began. Reset 0. -/
  tot : Nat
  /-- IDX_CUR when the transfer began. Reset 0. -/
  i0 : Nat
  /-- The failing request: resp, phase, address, element (R438). Reset none. -/
  err : Option (Nat × Nat × Nat × Nat)
  /-- The descriptor at NEXT is to be read (R437). Reset false. -/
  chain : Bool
  deriving DecidableEq, Repr

/-- The DMA engine beside its registers. Channel buffers are the registers BUFi. -/
structure Dma where
  /-- Channels 0 to 31. Reset all empty. -/
  ch : Tab Chan
  /-- Channel at which the choice of the next request begins (R432). Reset 0. -/
  next : Nat
  deriving DecidableEq, Repr

/-- A packet kept on a lane: header words, payload words, tag (Table 15.4). -/
structure Pkt where
  /-- Header words 0 to 3 -/
  w : List Nat
  /-- Payload words -/
  pay : List Nat
  /-- GCM tag, empty without ENC -/
  tag : List Byte
  deriving DecidableEq, Repr

/-- Search of the receiver for transmitter taps (R454). -/
structure EqS where
  /-- The request under way: 0 none, 1 PRESET, 2 step, 3 undoing a step -/
  req : Nat
  /-- Tap worked on: 0 POST, 1 PRE, 2 MAIN -/
  tap : Nat
  /-- Step: 1 increase, 2 decrease -/
  dir : Nat
  /-- A step in this direction has raised METRIC -/
  rose : Bool
  /-- METRIC after the last step kept -/
  m : Nat
  /-- Net steps of the tap worked on in this pass -/
  net : Int
  /-- A tap finished in this pass has changed -/
  changed : Bool
  deriving DecidableEq, Repr

/-- A link session (R471, R472). -/
structure Sess where
  /-- Session key -/
  key : List Byte
  /-- IV field of this end, 0 or 1 -/
  mine : Nat
  /-- Packets encrypted -/
  tx : Nat
  /-- Packets decrypted -/
  rx : Nat
  deriving DecidableEq, Repr

/-- An eye scan (R456). -/
structure Scan where
  /-- PHASE, in 1/64 UI, −32 to 31 -/
  phase : Int
  /-- VOFS, in offset steps, −127 to 127 -/
  vofs : Int
  /-- DWELL: 2^(16 + DWELL) bits are compared -/
  dwell : Nat
  deriving DecidableEq, Repr

/-- A serial lane beside its registers (15_lanes_draught.md). -/
structure Lane where
  /-- Start-up settings of Steep in force: their RATEMASK (R457). Reset none. -/
  su : Option Nat
  /-- Consecutive accepted sets in the present state (R448, Table 15.3). Reset 0. -/
  run : Nat
  /-- Rates struck from this training (R449). Reset 0. -/
  struck : Nat
  /-- Target rate in RATE. Reset 0. -/
  target : Nat
  /-- RATEMASK of the partner. Reset 0. -/
  pmask : Nat
  /-- FLAGS of the partner. Reset 0. -/
  pflags : Nat
  /-- Own EQ_DONE (R454). Reset false. -/
  eqDone : Bool
  /-- Tap search. Reset idle. -/
  eq : EqS
  /-- REQ_SEQ of the latest own request. Reset 0. -/
  reqSeq : Nat
  /-- REQ_SEQ answered last and the answer (R452); none before the first. Reset none. -/
  ans : Option (Nat × Nat)
  /-- READY sets sent (R451, Table 15.3). Reset 0. -/
  sent : Nat
  /-- The eye scan that runs (R456). Reset none. -/
  scan : Option Scan
  /-- Next LSEQ to send (R460). Reset 0. -/
  txSeq : Nat
  /-- Next LSEQ expected (R461). Reset 0. -/
  rxSeq : Nat
  /-- Packets delivered since the last ACK (R461). Reset 0. -/
  ackDue : Nat
  /-- Packets sent and not acknowledged, oldest first, at most 64 (R460). Reset empty. -/
  replay : List Pkt
  /-- Consecutive replays without an acknowledgement (R462). Reset 0. -/
  replays : Nat
  /-- Packets that the latest replay sends again, in their order (R462). Reset empty. -/
  resent : List Pkt
  /-- Routed packets that wait for a session or for a place in the replay buffer, not yet numbered. Reset empty. -/
  out : List Pkt
  /-- Last ACK or NAK sent: type and sequence (R461). Reset none. -/
  link : Option (Nat × Nat)
  /-- Own KEYX payload and, in ephemeral mode, private key (R471). Reset none. -/
  keyx : Option (List Byte × Nat)
  /-- Session in effect (R471). Reset none. -/
  sess : Option Sess
  deriving DecidableEq, Repr

/-- A queued Draught request (R464). -/
structure DrReq where
  /-- Lane it came on -/
  lane : Nat
  /-- Packet type: 0x01 RD, 0x02 WR, 0x40 AUTH -/
  ty : Nat
  /-- Source node -/
  src : Nat
  /-- Transaction tag -/
  tag : Nat
  /-- Register byte address -/
  addr : Nat
  /-- ARG -/
  arg : Nat
  /-- Payload words -/
  pay : List Nat
  deriving DecidableEq, Repr

/-- A capture stream (R469). -/
structure Strm where
  /-- Bytes packed in the packet in progress, at most 256. Reset empty. -/
  buf : List Byte
  /-- The packet is closed and waits for credit. Reset false. -/
  closed : Bool
  deriving DecidableEq, Repr

/-- The Draught link beside its registers. -/
structure Dlnk where
  /-- Lanes 0 to 7. Reset all empty. -/
  lane : Tab Lane
  /-- Request queue, oldest first, at most 16 (R464). Reset empty. -/
  rq : List DrReq
  /-- Capture streams 0 to 15. Reset empty. -/
  str : Tab Strm
  deriving DecidableEq, Repr

/-- A count of the cycles of a port's clock. -/
structure UClk where
  /-- Cycles counted up to timestamp `since`, or up to the stop of the clock -/
  base : Nat
  /-- Timestamp from which they are counted on; none while the clock stands -/
  since : Option Nat
  deriving DecidableEq, Repr

/-- A character in progress at a receiver (R483 to R487). Cycles are those of the port's clock. -/
structure URx where
  /-- Reference R -/
  ref : Nat
  /-- Reference bit b -/
  b : Nat
  /-- Cycle of the start edge -/
  first : Nat
  /-- Falling edges so far, the start edge included -/
  falls : Nat
  /-- Cycle of the fifth of them (R500) -/
  fifth : Option Nat
  /-- Samples taken of the bit being decided -/
  part : List Bool
  /-- Bits decided so far: value, and whether its samples differ -/
  bits : List (Bool × Bool)
  deriving DecidableEq, Repr

/-- An asynchronous port beside its registers (16_uarts.md). -/
structure Uart where
  /-- Character being received; none in hunt. Reset none. -/
  rx : Option URx
  /-- Receive queue, oldest first, at most 64 entries of Table 16.1 (R505). Reset empty. -/
  q : List Nat
  /-- A character was lost since the last entry (R505). Reset false. -/
  ovr : Bool
  /-- Character being sent in character and SC modes, and its repeats (R494). Reset none. -/
  tx : Option (Nat × Nat)
  /-- Transmit queue, oldest first, at most 64 (R506). Reset empty. -/
  txq : List Nat
  /-- Frame reception: 0 outside a frame, 1 SYNC next, 2 PID next, 3 data, 4 checksum, 5 the rest is ignored. Reset 0. -/
  fr : Nat
  /-- Protected identifier of the frame. Reset 0. -/
  pid : Nat
  /-- Data bytes still to come. Reset 0. -/
  left : Nat
  /-- Data bytes of the response. Reset empty. -/
  dat : List Nat
  /-- Bit period measured for this frame (R500). Reset none. -/
  n : Option Nat
  /-- FIELDs of the own frame still to send; the first is being sent (R498, R501). Reset empty. -/
  txf : List Nat
  /-- Value of the field being sent. Reset 0. -/
  txv : Nat
  /-- Checksum of the own response. Reset 0. -/
  cks : Nat
  /-- The line has not been high since the last falling edge, or since the port was enabled (R483, R507). Reset false. -/
  low : Bool
  /-- Cycles since the transmitter turned to the character or field being sent (R482). Reset 0. -/
  age : UClk
  /-- Cycles of them before its start edge (R492, R494). Reset 0. -/
  lead : Nat
  /-- A character has been started since the port was enabled, so that `age` and `lead` are those of the last one (R492). Reset
  false. -/
  prev : Bool
  /-- Cycles since the start edge of the character that the receiver signals as wrong (R493). Reset none. -/
  sig : Option UClk
  /-- The receiver has decided the field being sent (R503). Reset false. -/
  back : Bool
  /-- The checksum of the frame is the enhanced one, as IDTAB had it at the PID (R502, R509). Reset false. -/
  enh : Bool
  deriving DecidableEq, Repr

/-- The asynchronous ports beside their registers. -/
structure Uarts where
  /-- Ports 0 to 7. Reset all empty. -/
  port : Tab Uart
  /-- Bit period in effect on UART0 (R511). Reset 0x1B20. -/
  baud0 : Nat
  deriving DecidableEq, Repr

/-- A pass of the self-test: its options (17_bist.md). -/
structure BPass where
  /-- MODE: isolate-and-reinitialise -/
  destr : Bool
  /-- LBIST -/
  lbist : Bool
  /-- MBIST -/
  mbist : Bool
  /-- LONG -/
  long : Bool
  /-- REPAIR_EN -/
  repair : Bool
  /-- Targets under test at once -/
  par : Nat
  deriving DecidableEq, Repr

/-- Self-test beside its registers (17_bist.md). -/
structure Bist where
  /-- Domains under test (R515). Reset empty. -/
  isol : List Nat
  /-- Targets under test and the generator-65 cycle of the pass at which each started (R523). Reset empty. -/
  run : List (Nat × Nat)
  /-- Targets still to start, ascending (R523). Reset empty. -/
  todo : List Nat
  /-- Generator-65 cycle at which the latest test ended (R518). Reset 0. -/
  now : Nat
  /-- Soft repairs: target, memory and row (R521, R522), kept until power-on. Reset empty. -/
  repairs : List (Nat × Nat × Nat)
  /-- Options of the pass in progress. Reset none. -/
  pass : Option BPass
  deriving DecidableEq, Repr

/-- The Steup monitor, the unlock exchanges and the OTP items (18_steup_monitor.md). -/
structure Mon where
  /-- Characters that the receiver of UART0 has decided and the monitor has not taken, oldest first (R477, R484). Reset empty. -/
  got : List Byte
  /-- Characters of the line being received (R532). Reset empty. -/
  cur : List Byte
  /-- That line is too long, or a character of it was lost (R532, R534). Reset false. -/
  bad : Bool
  /-- The last character taken into a line was a CR (R532). Reset false. -/
  cr : Bool
  /-- The last character received was a CR, for the echo (R535). Reset false. -/
  ecr : Bool
  /-- The command line being performed, and whether it is to be answered err 03 (R532, R534). Reset none. -/
  line : Option (List Byte × Bool)
  /-- Characters received while a command runs, each with whether it found the store full and was discarded; at most 256 are
  held (R534). Reset empty. -/
  store : List (Byte × Bool)
  /-- Characters to leave U0_TXD, oldest first (R533, R535). Reset empty. -/
  out : List Byte
  /-- How many of them there are up to the end of the reply being sent; 0 when none is (R534). Reset 0. -/
  reply : Nat
  /-- The reply to the monitor's reset command is among them (R537, Table 3.1). Reset false. -/
  resetReq : Bool
  /-- Challenge held for each path by its code (R540). Reset none. -/
  chal : Tab (Option (List Byte))
  /-- PWH, once programmed (R538, R547). Reset: per part; the model's choice, unprogrammed (log entry 90). -/
  pwh : Option (List Byte)
  /-- KEY, once programmed (R541, R547). Reset: per part; the model's choice, unprogrammed (log entry 90). -/
  key : Option (List Byte)
  deriving DecidableEq, Repr

/-- The test access port (R551 to R554). -/
structure Tap where
  /-- Instruction register, 6 bits (R551). Reset IDCODE. -/
  ir : Nat
  /-- Bits the selected data register last captured, bit 0 first out (R551 to R553). Reset empty. -/
  dr : List Bool
  /-- Boundary register: the value preloaded for each cell's pad (R553, R554). Reset empty: every cell 0. -/
  bsr : List Bool
  deriving DecidableEq, Repr

/-- The state of the block. -/
structure State where
  /-- Commands that wait, first in first out. Reset empty. -/
  pending : List Instr
  /-- The model's own field: which free value comes next (log entry 2). Reset 0, DESIGN CHOICE. -/
  freeCtr : Nat
  /-- Start-up phase (Table 3.2). Reset `reset`. -/
  phase : Phase
  /-- Every register the manual names, by byte address; an unlisted one holds its reset value (R7, Table 0.3). -/
  regs : Tab Word
  /-- Pending bank of staged registers, by byte address; none until STAGE_EN copies or a write fills it (R128, R130).
  Reset none. -/
  pend : Tab (Option Word)
  /-- Register fabric root. -/
  root : Root
  /-- Supplies and resets. -/
  pwr : Pwr
  /-- Survey. -/
  surv : Surv
  /-- Configuration. -/
  cfg : Cfg
  /-- Clocks. -/
  clk : Clk
  /-- Nibs. -/
  nib : Nib
  /-- Fabric. -/
  fab : Fab
  /-- Capture and Inkwell. -/
  cap : Cap
  /-- Quill. -/
  quill : Quill
  /-- Tracing. -/
  trc : Trc
  /-- Time-interval unit. -/
  tdc : Tdc
  /-- External memory and keys. -/
  mem : Mem
  /-- DMA engine. -/
  dma : Dma
  /-- Serial lanes and the Draught link. -/
  dl : Dlnk
  /-- Asynchronous ports. -/
  uart : Uarts
  /-- Self-test. -/
  bist : Bist
  /-- Monitor, unlocking, OTP. -/
  mon : Mon
  /-- Test access port. -/
  tap : Tap
  deriving DecidableEq, Repr

/-- Defaults of the tables. -/
def noPll : Pll := ⟨0, 0, 0, false, [], none⟩
def noHs : Hs := ⟨[], [], none⟩
def noRes : SurvRes := ⟨0, 7, 0, 0⟩
def noCap : Cap := ⟨0, [], [], [], [], [], [], false, [], [], [], false, [], [], none, 0, none, 0, false, false, false, false, false, 0, none,
  none, 0, 0, 0, 0, [], 0⟩
def noCtx : QCtx := ⟨0, false, [], [], 0, none⟩
def noQuill : Quill := ⟨[], [], 0, 0, 0, [], [], [], [], [], [], [], [], [], []⟩
def noPair : TPair := ⟨false, false, false, false, false, false, [], [], 0⟩
def noTrc : Trc := ⟨[], [], [], []⟩
def noTdc : Tdc := ⟨[], [], [], [], [], [], [], [], []⟩
def noMem : Mem := ⟨[], [], [], 0, none, [], none, [], [], 0, 0, false, true, 0⟩
def noChan : Chan := ⟨[], [], [], 0, 0, 0, 0, 0, none, false⟩

def noEq : EqS := ⟨0, 0, 0, false, 0, 0, false⟩
def noLane : Lane := ⟨none, 0, 0, 0, 0, 0, false, noEq, 0, none, 0, none, 0, 0, 0, [], 0, [], [], none, none, none⟩
def noUart : Uart :=
  ⟨none, [], false, none, [], 0, 0, 0, [], none, [], 0, 0, false, ⟨0, none⟩, 0, false, none, false, false⟩
def noBist : Bist := ⟨[], [], [], 0, [], none⟩
def noMon : Mon := ⟨[], [], false, false, false, none, [], [], 0, false, [], none, none⟩
def noStrm : Strm := ⟨[], false⟩

/-- After a full reset has been released: every part empty, every register at its reset value (R570). -/
def State.reset : State where
  pending := []
  freeCtr := 0
  phase := .reset
  regs := []
  pend := []
  root := ⟨0, 0, 0, 0, [], [], [], [], [], [], none, .idle, [], [], [], [], none, 0⟩
  pwr := ⟨0x1FFF, 0x1FFF, false, true, 1, 0, []⟩
  surv := ⟨0, [], [], [], [], 0, [], [], [], [], [], 0, false, [], none, false, 0, 0⟩
  cfg := ⟨[], [], none, [], none, false, false, false⟩
  clk := ⟨[], [], 0, 0, []⟩
  nib := ⟨[], [], [], [], [], [], false, false, []⟩
  fab := ⟨[], [], [], [], [], [], [], [], [], [], .none, [], none⟩
  cap := noCap
  quill := noQuill
  trc := noTrc
  tdc := noTdc
  mem := noMem
  dma := ⟨[], 0⟩
  dl := ⟨[], [], []⟩
  uart := ⟨[], 0x1B20⟩
  bist := noBist
  mon := noMon
  tap := ⟨Config.irIdcode, [], []⟩

end Sys2Proof.Machine
end

