-- ==== Sys2Proof/Machine/Operands.lean ====
section
/-! DEFINITION. The page map (Table 21.1), which register an address names, every register's reset value, and the
reading and writing of stored registers and fields. -/

namespace Sys2Proof.Machine

/-- Kind and instance of a device page; none for an unimplemented one (R593, Table 21.1). -/
def pageOf (p : Nat) : Option (PageKind × Nat) :=
  if p < 0x008 then
    match p with
    | 0 => some (.sys, 0) | 1 => some (.vlog, 0) | 2 => some (.pwr, 0) | 3 => some (.surv, 0)
    | 4 => some (.clk, 0) | 5 => some (.isl, 0) | _ => none
  else if p ≤ 0x00E then some (.nib, p - 0x008)
  else if p = 0x010 then some (.cut, 0)
  else if p = 0x020 then some (.cfgc, 0)
  else if p = 0x021 then some (.blot, 0)
  else if p = 0x030 then some (.cap, 0)
  else if p = 0x031 then some (.ink, 0)
  else if 0x034 ≤ p ∧ p ≤ 0x03B then some (.qcx, p - 0x034)
  else if p = 0x03C then some (.qst, 0)
  else if p = 0x040 then some (.trc, 0)
  else if 0x050 ≤ p ∧ p ≤ 0x053 then some (.tdc, p - 0x050)
  else if p = 0x054 then some (.tin, 0)
  else if p = 0x060 then some (.memc, 0)
  else if p = 0x061 then some (.xts, 0)
  else if p = 0x062 then some (.keys, 0)
  else if 0x070 ≤ p ∧ p ≤ 0x073 then some (.dma, p - 0x070)
  else if 0x080 ≤ p ∧ p ≤ 0x087 then some (.lane, p - 0x080)
  else if p = 0x088 then some (.dlnk, 0)
  else if p = 0x090 then some (.uart0, 0)
  else if 0x091 ≤ p ∧ p ≤ 0x097 then some (.uart, p - 0x090)
  else if p = 0x0A0 then some (.bist, 0)
  else if p = 0x0B0 then some (.mon, 0)
  else if p = 0x0C0 then some (.irq, 0)
  else if 0x100 ≤ p ∧ p ≤ 0x12F then some (.fi, p - 0x100)
  else none

/-- The implemented device pages (R593). -/
def allPages : List Nat := (List.range 0x130).filter (fun p => (pageOf p).isSome)

/-- TYPE of a page kind (Table 21.1). -/
def pageType : PageKind → Nat
  | .sys => 0x0001 | .vlog => 0x0002 | .pwr => 0x0003 | .surv => 0x0004 | .clk => 0x0005 | .isl => 0x0006
  | .nib => 0x0010 | .cut => 0x0011 | .cfgc => 0x0020 | .blot => 0x0021 | .cap => 0x0030 | .ink => 0x0031
  | .qcx => 0x0034 | .qst => 0x0035 | .trc => 0x0040 | .tdc => 0x0050 | .tin => 0x0051 | .memc => 0x0060
  | .xts => 0x0061 | .keys => 0x0062 | .dma => 0x0070 | .lane => 0x0080 | .dlnk => 0x0081 | .uart => 0x0090
  | .uart0 => 0x0090 | .bist => 0x00A0 | .mon => 0x00B0 | .irq => 0x00C0 | .fi => 0x0100

/-- Domain whose state governs access to a page, none for AON (Table 21.1, R596, R597). -/
def pageDomain : PageKind → Nat → Option Nat
  | .clk, _ => some 63
  | .blot, _ => some 62
  | .cap, _ => some 48
  | .trc, _ => some 48
  | .ink, _ => some 49
  | .qcx, _ => some 50
  | .qst, _ => some 50
  | .tdc, i => some (if i < 2 then 51 else 52)
  | .tin, _ => some 51
  | .lane, n => some (53 + n / 2)
  | .memc, _ => some 57
  | .xts, _ => some 58
  | .keys, _ => some 58
  | .dma, _ => some 59
  | .uart, _ => some 60
  | .bist, _ => some 61
  | _, _ => none

/-- Pages that hold staged registers (Table 21.1, R598). -/
def pageHasRws : PageKind → Bool
  | .pwr => true | .isl => true | .nib => true | .trc => true | .fi => true | _ => false

/-- The bits of `m` as write-one-to-clear fields. -/
def w1cFields (m : Nat) : List FieldRow := (setBits m 32).map (fun i => ⟨i, 1, .w1c, 0⟩)

/-- Bank an island is adjacent to, 7 for none (Table 7.1). -/
def islandBank (x : Nat) : Nat :=
  if x = 0 ∨ x = 8 ∨ x = 16 then 0
  else if x = 24 ∨ x = 32 ∨ x = 40 then 1
  else if x = 41 ∨ x = 42 ∨ x = 43 then 2
  else if x = 44 ∨ x = 45 ∨ x = 46 then 3
  else if x = 47 ∨ x = 39 ∨ x = 31 then 4
  else if x = 23 ∨ x = 15 ∨ x = 7 then 5
  else if x = 2 ∨ x = 3 ∨ x = 4 then 6
  else 7

/-- The fields of the common registers (Table 4.1). Offsets 0x024 to 0x03C are reserved and read zero. -/
def commonFields (k : PageKind) (i off : Nat) : List FieldRow :=
  match off with
  | 0x000 => [⟨0, 16, .ro, pageType k⟩, ⟨16, 8, .ro, i⟩, ⟨24, 4, .ro, 1⟩]
  | 0x004 => [⟨0, 4, .ro, Config.stepping⟩, ⟨8, 8, .ro, 1⟩]
  | 0x008 => [⟨0, 1, .rw, 1⟩, ⟨1, 1, .rw, 0⟩]
  | 0x00C => [⟨0, 1, .roh, 1⟩, ⟨1, 1, .roh, 0⟩, ⟨2, 1, .roh, 0⟩, ⟨3, 1, .roh, 0⟩, ⟨4, 1, .roh, 0⟩, ⟨5, 1, .roh, 0⟩]
  | 0x010 => w1cFields (irqMask k)
  | 0x014 => [⟨0, 32, .rw, 0⟩]
  | 0x018 => [⟨0, 32, .roh, 0⟩]
  | 0x01C => [⟨0, 8, .roh, 0⟩, ⟨8, 2, .roh, 0⟩]
  | 0x020 => [⟨0, 12, .roh, 0⟩, ⟨31, 1, .roh, 0⟩]
  | _ => []

/-- The row of a page kind that holds offset `off`. -/
def rowAt (k : PageKind) (off : Nat) : Option RegRow :=
  firstWhere (fun r => decide (r.off ≤ off) && decide ((off - r.off) % r.stride = 0) && decide ((off - r.off) / r.stride < r.n)) (rowsOf k)

/-- The fields of the register at offset `off` of a page; none where the page defines no register (R95). TDCi.CMD
exists on TDC0 alone, MAPw entries hold BALL and EN of eight pages (Table 19.5), PEND9 has 16 bits. -/
def fieldsAt (k : PageKind) (i off : Nat) : Option (List FieldRow) :=
  if off < 0x040 then some (commonFields k i off)
  else if k = .tdc ∧ 0 < i ∧ off = 0x044 then none
  else if k = .fi ∧ off = 0x040 then
    some [⟨0, 3, .ro, i / 8⟩, ⟨4, 3, .ro, i % 8⟩, ⟨8, 3, .ro, islandBank i⟩, ⟨12, 1, .ro, 0⟩, ⟨13, 1, .ro, 0⟩,
      ⟨14, 1, .ro, 0⟩, ⟨15, 1, .ro, 0⟩]
  else (rowAt k off).map RegRow.fields

/-- The fields of the register at an address of the window; none for an unimplemented one (R94, R95). -/
def regFields (a : Nat) : Option (List FieldRow) :=
  if a % 4 ≠ 0 then none
  else match pageOf (a / 0x1000) with
    | none => none
    | some (k, i) => fieldsAt k i (a % 0x1000)

/-- The value that the fields' resets make. -/
def fieldsReset : List FieldRow → Nat
  | [] => 0
  | f :: fs => f.reset * 2 ^ f.lo + fieldsReset fs

/-- Reset value of the register at an address. -/
def resetOf (a : Nat) : Word :=
  match regFields a with
  | none => 0
  | some fs => BitVec.ofNat 32 (fieldsReset fs)

/-- Bits of a register whose fields have one of the types `p` picks. -/
def fieldMask (p : FieldTy → Bool) : List FieldRow → Nat
  | [] => 0
  | f :: fs => (if p f.ty then (2 ^ f.w - 1) * 2 ^ f.lo else 0) + fieldMask p fs

/-- The stored contents of a register. Views that are computed at a read are in Views.lean. -/
def State.reg (s : State) (a : Nat) : Word := tabGet resetOf s.regs a

/-- Store a register. -/
def State.setReg (s : State) (a : Nat) (w : Word) : State := { s with regs := tabSet resetOf s.regs a w }

/-- A field of a stored register. -/
def State.getF (s : State) (a : Nat) (f : Fld) : Nat := bitsOf (s.reg a).toNat f.lo f.w

/-- Store a field of a register. -/
def State.setF (s : State) (a : Nat) (f : Fld) (v : Nat) : State :=
  s.setReg a (BitVec.ofNat 32 (withBits (s.reg a).toNat f.lo f.w v))

/-- A one-bit field as a Bool. -/
def State.flag (s : State) (a : Nat) (f : Fld) : Bool := s.getF a f == 1

/-- Add to a field that saturates. -/
def State.satF (s : State) (a : Nat) (f : Fld) (k : Nat) : State := s.setF a f (satAdd f.w (s.getF a f) k)

/-- Add to a field that wraps. -/
def State.wrapF (s : State) (a : Nat) (f : Fld) (k : Nat) : State := s.setF a f (wrapAdd f.w (s.getF a f) k)

/-- A value in the pending bank, or the value in effect where none is pending (R128, R130). -/
def State.staged (s : State) (a : Nat) : Word := (tabGet (fun _ => none) s.pend a).getD (s.reg a)

/-- Write the pending bank. -/
def State.setPend (s : State) (a : Nat) (w : Option Word) : State :=
  { s with pend := tabSet (fun _ => none) s.pend a w }

/-- A field of the staged value. -/
def State.stagedF (s : State) (a : Nat) (f : Fld) : Nat := bitsOf (s.staged a).toNat f.lo f.w

/-- A whole register as a number. -/
def State.regN (s : State) (a : Nat) : Nat := (s.reg a).toNat

/-- Store a whole register from a number. -/
def State.setN (s : State) (a n : Nat) : State := s.setReg a (BitVec.ofNat 32 n)

/-- Store a 48-bit count in a LO and HI pair. -/
def State.set48 (s : State) (lo hi v : Nat) : State := (s.setN lo (v % 2 ^ 32)).setN hi (v / 2 ^ 32 % 2 ^ 16)

/-- Registers of pages that `p` picks take their reset values. -/
def State.resetPages (s : State) (p : Nat → Bool) : State :=
  { s with regs := s.regs.filter (fun e => !p (e.1 / 0x1000)), pend := s.pend.filter (fun e => !p (e.1 / 0x1000)) }

/-! Bit maps held in consecutive registers. -/

/-- Bit `i` of a map whose word 0 is at `a`, words `stride` bytes apart. -/
def State.mapBit (s : State) (a stride i : Nat) : Bool := bitOf (s.regN (a + stride * (i / 32))) (i % 32)

/-- Set bit `i` of such a map. -/
def State.setMapBit (s : State) (a stride i : Nat) (v : Bool) : State :=
  s.setF (a + stride * (i / 32)) ⟨i % 32, 1⟩ (b2n v)

/-- The next free value below `n` (log entry 2): the value and the state that has moved past it. -/
def State.free (s : State) (n : Nat) : Nat × State :=
  (Config.freeNat s.freeCtr % n, { s with freeCtr := s.freeCtr + 1 })

/-- The next `n` free bytes. -/
def State.freeBytes (s : State) (n : Nat) : List Byte × State :=
  ((List.range n).map (fun i => BitVec.ofNat 8 (Config.freeNat (s.freeCtr + i))), { s with freeCtr := s.freeCtr + n })

end Sys2Proof.Machine
end

