-- ==== Sys2Proof/Machine/Flags.lean ====
section
/-! DEFINITION. Status and interrupt flags: IRQ_RAW and IRQ_PEND, page status, domain state, interrupt sources and
the IRQ_N balls (Table 4.1, R54, R56, R99, R565, R566). -/

namespace Sys2Proof.Machine

/-- Set bits of a page's IRQ_RAW. -/
def State.irq (s : State) (page bits : Nat) : State :=
  s.setReg (R.PAGE_IRQ_RAW page) (s.reg (R.PAGE_IRQ_RAW page) ||| BitVec.ofNat 32 bits)

/-- Set bit `i` of a page's IRQ_RAW. -/
def State.irqBit (s : State) (page i : Nat) : State := s.irq page (2 ^ i)

/-- IRQ_PEND: IRQ_RAW AND IRQ_EN (Table 4.1). -/
def irqPend (s : State) (page : Nat) : Word := s.reg (R.PAGE_IRQ_RAW page) &&& s.reg (R.PAGE_IRQ_EN page)

/-- State of a switched domain: 0 on, 1 off, 2 powering up, 3 powering down. -/
def domSt (s : State) (d : Nat) : Nat := tabGet (fun _ => 0) s.pwr.dom d

/-- The domain is powered and its isolation released. -/
def domOn (s : State) (d : Nat) : Bool := domSt s d == 0 && !s.bist.isol.contains d

/-- PWR.DOM_STAT, bit d (Table 2.10). -/
def domStatWord (s : State) (w : Nat) : Nat :=
  ((List.range 32).filter (fun i => domOn s (32 * w + i))).foldl (fun n i => n + 2 ^ i) 0

/-- PD_OFF of a domain: off, or powering up (R52, R56). -/
def domPdOff (s : State) (d : Nat) : Bool := domSt s d == 1 || domSt s d == 2

/-- The page's own domain makes it a powered-off page (R54 to R56, R597). -/
def pageOff (s : State) (page : Nat) : Bool :=
  match pageOf page with
  | some (k, i) => match pageDomain k i with
    | some d => domPdOff s d
    | none => false
  | none => false

/-- A page's block is under self-test (R515). -/
def pageUnderTest (s : State) (page : Nat) : Bool :=
  match pageOf page with
  | some (k, i) => match pageDomain k i with
    | some d => s.bist.isol.contains d
    | none => false
  | none => false

def pageWedged (s : State) (page : Nat) : Bool := s.flag (R.PAGE_STAT page) F.PAGE_STAT_WEDGED

/-- PAGE_STAT as it reads: stored WEDGED, COMMIT_PENDING and COMMIT_REFUSED; READY and PD_OFF from the domain (an FI
page reports its island's domain and is otherwise an AON page, R597); BUSY while the block is under test (R515). -/
def pageStatWord (s : State) (page : Nat) : Nat :=
  let stored := bitsOf (s.regN (R.PAGE_STAT page)) 1 4 * 2
  match pageOf page with
  | some (.fi, x) => stored + 1 + 32 * b2n (domPdOff s x)
  | _ =>
    if pageOff s page then 32
    else if pageUnderTest s page then Nat.lor stored 2
    else stored + 1

/-- A page is an active interrupt source: IRQ_PEND non-zero and its domain on (R565, R597). -/
def srcActive (s : State) (page : Nat) : Bool :=
  match pageOf page with
  | none => false
  | some (k, i) =>
    (irqPend s page != 0) && (match pageDomain k i with
      | some d => domSt s d == 0
      | none => true)

/-- IRQ.PENDw (Table 19.5). -/
def irqPendWord (s : State) (w : Nat) : Nat :=
  ((List.range 32).filter (fun i => srcActive s (32 * w + i))).foldl (fun n i => n + 2 ^ i) 0

/-- Pages routed to a ball (R566). -/
def routedTo (s : State) (ball page : Nat) : Bool :=
  let e := bitsOf (s.regN (R.IRQ_MAP (page / 8))) (4 * (page % 8)) 4
  e == 8 + ball

/-- Whether IRQ_N(ball) is to be driven low (R566). -/
def ballWanted (s : State) (ball : Nat) : Bool :=
  allPages.any (fun p => routedTo s ball p && srcActive s p)

end Sys2Proof.Machine
end

