-- ==== Sys2Proof/Machine/Ops.lean ====
section
/-! DEFINITION. Operations that every block shares: the outcome of a guarded event, time, arbitration slots, levels,
violations and refusals, the halt, and the full reset (04_register_model.md, 19_faults_halt.md). -/

namespace Sys2Proof.Machine

/-- What a meaning answers. -/
abbrev Out := Host.Outcome State Fault Refusal

/-- An event that comes about only under a condition: its effect `t` where it comes about; where it cannot, it does not,
and the state stays (log entry 11). -/
def whenCan (s : State) (b : Bool) (t : State) : Out := .next (if b then t else s)

/-- The device is neither held in reset nor halted. -/
def live (s : State) : Bool := s.phase != .reset && s.phase != .halt

/-- ACTIVE of a generator: 0 gated, 1 primary, 2 fallback, 3 following (Table 5.8). -/
def genActive (s : State) (g : Nat) : Nat := s.getF (R.ISL_GEN_STAT g) F.ISL_GEN_STAT_ACTIVE

/-- A generator gives edges. -/
def genRuns (s : State) (g : Nat) : Bool := genActive s g != 0

/-- From the start of Steep to the start of Germinate generator 58 follows the survey sequencer, whatever its registers hold
(R77, R385, R386). -/
def surveyOwns (s : State) (g : Nat) : Bool := (s.phase == .steep || s.phase == .steepHold) && g == 58

/-- The generator whose edges `g` gives: itself, or the one it follows (R168). -/
def genRoot (s : State) (g : Nat) : Nat :=
  if surveyOwns s g then g
  else if s.getF (R.ISL_GEN_CFG g) F.ISL_GEN_CFG_SRC_KIND = 3 then s.getF (R.ISL_GEN_CFG g) F.ISL_GEN_CFG_FOLLOW else g

/-- The divisor of generator `g` while its source in use is the oscillator (R167, R170, R172, R386); none else. -/
def oscDiv (s : State) (g : Nat) : Option Nat :=
  if surveyOwns s g then (if s.getF (R.ISL_GEN_STAT g) F.ISL_GEN_STAT_MHZ = 50 then some 1 else none)
  else match genActive s g with
    | 1 => if s.getF (R.ISL_GEN_CFG g) F.ISL_GEN_CFG_SRC_KIND = 1 then some (s.getF (R.ISL_GEN_CFG g) F.ISL_GEN_CFG_D) else none
    | 2 => if s.getF (R.ISL_GEN_FB g) F.ISL_GEN_FB_FB_KIND = 1 then some (s.getF (R.ISL_GEN_FB g) F.ISL_GEN_FB_FB_D) else none
    | _ => none

/-- The edges of generator `g` in the oscillator cycle that begins at timestamp `t`: one in D cycles from the oscillator, a free
number from a PLL output (R167; log entry 3). -/
def genEdges (s : State) (g t : Nat) : Nat :=
  match oscDiv s (genRoot s g) with
  | some d => if d ≤ 1 then 1 else b2n ((t + Config.dividerPhase (genRoot s g)) % d == 0)
  | none => Config.edgesInCycle (genRoot s g) t

/-- Two generators are on one clock (R168). -/
def oneClock (s : State) (g h : Nat) : Bool := genRoot s g == genRoot s h

/-! ### Samples of the capture engine -/

/-- Capture group `g` is enabled and double-edge (R290, R293). -/
def groupOn (s : State) (g : Nat) : Bool := s.mapBit R.CAP_GRP_EN0 4 g
def groupDe (s : State) (g : Nat) : Bool := decide (g < 42) && groupOn s g && s.mapBit R.CAP_GRP_DE0 4 g

/-- Probe channel `p` is bound to an island that is not fenced (R245, R268). -/
def probeOn (s : State) (p : Nat) : Bool :=
  (List.range 48).any (fun x => s.mapBit (R.FI_PROBE0 x) 4 p && !s.flag (R.FI_FENCE x) F.FI_FENCE_FENCE)

/-- The double-edge channels as a falling capture edge samples them: at the comparator (R290). -/
def sampleFall (s : State) : Tab Bool := s.nib.cmp.filter (fun e => groupDe s (e.1 / 8))

/-- Channel `c` comes from a bank, or from an island, on one clock with the capture engine (R245, R289). -/
def chanOwn (s : State) (c : Nat) : Bool :=
  if c < 336 then oneClock s (48 + c / 48) 55
  else (List.range 48).any (fun x => s.mapBit (R.FI_PROBE0 x) 4 (c - 336) && oneClock s x 55)

/-- Input registers and probes as they now stand, by channel (R286). -/
def rawNow (s : State) : Tab Bool :=
  s.nib.inReg ++ (s.fab.probe.filter (fun e => probeOn s e.1)).map (fun e => (336 + e.1, e.2))

/-- The value of every channel as a rising capture edge samples it (R286, R287, R289, R290): a channel on one clock with the
engine directly, any other as it emerges from a two-stage synchroniser, which it entered two edges before, and a
double-edge group at the comparator. -/
def sampleNow (s : State) : Tab Bool :=
  (s.nib.cmp.filter (fun e => groupDe s (e.1 / 8)) ++
    s.cap.s2.filter (fun e => !groupDe s (e.1 / 8) && !chanOwn s e.1)).foldl (fun m e => tabInsert e.1 e.2 m)
      ((rawNow s).filter (fun e => !groupDe s (e.1 / 8) && chanOwn s e.1))

/-- What a value that emerges from a synchroniser on the present capture edge is stamped with: its count minus 2 (R289). -/
def emergedTs (s : State) : Nat := (s.cap.ts + 2 ^ 48 - 2) % 2 ^ 48

/-- The change that the present capture edge finds in the input register of nib `i`, directly or behind a synchroniser (R345). -/
def noteChange (s : State) (m : Tab (Option LEdge)) (i : Nat) : Tab (Option LEdge) :=
  let own := oneClock s (48 + i / 48) 55
  let old := tabGet (fun _ => none) m i
  let v := tabGet (fun _ => false) (if own then s.nib.inReg else s.cap.s2) i
  if (old.map (·.lvl)).getD false = v then m
  else tabSet (fun _ => none) m i (some ⟨if own then s.cap.ts else emergedTs s, v, old.map (·.t)⟩)

/-- The latest changes after the present capture edge (R345, R359). -/
def noteChanges (s : State) : Tab (Option LEdge) :=
  (((s.nib.inReg ++ s.cap.s1 ++ s.cap.s2 ++ s.cap.s3).map (·.1)).filter (fun c => decide (c < 336))).foldl (noteChange s) s.cap.ledge

/-- The samples of a rising edge and of the falling edge of its cycle are taken, and the synchronisers move on. -/
def takeSamples (s : State) (b f : Tab Bool) : State :=
  { s with cap := { s.cap with
    samp := b, sampF := f, s1 := rawNow s, s2 := s.cap.s1, s3 := s.cap.s2, hist := (s.cap.samp :: s.cap.hist).take 4
    ledge := noteChanges s, ports := ((s.fab.port, s.fab.crossed) :: s.cap.ports).take 3 } }

/-- The count of the capture edge that what happens now reaches: the next one. A mark that it makes comes before the TRANS
records of that edge (R297). -/
def edgeTs (s : State) : Nat := wrapAdd 48 s.cap.ts 1

/-- `n` capture edges on which nothing changes, with no capture in progress: pulses on their way come nearer, and those that
arrive are no triggers (R294). -/
def quietEdges : Nat → State → State
  | 0, s => s
  | n + 1, s =>
    let t := { s with cap := { s.cap with ts := edgeTs s } }
    let u := takeSamples t (sampleNow t) (sampleFall t)
    quietEdges n { u with cap := { u.cap with
      trig := (u.cap.trig.filter (fun e => e.1 != 0)).map (fun e => (e.1 - 1, e.2)) } }

/-- State of the capture engine (Table 9.2): 0 IDLE, 1 RUN, 2 POST, 3 DONE. -/
def capState (s : State) : Nat := s.getF R.CAP_STAT F.CAP_STAT_STATE
def capActive (s : State) : Bool := capState s == 1 || capState s == 2

/-- State of a Quill context (Table 10.5): 0 STOPPED, 1 RUN, 2 HANDLER, 3 FAULTED. -/
def ctxState (s : State) (x : Nat) : Nat := s.getF (R.QCX_STAT x) F.QCX_STAT_STATE
/-- A context is running (R332). -/
def ctxRuns (s : State) (x : Nat) : Bool := ctxState s x == 1 || ctxState s x == 2
def anyCtxRuns (s : State) : Bool := (List.range 8).any (ctxRuns s)

/-- Nothing that looks at single capture edges is at work: such edges come as commands instead (log entry 3). -/
def capQuiet (s : State) : Bool := !capActive s && !s.flag R.TRC_CTRL F.TRC_CTRL_RUN && !anyCtxRuns s

/-- The capture edges of one oscillator cycle while nothing looks at single edges (R287, R288). -/
def tickCap (s : State) : Cap :=
  if domOn s 48 && genRuns s 55 && capQuiet s then
    let e := genEdges s 55 s.root.ts
    if e = 0 then s.cap else { (quietEdges (min e 8) s).cap with ts := wrapAdd 48 s.cap.ts e }
  else s.cap

/-- TDC half `h` counts. -/
def tbRuns (s : State) (h : Nat) : Bool := domOn s (51 + h) && genRuns s (58 + h)

/-- TDC half `h` counts the edges that the capture timestamp counts (R168, R376). -/
def tbWithCap (s : State) (h : Nat) : Bool := tbRuns s h && domOn s 48 && oneClock s (58 + h) 55

/-- The edges that the timebase of TDC half `h` counts in one oscillator cycle (R370): those of the clock that its generator
is on, so that halves on one clock count alike (R168, R371). On one clock with the capture engine it counts with the capture
timestamp. -/
def tickTb (s : State) (h : Nat) : Nat :=
  if !tbRuns s h || (tbWithCap s h && !capQuiet s) then 0 else genEdges s (58 + h) s.root.ts

/-- Cycles that the clock of port `n` gives in the `k` oscillator cycles from timestamp `t` on: UART0 runs on the oscillator, the
others on generator 63 (R476; log entry 3). -/
def portEdges (s : State) (n t : Nat) : Nat → Nat
  | 0 => 0
  | k + 1 => (if n = 0 then 1 else genEdges s 63 ((t + k) % 2 ^ 48)) + portEdges s n t k

/-- What a count of port `n` stands at. -/
def clkCount (s : State) (n : Nat) (c : UClk) : Nat :=
  match c.since with
  | some t => c.base + portEdges s n t ((s.root.ts + 2 ^ 48 - t) % 2 ^ 48)
  | none => c.base

/-- A count that stands at `b` now. -/
def clkFrom (s : State) (n b : Nat) : UClk := ⟨b, if n = 0 || genRuns s 63 then some s.root.ts else none⟩

/-- The clock of port `n` may have stopped or gone on: its counts follow (R512). -/
def clkTurn (s : State) (n : Nat) (u : Uart) : Uart :=
  { u with age := clkFrom s n (clkCount s n u.age), sig := u.sig.map (fun c => clkFrom s n (clkCount s n c)) }

/-- The counts of UART1 to UART7 up to now, by generator 63 as it stands in `s`; called before that changes and after (R512). -/
def portsTurn (s : State) : State :=
  { s with uart := { s.uart with port := s.uart.port.map (fun e => if e.1 = 0 then e else (e.1, clkTurn s e.1 e.2)) } }

def tbOf (s : State) (h : Nat) : Nat := tabGet (fun _ => 0) s.tdc.tb h
def setTb (s : State) (h n : Nat) : State :=
  { s with tdc := { s.tdc with tb := tabSet (fun _ => 0) s.tdc.tb h (n % 2 ^ 64) } }

/-- The timebase of half `h` is brought up to date. -/
def tbAdvance (s : State) (h n : Nat) : State := if tbRuns s h then setTb s h (tbOf s h + n) else s

/-- The halves on one clock with the capture engine count `n` capture edges (R370, R376). -/
def tbFollows (s : State) (n : Nat) : State :=
  let s1 := if tbWithCap s 0 then tbAdvance s 0 n else s
  if tbWithCap s 1 then tbAdvance s1 1 n else s1

/-- One oscillator cycle: the timestamp counts (R127); the capture timestamp and the TDC timebases count the edges
that their generators give within it, a free number (R288, R370; log entry 3). -/
def tick (s : State) : State :=
  let a := tickTb s 0
  let b := tickTb s 1
  let s1 := if a = 0 then s else setTb s 0 (tbOf s 0 + a)
  let s2 := if b = 0 then s1 else setTb s1 1 (tbOf s1 1 + b)
  { s2 with cap := tickCap s, root := { s.root with ts := wrapAdd 48 s.root.ts 1 } }

/-- `n` capture edges pass while nothing looks at single ones (R287, R288). -/
def capPass (s : State) (n : Nat) : State :=
  if n = 0 then s else { s with cap := { (quietEdges (min n 8) s).cap with ts := wrapAdd 48 s.cap.ts n } }

/-- `n` oscillator cycles. -/
def ticks : Nat → State → State
  | 0, s => s
  | n + 1, s => ticks n (tick s)

/-- A slot begins: it admits path `p`. -/
def openSlot (s : State) (p : Path) : State :=
  { s with root := { s.root with slot := s.root.ts / 4, slotTop := p.code + 1, slotWrites := [] } }

/-- Admission of a request at the root (R114). A request that is complete on the edge on which a slot begins takes part in
that slot, in which the paths come in the order of their codes and each at most once. A request that is complete while a
slot is in progress, or out of that order, waits for the start of the next slot. -/
def enterSlot (s : State) (p : Path) : State :=
  if s.root.ts % 4 ≠ 0 then openSlot (ticks (4 - s.root.ts % 4) s) p
  else if s.root.slot ≠ s.root.ts / 4 then openSlot s p
  else if p.code < s.root.slotTop then openSlot (ticks 4 s) p
  else { s with root := { s.root with slotTop := p.code + 1 } }

/-- A write is performed in the present slot: an earlier write of the same register by another requester in the slot
is overwritten and counts in SYS.WRCOLL (R115). -/
def noteWrite (s : State) (p : Path) (a : Nat) : State :=
  let hit := s.root.slotWrites.any (fun e => e.1 == a && e.2 != p.code)
  let s1 := if hit then s.satF R.SYS_WRCOLL F.SYS_WRCOLL_COUNT 1 else s
  { s1 with root := { s1.root with slotWrites := (a, p.code) :: s1.root.slotWrites } }

/-! ### Prepared units -/

/-- A domain's bit in DOM_EN0 and DOM_EN1 in the pending bank. -/
def domStaged (s : State) (d : Nat) : Bool := s.stagedF (R.PWR_DOM_EN0 + 4 * (d / 32)) ⟨d % 32, 1⟩ == 1

/-- A unit has accepted the PREPARE of a commit that has not ended (Table 4.7). -/
def prepared (s : State) (u : CUnit) : Bool :=
  s.root.cPhase != .idle && s.root.cApply.contains u && !s.root.cWait.contains u

/-- The unit of domain `d` has accepted its switch-off. -/
def prepOff (s : State) (d : Nat) : Bool := prepared s (.dom d) && !domStaged s d

/-- Access level of a path (R100). -/
def levelOf (s : State) (p : Path) : Nat := tabGet (fun _ => 0) s.root.levels p.code

def setLevel (s : State) (p : Path) (l : Nat) : State :=
  { s with root := { s.root with levels := tabSet (fun _ => 0) s.root.levels p.code l } }

/-- Give a path its response and data. -/
def respond (s : State) (p : Path) (r : Resp) (d : List Word) : State :=
  { s with root := { s.root with
    resp := tabSet (fun _ => Resp.none) s.root.resp p.code r
    data := tabSet (fun _ => []) s.root.data p.code d } }

/-- Code of a violation kind (Table 4.5). -/
def VKind.code : VKind → Nat
  | .unimpl => 1 | .level => 2 | .rsvdField => 3 | .rsvdValue => 4 | .pdOff => 5

/-- A violation is entered at VLOG.NEXT, which advances modulo 32 (R125, Table 4.10). COUNT saturates; the sequence
number counts on. -/
def logEntry (s : State) (p : Path) (a : Nat) (write : Bool) (k : VKind) : State :=
  let n := s.regN R.VLOG_COUNT
  let i := s.getF R.VLOG_NEXT F.VLOG_NEXT_IDX
  let info := p.code + 4 * b2n write + 16 * k.code + 256 * levelOf s p + 0x8000 + 0x10000 * (s.root.logSeq % 0x10000)
  let s1 := s.setN (R.VLOG_ENT_ADDR i) (a % 0x1000000)
  let s2 := s1.setN (R.VLOG_ENT_INFO i) info
  let s3 := s2.set48 (R.VLOG_ENT_TS_LO i) (R.VLOG_ENT_TS_HI i) s.root.ts
  let s4 := s3.setN R.VLOG_COUNT (satAdd 32 n 1)
  (s4.setN R.VLOG_NEXT ((i + 1) % 32)).irqBit 0x001 0

/-- A violation is logged, and the sequence of entries moves on (R125). -/
def logViolation (s : State) (p : Path) (a : Nat) (write : Bool) (k : VKind) : State :=
  let t := logEntry s p a write k
  { t with root := { t.root with logSeq := (t.root.logSeq + 1) % 0x10000 } }

/-- A refusal is recorded in ERR_CODE, ERR_ADDR and IRQ_RAW.REFUSAL of the page (R121, R98). -/
def recordRefusal (s : State) (page : Nat) (p : Path) (a : Nat) (write : Bool) (code : Nat) : State :=
  ((s.setN (R.PAGE_ERR_CODE page) (code + 256 * p.code)).setN (R.PAGE_ERR_ADDR page)
    (a % 0x1000 + 0x80000000 * b2n write)).irqBit page 30

/-- What the block answers to a write that is no common violation. -/
inductive WOut where
  | done (s : State)
  | refuse (code : Nat)
  /-- refused, and the block has noted something about the refusal -/
  | refuseAs (s : State) (code : Nat)
  | bad (k : VKind)
  /-- performed, and the response is not a normal one of a register (user window) -/
  | wait (s : State)

/-! ### Halt -/

/-- The registers of the halt record (Table 19.5) cleared. -/
def clearHaltRecord (s : State) : State :=
  ((((s.setN R.IRQ_HALT_INFO 0).setN R.IRQ_HALT_TS_LO 0).setN R.IRQ_HALT_TS_HI 0).setN R.IRQ_HALT_A0 0).setN R.IRQ_HALT_A1 0

/-- Generator `g` gates at a halt with CAUSE 5; one already gated keeps its CAUSE (R558). -/
def haltGen (s : State) (g : Nat) : State :=
  if genRuns s g then
    (s.setF (R.ISL_GEN_STAT g) F.ISL_GEN_STAT_ACTIVE 0).setF (R.ISL_GEN_STAT g) F.ISL_GEN_STAT_CAUSE 5
  else s

/-- A halt cause is registered (R558, R563): the record is written, the nibs take their halt states (Nibs.lean computes
pads from the phase), HALT rises, every running generator gates and UART1 to UART7 pause with theirs (R512), every path is
disarmed (R572). In a reset the full reset
governs (R571); outside Kiln and Run the phase machine has no halt (Table 3.2, R65; log entry 12). -/
def halt (s : State) (cause a0 a1 : Nat) : State :=
  if s.phase = .kiln ∨ s.phase = .run then
    let s1 := (portsTurn s).setN R.IRQ_HALT_INFO (cause + 0x80000000)
    let s2 := (s1.set48 R.IRQ_HALT_TS_LO R.IRQ_HALT_TS_HI s.root.ts).setN R.IRQ_HALT_A0 a0
    let s3 := portsTurn ((List.range 66).foldl haltGen (s2.setN R.IRQ_HALT_A1 a1))
    { s3 with
      phase := .halt, nib := { s3.nib with haltBall := true }, root := { s3.root with arm := [] }
      tdc := { s3.tdc with late := [] } }
  else s

/-- A halted device as it was before its generators gated: those with CAUSE 5 run (R558). -/
def beforeHalt (s : State) : State :=
  let s1 := (List.range 66).foldl (fun t g => if t.getF (R.ISL_GEN_STAT g) F.ISL_GEN_STAT_CAUSE = 5 then
    t.setF (R.ISL_GEN_STAT g) F.ISL_GEN_STAT_ACTIVE 1 else t) s
  { s1 with phase := .run }

/-- The cause registered in `t` arises in the halted device `s` (R564). On the cycle of E0 the lower of it and the recorded
one is the recorded cause, with its data, and the other sets its ALSO bit; later it sets its own ALSO bit alone. -/
def alsoCause (s t : State) : State :=
  let a := R.IRQ_HALT_INFO
  let old := s.getF a F.IRQ_HALT_INFO_CAUSE
  let new := t.getF a F.IRQ_HALT_INFO_CAUSE
  if new < old ∧ s.regN R.IRQ_HALT_TS_LO + 2 ^ 32 * s.regN R.IRQ_HALT_TS_HI = s.root.ts then
    ((((s.setReg a (s.reg a ||| BitVec.ofNat 32 (2 ^ (7 + old)))).setF a F.IRQ_HALT_INFO_CAUSE new).setReg
      R.IRQ_HALT_A0 (t.reg R.IRQ_HALT_A0)).setReg R.IRQ_HALT_A1 (t.reg R.IRQ_HALT_A1))
  else s.setReg a (s.reg a ||| BitVec.ofNat 32 (2 ^ (7 + new)))

/-- An event that can be a halt cause. In a halt it comes about only as a further cause, up to the gating of the generators
(R558, R564), and changes nothing but the record; registers keep what they held at E0 (R560; log entry 16). -/
def orAlso (event : State → Out) (s : State) : Out :=
  if s.phase = .halt then
    match event (beforeHalt s) with
    | .next t => whenCan s (t.phase == .halt) (alsoCause s t)
    | _ => .next s
  else event s

/-! ### Full reset -/

/-- Registers that a full reset keeps (Table 19.3): the violation log, RAIL_LOSS, RST_CAUSE, the halt record and the
self-test results. -/
def keptReg (a : Nat) : Bool :=
  (0x1040 ≤ a && a < 0x1300) || a == R.PWR_RAIL_LOSS || a == R.SURV_RST_CAUSE || (0xC0080 ≤ a && a < 0xC0094) ||
  a == R.BIST_STAT || a == R.BIST_FLOG_CNT || a == R.BIST_ELAPSED || (0xA0100 ≤ a && a < 0xA0400)

/-- What no reset of the device touches: the queue of commands, the free values' position, the timestamp (R126), the
supplies and RST_N, the flash (R258), the levels outside at the pads, the OTP items (R547), soft repairs (R522, but for a
power-on), the test access port (R551). DESIGN CHOICE (log entry 39): the halves of the timestamp latched for the paths do
not stay. -/
def keepOutside (s : State) : State :=
  { State.reset with
    pending := s.pending
    freeCtr := s.freeCtr
    root := { State.reset.root with ts := s.root.ts, logSeq := s.root.logSeq }
    pwr := { s.pwr with dom := [] }
    cfg := { State.reset.cfg with flash := s.cfg.flash }
    nib := { State.reset.nib with field := s.nib.field, cmp := s.nib.cmp }
    mem := { noMem with epoch := s.mem.epoch + 1 }
    bist := { noBist with repairs := s.bist.repairs }
    mon := { noMon with pwh := s.mon.pwh, key := s.mon.key }
    tap := s.tap }

/-- The device has halted on this very edge of the oscillator, E0 (R558). -/
def haltNow (s : State) : Bool :=
  s.phase == .halt && s.regN R.IRQ_HALT_TS_LO + 2 ^ 32 * s.regN R.IRQ_HALT_TS_HI == s.root.ts

/-- A full reset asserts (R570, Table 19.3); `causes` are the bits of its sources in RST_CAUSE (Table 3.1). Nibs go to
high-impedance, HALT falls, commits and HSP transactions end, every register takes its reset value but the kept
ones, every domain is on (R53), every other part of the state is lost. A self-test pass in progress is discarded. No
record is written of a halt registered on the same oscillator edge (R571). -/
def fullReset (s : State) (causes : Nat) : State :=
  let t := keepOutside s
  let u := { t with
    regs := (if haltNow s then clearHaltRecord s else s).regs.filter (fun e => keptReg e.1)
    pwr := { t.pwr with causeNew := t.pwr.causeNew ||| causes } }
  if u.getF R.BIST_STAT F.BIST_STAT_STATE = 1 then u.setF R.BIST_STAT F.BIST_STAT_STATE 0 else u

end Sys2Proof.Machine
end

