-- ==== Sys2Proof/Machine/Power.lean ====
section
/-! DEFINITION. Supplies, RST_N and the start of a reset (R32 to R39, R62 to R64). -/

namespace Sys2Proof.Machine

/-- Every rail is good (R35, R36). -/
def allGood (s : State) : Bool := s.pwr.good == 0x1FFF

/-- The rails that must be good before rail `r` rises (R33). -/
def railNeeds (r : Nat) : Nat := if r = 0 then 0 else if r = 1 then 0x1 else if r = 2 then 0x3 else 0x7

/-- A breach lasts until every rail is good or every rail is below its good threshold (R37). -/
def settleBreach (p : Pwr) : Pwr := { p with breach := p.breach && p.good != 0x1FFF && p.good != 0 }

/-- POWER_ON (R39): VAON falls below its good threshold. Everything a power-on clears is cleared (Table 19.3), and
the device is held in reset. VAON falling before another rail breaks R34 (R37). -/
def execPowerOn (s : State) : Out :=
  let t := keepOutside s
  let g := s.pwr.good - s.pwr.good % 2
  .next { t with
    root := State.reset.root
    bist := noBist
    tap := State.reset.tap
    pwr := settleBreach { t.pwr with
      good := g, armed := 0, breach := s.pwr.breach || g != 0, causeNew := 1, causeRead := 0 } }

/-- RAIL_LOSS (R38): a rail other than VAON that has been good falls below its loss level. The rail is recorded in
PWR.RAIL_LOSS, which a full reset keeps, and a full reset asserts. It also ends any PWR commit (R58). -/
def execRailLoss (r : Fin 13) (s : State) : Out :=
  let g := if bitOf s.pwr.good r then s.pwr.good - 2 ^ r.val else s.pwr.good
  let s1 := s.setN R.PWR_RAIL_LOSS (Nat.lor (s.regN R.PWR_RAIL_LOSS) (2 ^ r.val))
  let s2 := { s1 with pwr := settleBreach { s1.pwr with good := g, armed := s1.pwr.armed - 2 ^ r.val } }
  whenCan s (bitOf s.pwr.armed r && r.val != 0) (fullReset s2 4)

/-- RST_N_ASSERT (R62): RST_N is held low long enough, which asserts a full reset. -/
def execRstNAssert (s : State) : Out :=
  whenCan s s.pwr.rstN
    (let t := fullReset s 2
     { t with pwr := { t.pwr with rstN := false } })

/-- Bytes programmed into the flash from outside (R258). -/
def programFlash (m : Tab Byte) : List (Nat × List Byte) → Tab Byte
  | [] => m
  | (a, bs) :: l => programFlash (tabSetRun (fun _ => 0xFF#8) m a bs) l

/-- RST_N_RELEASE (R36, R554): RST_N rises; what the integrator programmed into the flash while RST_N was low stands; the
test access port goes back to IDCODE. -/
def execRstNRelease (prog : List (Nat × List Byte)) (s : State) : Out :=
  whenCan s (!s.pwr.rstN) { s with
    pwr := { s.pwr with rstN := true }
    tap := { s.tap with ir := Config.irIdcode }
    cfg := { s.cfg with flash := programFlash s.cfg.flash prog } }

end Sys2Proof.Machine
end

