-- ==== Sys2Proof/Machine/Nibs.lean ====
section
/-! DEFINITION. Nibs: pads, input and output registers, pass-through, and cutover groups (06_nibs_cutover.md). -/

namespace Sys2Proof.Machine

/-! ### One nib, by its global number -/

def nibCfg (s : State) (n : Nat) (f : Fld) : Nat := s.getF (R.NIB_NIB_CFG (n / 48) (n % 48)) f
def nibDecl (s : State) (n : Nat) (f : Fld) : Nat := s.getF (R.NIB_NIB_DECL (n / 48) (n % 48)) f
def nibRole (s : State) (n : Nat) : Nat := nibDecl s n F.NIB_NIB_DECL_ROLE
def isOutput (s : State) (n : Nat) : Bool := nibRole s n == 2
def nibIn (s : State) (n : Nat) : Bool := tabGet (fun _ => false) s.nib.inReg n
def nibSrc (s : State) (n : Nat) : Nat := tabGet (fun _ => 2) s.nib.src n
def nibOutD (s : State) (n : Nat) : Bool := tabGet (fun _ => false) s.nib.outD n
def nibOutE (s : State) (n : Nat) : Bool := tabGet (fun _ => false) s.nib.outE n

/-- The paired nib (R9, R608). -/
def nibPair (s : State) (n : Nat) : Option Nat :=
  let p := nibDecl s n F.NIB_NIB_DECL_PAIR
  if p < 48 then some (n / 48 * 48 + p) else none

/-- The generator of bank `k` (Table 5.2). -/
def bankGen (k : Nat) : Nat := 48 + k

/-- The bank's clock gives edges (R175). -/
def bankRuns (s : State) (k : Nat) : Bool := genRuns s (bankGen k)

def bankArmed (s : State) (k : Nat) : Bool := s.flag (R.NIB_BANK_STAT k) F.NIB_BANK_STAT_ARMED

/-- The image has given the fabric its design, and the device works it: in Kiln and in Run (R65). -/
def fabricLive (s : State) : Bool := s.phase == .kiln || s.phase == .run

/-- The design in island `x` works: the fabric does, and the island is powered and clocked (R65, R176). -/
def designRuns (s : State) (x : Nat) : Bool := fabricLive s && domOn s x && genRuns s x

/-! ### Nib ports -/

/-- A fence is in effect (Table 7.4). -/
def fenced (s : State) (x : Nat) : Bool := s.flag (R.FI_FENCE x) F.FI_FENCE_FENCE

/-- What nib port `j` of island `x` presents: the hold values while the island is fenced, which includes the whole time that
its domain is off, else the design's (R230). -/
def portOut (s : State) (x j : Nat) : Bool × Bool :=
  if fenced s x || !domOn s x then (s.mapBit (R.FI_HOLD_D0 x) 4 j, s.mapBit (R.FI_HOLD_OE0 x) 4 j)
  else (bitOf (tabGet (fun _ => 0) s.fab.port (64 * x + j)) 0, bitOf (tabGet (fun _ => 0) s.fab.port (64 * x + j)) 1)

/-- The nib a port is bound to (R228). -/
def portNib (s : State) (x j : Nat) : Option Nat :=
  let n := s.getF (R.FI_NPORT x j) F.FI_NPORT_NIB
  if n < 336 then some n else none

/-- Island and port number of an NPORT register's address. -/
def nportOf (a : Nat) : Option (Nat × Nat) :=
  if 0x100000 ≤ a ∧ a < 0x130000 ∧ 0x100 ≤ a % 0x1000 ∧ a % 0x1000 < 0x200 then
    some ((a - 0x100000) / 0x1000, (a % 0x1000 - 0x100) / 4) else none

/-- The port that an output nib is bound to (R228: at most one in the whole fabric). -/
def boundPort (s : State) (n : Nat) : Option (Nat × Nat) :=
  match firstWhere (fun e => (nportOf e.1).isSome && e.2.toNat % 512 == n) s.regs with
  | some e => nportOf e.1
  | none => none

/-! ### Pads -/

/-- What a pad shows: whether the supplies guarantee it (R37), the level it is driven to if it is driven, the compliance
voltage in mV of the survey stimulus that it carries, and whether its weak pull-down is connected. -/
structure Pad where
  sure : Bool
  drive : Option Bool
  stim : Option Nat
  pull : Bool
  deriving DecidableEq, Repr

/-- The driver of a mode given data and output enable (R190, R199): 0 push-pull, 1 open-drain, 2 open-source. -/
def driverLevel (mode : Nat) (d e : Bool) : Option Bool :=
  if !e then none
  else if mode = 1 && d then none
  else if mode = 2 && !d then none
  else some d

/-- Halt state of a nib as data and output enable (R197, R198): high-impedance, low, high, hold. -/
def haltValue (s : State) (n : Nat) : Bool × Bool :=
  match nibDecl s n F.NIB_NIB_DECL_HALT with
  | 1 => (false, true)
  | 2 => (true, true)
  | 3 => (nibOutD s n, nibOutE s n)
  | _ => (false, false)

/-- Data and output enable at the driver (R22, R193, R561, R185). -/
def driverIn (s : State) (n : Nat) : Bool × Bool :=
  if nibRole s n = 0 then (false, false)
  else if s.phase = .halt then (if s.nib.latched then haltValue s n else (false, false))
  else if isOutput s n && bankArmed s (n / 48) then (nibOutD s n, nibOutE s n)
  else (false, false)

/-- Instructions of the test access port (R551). -/
inductive TapIns where
  | bypass | idcode | sample | extest | clamp | highz
  deriving DecidableEq, Repr

/-- The instruction of a code; every code but the five acts as BYPASS (R551). -/
def tapIns (ir : Nat) : TapIns :=
  if ir = Config.irExtest then .extest else if ir = Config.irIdcode then .idcode else if ir = Config.irSample then .sample
  else if ir = Config.irClamp then .clamp else if ir = Config.irHighz then .highz else .bypass

/-- What boundary scan makes of a pad with cell `c` that the device else drives to `d`: while RST_N is held low EXTEST and
CLAMP drive it from its boundary cell and HIGHZ leaves it undriven; at any other time they act as BYPASS (R554). -/
def tapDrive (s : State) (c : Nat) (d : Option Bool) : Option Bool :=
  if s.pwr.rstN then d
  else match tapIns s.tap.ir with
    | .extest => some (atD false s.tap.bsr c)
    | .clamp => some (atD false s.tap.bsr c)
    | .highz => none
    | .bypass => d
    | .idcode => d
    | .sample => d

/-- Voltage declared for a bank in mV (Table 8.1). -/
def bankMv (s : State) (k : Nat) : Nat :=
  match s.getF (R.NIB_BANK_STAT k) F.NIB_BANK_STAT_VCCIO with
  | 0 => 1800
  | 1 => 2500
  | _ => 3300

/-- The compliance code of nib `n` while it is under survey, from the first run or shot of its load or cable survey to the
result (R16, R67, R68). -/
def surveyCode (s : State) (n : Nat) : Option Nat :=
  if s.phase = .steep then (firstWhere (fun e => e.1 == n) s.surv.under).map (·.2) else none

def underSurvey (s : State) (n : Nat) : Bool := (surveyCode s n).isSome

/-- The pad of nib `n` (R16, R22, R24, R34, R37, R67, R68, R192, R554): undriven while any rail is low; the stimulus while
the nib is under survey; the pull-down connected while VAON, VCCINT and the bank's VCCIO are good, but during the nib's own
survey, and as PD_EN selects once the bank is armed. DESIGN CHOICE (log entry 36): PD_EN governs an armed bank also while a
rail is below good without a rail loss. -/
def padOf (s : State) (n : Nat) : Pad :=
  let k := n / 48
  let supplied := bitOf s.pwr.good 0 && bitOf s.pwr.good 1 && bitOf s.pwr.good (3 + k)
  let v := driverIn s n
  { sure := !s.pwr.breach
    drive := if allGood s then tapDrive s n (driverLevel (nibCfg s n F.NIB_NIB_CFG_MODE) v.1 v.2) else none
    stim := if allGood s then (surveyCode s n).map (fun c => (c * bankMv s k + 15) / 16) else none
    pull := supplied && (if nibRole s n = 0 || !bankArmed s k then !underSurvey s n
      else nibCfg s n F.NIB_NIB_CFG_PD_EN == 1) }

/-! ### Comparators -/

/-- What the field drives the conductor of nib `n` to, in mV. -/
def fieldMv (s : State) (n : Nat) : Option Int := tabGet (fun _ => none) s.nib.field n

/-- Highest low level and greatest drop of a high level below VCCIO, in mV, by the declared VCCIO (Table 20.3). -/
def outMv (vio : Nat) : Nat × Nat := (if vio = 1800 then 450 else 400, if vio = 3300 then 400 else 450)

/-- The lowest and the highest voltage in mV that the pad may have (R16, R67, R580, R582, R609, Table 20.3): the nib's
driver within its output levels, the field's voltage, a survey stimulus up to 30 mV above its compliance voltage or whatever
the field holds, or the pull-down alone; none where the device does not determine it, both sides driving or neither with
the pull-down disconnected. -/
def padMv (s : State) (n : Nat) : Option (Int × Int) :=
  let p := padOf s n
  let vio := bankMv s (n / 48)
  match p.drive, fieldMv s n with
  | some _, some _ => none
  | some true, none => some ((vio : Int) - (outMv vio).2, vio)
  | some false, none => some (0, (outMv vio).1)
  | none, f =>
    match p.stim, f with
    | some c, f => some (f.getD 0, max (f.getD 0) (c + 30))
    | none, some v => some (v, v)
    | none, none => if p.pull then some (0, 0) else none

/-- Hysteresis code in mV (Table 6.4). -/
def hystMv (code : Nat) : Nat :=
  match code with
  | 0 => 0
  | 1 => 25
  | 2 => 50
  | _ => 100

/-- The comparator's output at a pad voltage of `mv`, all in units of 1/102,400 mV (R186, R187, R581). A high comparator
goes low below the threshold less half the hysteresis, a low one goes high above the threshold plus half of it. Around
each switching level lies a band of 1 % of VCCIO, 10 mV and 30 % of the half hysteresis, in which it may take either
level: `either`. -/
def compareMv (thr vccio hyst : Nat) (mv : Int) (now either : Bool) : Bool :=
  let v : Int := mv * 102400
  let half : Int := (hyst : Int) * 51200
  let level : Int := (thr : Int) * vccio * 100 + (if now then -half else half)
  let band : Int := (vccio : Int) * 1024 + 1024000 + (hyst : Int) * 15360
  if v > level + band then true else if v < level - band then false else either

/-- The nibs of bank `k`. -/
def bankNibs (k : Nat) : List Nat := (List.range 48).map (fun j => 48 * k + j)

/-- Bank `k` carries injected current, so its comparator thresholds are not guaranteed (R577): the field drives a pad of it
beyond the range that R31 gives, below 0 V or above VCCIO + 0.3 V. DEDUCED (log entry 37). -/
def bankInjected (s : State) (k : Nat) : Bool :=
  (bankNibs k).any (fun n => (fieldMv s n).any (fun v => decide (v < 0) || decide ((bankMv s k : Int) + 300 < v)))

/-- The comparator of nib `n` (R186 to R188, R577, R609): `either` where the device does not determine its level. -/
def compareAt (s : State) (n : Nat) (either : Bool) : Bool :=
  if bankInjected s (n / 48) then either
  else match padMv s n with
  | none => either
  | some (lo, hi) =>
    let at_ := fun v e => compareMv (nibCfg s n F.NIB_NIB_CFG_THR) (bankMv s (n / 48)) (hystMv (nibCfg s n F.NIB_NIB_CFG_HYST)) v
      (tabGet (fun _ => false) s.nib.cmp n) e
    at_ lo false || (either && at_ hi true)

def setCmp (s : State) (n : Nat) (v : Bool) : State :=
  { s with nib := { s.nib with cmp := tabSet (fun _ => false) s.nib.cmp n v } }

/-- The comparator takes up its pad; where the device does not determine the level, a free value (log entry 2). -/
def senseNib (s : State) (n : Nat) : State :=
  if compareAt s n true = compareAt s n false then setCmp s n (compareAt s n true)
  else
    let (v, t) := s.free 2
    setCmp t n (v == 1)

/-! ### Crossings from ports to output registers -/

/-- A port reaches the output register directly: its island is adjacent to the nib's bank and on one clock with it (R169,
R222, R229). -/
def directPort (s : State) (x n : Nat) : Bool := islandBank x == n / 48 && oneClock s x (bankGen (n / 48))

def portCode (v : Bool × Bool) : Nat := b2n v.1 + 2 * b2n v.2

/-- What has crossed from a port into its bank's clock, and the changes that have been launched and not taken (R226,
R229). -/
def crossed (s : State) (x j : Nat) : Nat := tabGet (fun _ => 0) s.fab.crossed (64 * x + j)
def crossWait (s : State) (x j : Nat) : List Nat := tabGet (fun _ => []) s.fab.crossQ (64 * x + j)
def setCrossed (s : State) (x j v : Nat) : State :=
  { s with fab := { s.fab with crossed := tabSet (fun _ => 0) s.fab.crossed (64 * x + j) v } }
def setCrossWait (s : State) (x j : Nat) (q : List Nat) : State :=
  { s with fab := { s.fab with crossQ := tabSet (fun _ => []) s.fab.crossQ (64 * x + j) q } }

/-- Data and output enable that the fabric gives an output nib, directly or through a crossing; 0 and 0 when it is bound to
no port (R228, R229). -/
def fabricValue (s : State) (n : Nat) : Bool × Bool :=
  match boundPort s n with
  | some (x, j) => if directPort s x n then portOut s x j else (bitOf (crossed s x j) 0, bitOf (crossed s x j) 1)
  | none => (false, false)

/-! ### Output registers -/

def setOut (s : State) (n : Nat) (d e : Bool) : State :=
  { s with nib := { s.nib with
    outD := tabSet (fun _ => false) s.nib.outD n d
    outE := tabSet (fun _ => false) s.nib.outE n e } }

/-- The output register loads from the nib's source (R193, R195, R196). -/
def loadOut (s : State) (n : Nat) : State :=
  match nibSrc s n with
  | 0 => match nibPair s n with
    | some i => setOut s n (nibIn s i) true
    | none => setOut s n false false
  | 1 => setOut s n (fabricValue s n).1 (fabricValue s n).2
  | _ => setOut s n (nibOutD s n) false


/-- A receive line stands at `v`; once it is high the port hunts for the next falling edge (R483, R507). -/
def setRxLine (s : State) (i : Nat) (v : Bool) : State :=
  let s1 := s.setF (R.UART_STAT i) F.UART_STAT_LINE (b2n v)
  let u := tabGet (fun _ => noUart) s.uart.port i
  if v && u.low then { s1 with uart := { s1.uart with port := tabSet (fun _ => noUart) s1.uart.port i { u with low := false } } }
  else s1

/-- The receive lines of UART1 to UART7 that read nib `n` follow its input register while their clock runs (R478). -/
def lineFollows (s : State) (n : Nat) : State :=
  (List.range 7).foldl (fun t i =>
    if t.getF (R.UART_MAP (i + 1)) F.UART_MAP_RX_NIB = n ∧ domOn t 60 = true ∧ genRuns t 63 = true then
      setRxLine t (i + 1) (nibIn t n) else t) s

/-- The receive lines of UART1 to UART7 take up their nibs: MAP has been set, or their clock runs again (R478). -/
def refreshLines (s : State) : State :=
  (List.range 7).foldl (fun t i =>
    let n := t.getF (R.UART_MAP (i + 1)) F.UART_MAP_RX_NIB
    if n < 336 ∧ domOn t 60 = true ∧ genRuns t 63 = true then setRxLine t (i + 1) (nibIn t n) else t) s

/-- The input register takes the comparator's output (R188). -/
def takeInput (s : State) (n : Nat) : State :=
  lineFollows { s with nib := { s.nib with
    inReg := tabSet (fun _ => false) s.nib.inReg n (tabGet (fun _ => false) s.nib.cmp n) } } n

/-- A nib reads back its own pad (R188): the comparator, and on a running bank clock the input register. -/
def readBack (s : State) (n : Nat) : State :=
  let t := senseNib s n
  if bankRuns t (n / 48) then takeInput t n else t

/-- The output register of nib `n` follows its source, and its pad is read back: only in an armed bank whose clock runs
(R15, R175, R188). -/
def driveOut (s : State) (n : Nat) : State :=
  if isOutput s n && bankArmed s (n / 48) && bankRuns s (n / 48) then readBack (loadOut s n) n else s

/-- An output nib with source FABRIC follows its port. -/
def followPort (s : State) (n : Nat) : State := if nibSrc s n = 1 then driveOut s n else s

/-- The bank's clock takes the changes of port `j` of island `x` that wait, in order; a change that found four of them
waiting follows last (R179, R226, R229). -/
def takeCrossing (s : State) (x j n : Nat) : State :=
  (crossWait s x j ++ [portCode (portOut s x j)]).foldl (fun t v => followPort (setCrossed t x j v) n) (setCrossWait s x j [])

/-- Port `j` of island `x` presents what `portOut` gives now (R195, R229). A crossing into a gated bank keeps up to four
changes. -/
def presentPort (s : State) (x j : Nat) : State :=
  match portNib s x j with
  | none => s
  | some n =>
    if directPort s x n then followPort (setCrossed s x j (portCode (portOut s x j))) n
    else if bankRuns s (n / 48) then takeCrossing s x j n
    else if (crossWait s x j).length < 4 then setCrossWait s x j (crossWait s x j ++ [portCode (portOut s x j)])
    else s

/-- The input register samples the comparator (R188); a pass-through output paired with it follows (R196). -/
def sampleNib (s : State) (n : Nat) : State :=
  let s1 := takeInput s n
  match nibPair s1 n with
  | some o => if nibSrc s1 o = 0 then driveOut s1 o else s1
  | none => s1

/-- The output register of nib `n` when its bank's clock runs again. -/
def resumeOut (s : State) (n : Nat) : State :=
  match boundPort s n with
  | some (x, j) => if nibSrc s n = 1 && !directPort s x n then takeCrossing s x j n else driveOut s n
  | none => driveOut s n

/-- Every comparator of bank `k` takes up its pad. -/
def senseBank (s : State) (k : Nat) : State := (bankNibs k).foldl senseNib s

/-- A bank's clock gives an edge after it had stopped: every register of the bank loads (R175, R179, R188). -/
def refreshBank (s : State) (k : Nat) : State :=
  (bankNibs k).foldl resumeOut ((bankNibs k).foldl sampleNib s)

/-- New settings of a bank are in effect: comparators and input registers take up the pads as they now are (R188, R216). -/
def resenseBank (s : State) (k : Nat) : State :=
  let t := senseBank s k
  if bankRuns t k then (bankNibs k).foldl sampleNib t else t

/-- The supplies have changed what the pads show; a start of Steep takes up those of a device in reset. -/
def resensePads (s : State) : State := if s.phase = .reset then s else (List.range 7).foldl resenseBank s

/-- RAIL_GOOD (R35 to R38): rail `r` rises above its good threshold. A rail that rises out of the order of R33 or of
the ramp limits of R32 is a breach. When a breach ends with every rail good, the device is held in reset and starts anew
(R37); no source of Table 3.1 is recorded for it (log entry 22). A rail is watched for loss from the moment it is good
with VAON good. The pads are as the rails now leave them, and every nib reads its own (R34, R188). -/
def execRailGood (r : Fin 13) (inLimits : Bool) (s : State) : Out :=
  let before := s.pwr.good
  let g := if bitOf before r then before else before + 2 ^ r.val
  let ordered := Nat.land before (railNeeds r) == railNeeds r
  let armed := if r.val = 0 then g else if bitOf g 0 then Nat.lor s.pwr.armed (2 ^ r.val) else s.pwr.armed
  let breach := s.pwr.breach || !inLimits || !ordered
  let t := { s with pwr := settleBreach { s.pwr with good := g, armed := armed, breach := breach } }
  whenCan s (!bitOf before r) (if breach && g == 0x1FFF && s.phase != .reset then fullReset t 0 else resensePads t)

/-- RAIL_BELOW_GOOD (R37): a rail other than VAON falls below its good threshold; every nib output is held
high-impedance while it is (R34), and every nib reads its pad as it now is (R188). -/
def execRailBelowGood (r : Fin 13) (inLimits : Bool) (s : State) : Out :=
  whenCan s (bitOf s.pwr.good r && r.val != 0) (resensePads { s with
    pwr := settleBreach { s.pwr with good := s.pwr.good - 2 ^ r.val, breach := s.pwr.breach || !inLimits } })

/-- PAD_LEVEL_CHANGE (R186 to R188, R196, R577, R609): the field drives the conductor of nib `n` to `mv` millivolts, or no longer
drives it. The comparator takes up the pad, `either` where the device does not determine its level; where injected current
comes to the bank or leaves it, its other comparators take up theirs. On a running bank
clock the input register takes it, and two edges after the change the paired output of a pass-through pair carries it
(R11). DESIGN CHOICE: every change is sampled; the specification lets a pulse shorter than one period be lost (R12, log
entry 24). -/
def execPadLevelChange (n : Fin 336) (mv : Option Int) (either : Bool) (s : State) : Out :=
  let k := n.val / 48
  let s1 := { s with nib := { s.nib with field := tabSet (fun _ => none) s.nib.field n mv } }
  let same := bankInjected s k == bankInjected s1 k
  let s2 := setCmp (if same then s1 else senseBank s1 k) n (compareAt s1 n either)
  .next (if s.phase != .reset && bankRuns s k then (if same then sampleNib s2 n else (bankNibs k).foldl sampleNib s2) else s2)

/-- NIB_PORT_CHANGE (R195, R229): the design drives data `d` and output enable `e` on port `j` of island `x`. A design
drives only while its island is loaded and running. -/
def execNibPortChange (x : Fin 48) (j : Fin 64) (d e : Bool) (s : State) : Out :=
  let s1 := { s with fab := { s.fab with
    port := tabSet (fun _ => 0) s.fab.port (64 * x.val + j.val) (b2n d + 2 * b2n e) } }
  whenCan s (designRuns s x && !fenced s x) (presentPort s1 x j)

/-- NIBn_STAT.SRC (Table 6.4): HALT during a halt once the halt states are latched. -/
def srcCode (s : State) (n : Nat) : Nat :=
  if s.phase = .halt && s.nib.latched && nibRole s n != 0 then 3 else nibSrc s n

/-- NIBn_STAT as it reads. -/
def nibStatWord (s : State) (n : Nat) : Nat :=
  srcCode s n + 16 * b2n (nibIn s n) + 32 * b2n ((padOf s n).drive.isSome)

/-- A map of a bank's nibs `32w .. ` that satisfy `p`. -/
def bankMap (k w : Nat) (p : Nat → Bool) : Nat :=
  ((List.range (if w = 0 then 32 else 16)).filter (fun i => p (48 * k + 32 * w + i))).foldl (fun n i => n + 2 ^ i) 0

/-! ### Cutover groups -/

/-- Nib of a NIBn_GRP register's address. -/
def grpNib (a : Nat) : Option Nat :=
  if 0x8000 ≤ a ∧ a < 0xF000 ∧ 0x100 ≤ a % 0x1000 ∧ a % 0x1000 < 0x400 ∧ a % 16 = 4 then
    some (48 * ((a - 0x8000) / 0x1000) + (a % 0x1000 - 0x100) / 16) else none

/-- The members of group `g`, ascending (R201). A nib in no group holds the reset value 0x3F. -/
def members (s : State) (g : Nat) : List Nat :=
  s.regs.filterMap (fun e => if e.2.toNat % 64 = g then grpNib e.1 else none)

def groupState (s : State) (g : Nat) : Nat := s.getF (R.CUT_GRP_STAT g) F.CUT_GRP_STAT_STATE

/-- WAITING or SWITCHING. -/
def groupActive (s : State) (g : Nat) : Bool := groupState s g == 1 || groupState s g == 2

/-- CUT.ACTIVE (Table 6.6). -/
def cutActiveWord (s : State) : Nat :=
  ((List.range 32).filter (groupActive s)).foldl (fun n g => n + 2 ^ g) 0

/-- GRPg_STAT as it reads: NIBS and BANKS report the membership in effect. -/
def grpStatWord (s : State) (g : Nat) : Nat :=
  let m := members s g
  let banks := ((List.range 7).filter (fun k => m.any (fun n => n / 48 == k))).foldl (fun n k => n + 2 ^ k) 0
  s.regN (R.CUT_GRP_STAT g) % 0x10000 + 0x10000 * m.length + 0x2000000 * banks

/-- Tracing holds a standing divergence for a member (Table 6.1 order 7, R357, R358). -/
def groupDiverged (s : State) (g : Nat) : Bool := (members s g).any (fun n => s.mapBit (R.TRC_STAND 0) 4 n)

/-- The banks of the members are on one clock (R202). -/
def groupOneClock (s : State) (m : List Nat) : Bool :=
  match m with
  | [] => true
  | n :: l => l.all (fun i => oneClock s (bankGen (n / 48)) (bankGen (i / 48)))

/-- The checks of Table 6.1 in their order: the code of the first that holds. -/
def cutRefusal (s : State) (p : Option Path) (w : Word) : Option Nat :=
  let g := bitsOf w.toNat 0 5
  let m := members s g
  let force := bitOf w.toNat 10
  if s.phase ≠ .run then some 0x07
  else if groupActive s g then some 0x01
  else if m.isEmpty then some 0x02
  else if !groupOneClock s m then some 0x03
  else if !bitOf w.toNat 8 && m.any (fun n => (nibPair s n).isNone) then some 0x06
  else if force && p == some .fab then some 0x05
  else if !force && groupDiverged s g then some 0x04
  else none

/-- Set STATE and RESULT of a group. -/
def setGroup (s : State) (g st res : Nat) : State :=
  let s1 := (s.setF (R.CUT_GRP_STAT g) F.CUT_GRP_STAT_STATE st).setF (R.CUT_GRP_STAT g) F.CUT_GRP_STAT_RESULT res
  if st = 1 then s1 else { s1 with nib := { s1.nib with evt := s1.nib.evt.filter (· != g) } }

/-- Fewer than `r` edges of generator `g` came in the `k` oscillator cycles from timestamp `t` on. -/
def fewEdges (s : State) (g t : Nat) : Nat → Nat → Bool
  | 0, r => decide (0 < r)
  | k + 1, r =>
    let e := genEdges s g ((t + k) % 2 ^ 48)
    decide (e < r) && fewEdges s g t k (r - e)

/-- A pulse of the line that group `g` selects has not yet crossed into the group's bank clock, which takes it three or four
edges (R208). -/
def pulseUnderWay (s : State) (g : Nat) : Bool :=
  let line := 4 * s.getF (R.CUT_GRP_WAIT g) F.CUT_GRP_WAIT_CTX + s.getF (R.CUT_GRP_WAIT g) F.CUT_GRP_WAIT_LINE
  match tabGet (fun _ => none) s.quill.pulsed line, members s g with
  | some t, n :: _ => fewEdges s (48 + n / 48) t ((s.root.ts + 2 ^ 48 - t) % 2 ^ 48) 4
  | _, _ => false

/-- An accepted request makes group `g` WAITING (Table 6.2); it also takes a pulse that is still under way (R206, R208). -/
def startWaiting (s : State) (g : Nat) : State :=
  let s1 := setGroup s g 1 0
  if pulseUnderWay s g then { s1 with nib := { s1.nib with evt := s1.nib.evt.filter (· != g) ++ [g] } } else s1

/-- The block's answer to a write of CUT.CMD (R201 to R205, R220, Table 6.7). -/
def cutCmd (s : State) (p : Option Path) (w : Word) : WOut :=
  let g := bitsOf w.toNat 0 5
  if !bitOf w.toNat 31 then .done s
  else if bitOf w.toNat 11 then
    if s.phase ≠ .run then .refuse 0x07
    else if groupState s g = 1 then .done ((setGroup s g 0 4).irqBit 0x010 3)
    else .done s
  else match cutRefusal s p w with
    | some c => .refuse c
    | none =>
      let s1 := (s.setF (R.CUT_GRP_STAT g) F.CUT_GRP_STAT_TARGET (bitsOf w.toNat 8 1)).setF
        (R.CUT_GRP_STAT g) F.CUT_GRP_STAT_FORCED (bitsOf w.toNat 10 1)
      .done (if bitOf w.toNat 9 then startWaiting s1 g else setGroup s1 g 2 0)

/-- A Quill pulse on line `l` of context `c` sets out towards every group that selects it: a WAITING one, or one that becomes
WAITING before it arrives (R206, R208). -/
def quietPulse (s : State) (c l : Nat) : State :=
  let hit := (List.range 32).filter (fun g => groupState s g == 1 &&
    s.getF (R.CUT_GRP_WAIT g) F.CUT_GRP_WAIT_CTX == c && s.getF (R.CUT_GRP_WAIT g) F.CUT_GRP_WAIT_LINE == l &&
    !s.nib.evt.contains g)
  { s with
    nib := { s.nib with evt := s.nib.evt ++ hit }
    quill := { s.quill with pulsed := tabSet (fun _ => none) s.quill.pulsed (4 * c + l) (some s.root.ts) } }

def groupGated (s : State) (g : Nat) : Bool := (members s g).any (fun n => !bankRuns s (n / 48))

/-- The quiet-point event under way reaches group `g` (Table 6.2, R219, R358). -/
def quietPoint (s : State) (g : Nat) : State :=
  let s1 := { s with nib := { s.nib with evt := s.nib.evt.filter (· != g) } }
  if groupGated s g then s1
  else if groupDiverged s g && !s.flag (R.CUT_GRP_STAT g) F.CUT_GRP_STAT_FORCED then (setGroup s1 g 0 3).irqBit 0x010 2
  else setGroup s1 g 2 0

/-- QUIET_POINT_EVENT (R206, R208, R218, R219, R358, Table 6.2). -/
def execQuietPointEvent (g : Fin 32) (s : State) : Out :=
  whenCan s (s.phase == .run && groupState s g == 1 && s.nib.evt.contains g.val) (quietPoint s g)

/-- CUTOVER_TIMEOUT (R207, R218); `same`: the quiet-point event under way reaches the group in the same bank-clock cycle, and
governs. -/
def execCutoverTimeout (g : Fin 32) (same : Bool) (s : State) : Out :=
  whenCan s (s.phase == .run && groupState s g == 1)
    (if same && s.nib.evt.contains g.val && !groupGated s g then quietPoint s g else (setGroup s g 0 2).irqBit 0x010 1)

/-- A member nib changes source on the switching edge (R210 to R213). -/
def switchNib (target : Nat) (s : State) (n : Nat) : State :=
  if nibSrc s n = target then s
  else readBack (loadOut { s with nib := { s.nib with src := tabSet (fun _ => 2) s.nib.src n target } } n) n

/-- CUTOVER_SWITCH (R208 to R214): on the switching edge every member changes to the target and loads from it; the
capture timestamp is recorded to within three cycles (a free value), or zero when CAPF is off (R214). -/
def execCutoverSwitch (g : Fin 32) (s : State) : Out :=
  let target := s.getF (R.CUT_GRP_STAT g) F.CUT_GRP_STAT_TARGET
  let s1 := (members s g).foldl (switchNib target) s
  let s2 := (setGroup s1 g 0 1).irqBit 0x010 0
  let (e, s3) := if domOn s 48 then s2.free 7 else (0, s2)
  let t := if domOn s 48 then (s.cap.ts + e + (2 ^ 48 - 3)) % 2 ^ 48 else 0
  whenCan s (s.phase == .run && groupState s g == 2 && !groupGated s g)
    (s3.set48 (R.CUT_GRP_SW_TS_LO g) (R.CUT_GRP_SW_TS_HI g) t)

/-- Bank `k` holds an output nib (R83). -/
def bankHasOutput (s : State) (k : Nat) : Bool := (bankNibs k).any (isOutput s)

end Sys2Proof.Machine
end

