-- ==== Sys2Proof/Machine/Clocks.lean ====
section
/-! DEFINITION. References, PLLs, synchronisation and island clock generators (05_clocks_islands.md). -/

namespace Sys2Proof.Machine

/-! ### References and PLL status -/

def pllSt (s : State) (p : Nat) : Nat := s.getF (R.CLK_PLL_STAT p) F.CLK_PLL_STAT_STATE
def pllCur (s : State) (p : Nat) : Nat := s.getF (R.CLK_PLL_STAT p) F.CLK_PLL_STAT_CUR
def pllX (s : State) (p : Nat) : Pll := tabGet (fun _ => noPll) s.clk.pll p
def setPllX (s : State) (p : Nat) (x : Pll) : State :=
  { s with clk := { s.clk with pll := tabSet (fun _ => noPll) s.clk.pll p x } }
def setPllF (s : State) (p : Nat) (f : Fld) (v : Nat) : State := s.setF (R.CLK_PLL_STAT p) f v

/-- Reference `k` is qualified; 4 is the oscillator, always qualified (R149, R150). -/
def refQual (s : State) (k : Nat) : Bool := if k < 4 then s.flag (R.CLK_REF_STAT k) F.CLK_REF_STAT_QUAL else true

/-- Priority of reference `k` for PLL `p`; 0 not eligible (R157). -/
def refPri (s : State) (p k : Nat) : Nat := bitsOf (s.regN (R.CLK_PLL_REFSEL p)) (4 * k) 3
def pllMode (s : State) (p : Nat) : Nat := s.getF (R.CLK_PLL_REFSEL p) F.CLK_PLL_REFSEL_MODE
def pllManual (s : State) (p : Nat) : Nat := s.getF (R.CLK_PLL_REFSEL p) F.CLK_PLL_REFSEL_MANUAL

/-- Eligible: non-zero priority and, in manual mode, the one named (R157, R162). -/
def eligible (s : State) (p k : Nat) : Bool := refPri s p k != 0 && (pllMode s p != 2 || pllManual s p == k)

/-- The better of two candidates: lower priority number first, then the lower reference number (R157). -/
def pickRef (s : State) (p : Nat) (best : Option Nat) (k : Nat) : Option Nat :=
  if eligible s p k && refQual s k then
    match best with
    | none => some k
    | some b => if refPri s p k < refPri s p b then some k else some b
  else best

/-- The best qualified eligible reference (R157). -/
def bestRef (s : State) (p : Nat) : Option Nat := [0, 1, 2, 3, 4].foldl (pickRef s p) none

/-- The PLL output gives edges: LOCKED, SWITCHING or HOLDOVER, and its divider non-zero. -/
def outDiv (s : State) (p q : Nat) : Nat := bitsOf (s.regN (R.CLK_PLL_OUTDIV p)) (8 * q) 7
def pllRuns (s : State) (p : Nat) : Bool := decide (2 ≤ pllSt s p) && decide (pllSt s p ≤ 4)
def outRuns (s : State) (p q : Nat) : Bool := pllRuns s p && outDiv s p q != 0 && domOn s 63
def vcoMhz (s : State) (p : Nat) : Nat := s.getF (R.CLK_PLL_VCOF p) F.CLK_PLL_VCOF_MHZ

/-! ### Generators -/

def genKind (s : State) (g : Nat) : Nat := s.getF (R.ISL_GEN_CFG g) F.ISL_GEN_CFG_SRC_KIND
def genCause (s : State) (g : Nat) : Nat := s.getF (R.ISL_GEN_STAT g) F.ISL_GEN_STAT_CAUSE

/-- Generator 58 runs at 400 MHz from PLL0.OUT0 (R77, R385). -/
def surveyPll (s : State) (g : Nat) : Bool := surveyOwns s g && s.surv.usePll &&
  s.getF (R.ISL_GEN_STAT g) F.ISL_GEN_STAT_MHZ != 50

/-- The primary source of a generator runs (R167, R172). -/
def primaryRuns (s : State) (g : Nat) : Bool :=
  if surveyOwns s g then (if surveyPll s g then outRuns s 0 0 else true)
  else match genKind s g with
  | 1 => true
  | 2 => outRuns s (s.getF (R.ISL_GEN_CFG g) F.ISL_GEN_CFG_SRC_PLL) (s.getF (R.ISL_GEN_CFG g) F.ISL_GEN_CFG_SRC_OUT)
  | _ => false

/-- The fallback source of a generator runs (R172). -/
def fallbackRuns (s : State) (g : Nat) : Bool :=
  match s.getF (R.ISL_GEN_FB g) F.ISL_GEN_FB_FB_KIND with
  | 1 => true
  | 2 => outRuns s (s.getF (R.ISL_GEN_FB g) F.ISL_GEN_FB_FB_PLL) (s.getF (R.ISL_GEN_FB g) F.ISL_GEN_FB_FB_OUT)
  | _ => false

/-- Nominal frequency of a source over a divisor, whole MHz rounded down (Table 5.8). -/
def mhzOf (s : State) (kind p q d : Nat) : Nat :=
  if kind = 1 then 50 / d else if kind = 2 then vcoMhz s p / (outDiv s p q * d) else 0

def primaryMhz (s : State) (g : Nat) : Nat :=
  let a := R.ISL_GEN_CFG g
  mhzOf s (genKind s g) (s.getF a F.ISL_GEN_CFG_SRC_PLL) (s.getF a F.ISL_GEN_CFG_SRC_OUT) (s.getF a F.ISL_GEN_CFG_D)

def fallbackMhz (s : State) (g : Nat) : Nat :=
  let a := R.ISL_GEN_FB g
  mhzOf s (s.getF a F.ISL_GEN_FB_FB_KIND) (s.getF a F.ISL_GEN_FB_FB_PLL) (s.getF a F.ISL_GEN_FB_FB_OUT)
    (s.getF a F.ISL_GEN_FB_FB_D)

/-- Generators that follow `g` (R168). -/
def followers (s : State) (g : Nat) : List Nat :=
  (List.range 66).filter (fun f => genKind s f == 3 && s.getF (R.ISL_GEN_CFG f) F.ISL_GEN_CFG_FOLLOW == g && f != g &&
    !surveyOwns s f)

/-- Write a generator's status. -/
def setGenStat (s : State) (g act cause mhz : Nat) : State :=
  s.setN (R.ISL_GEN_STAT g) (act + 16 * cause + 65536 * mhz)

def genMhz (s : State) (g : Nat) : Nat := s.getF (R.ISL_GEN_STAT g) F.ISL_GEN_STAT_MHZ

/-- Channels of the TDC's half `h`. -/
def tdcHalf (h : Nat) : List Nat := (List.range 16).map (16 * h + ·)

/-- The next entry of channel `c` carries the flags `f`: bit 0 GAP, 1 MISSED, 2 LOST (R374, R377, R387). -/
def tdcDue (f : Nat) (s : State) (c : Nat) : State :=
  { s with tdc := { s.tdc with
    due := tabSet (fun _ => 0) s.tdc.due c (Nat.lor (tabGet (fun _ => 0) s.tdc.due c) f)
    late := tabSet (fun _ => none) s.tdc.late c ((tabGet (fun _ => none) s.tdc.late c).map
      (fun o => { o with since := Nat.lor o.since f })) } }

/-- The last edges of TDC half `h`, and overflows that a read might still undo, are no longer held (R374, R390). -/
def tdcForget (s : State) (h : Nat) : State :=
  let mine (c : Nat) : Bool := c / 16 == h
  { s with tdc := { s.tdc with last := tabDrop mine s.tdc.last, late := tabDrop mine s.tdc.late } }

/-- A timebase break is counted on TDC page `i` and raises its interrupt (R387). -/
def countBreak (s : State) (i : Nat) : State :=
  (s.wrapF (R.TDC_TB_STAT i) F.TDC_TB_STAT_BREAKS 1).irqBit (0x050 + i) 16

/-- A timebase break of TDC half `h` (R387): counted on both of its pages; the next entries carry GAP. The generator cycle and
the period after the last edge are over: its timestamp is not comparable (R374, R390). -/
def tdcBreak (s : State) (h : Nat) : State :=
  ((tdcHalf h).filter (fun c => s.flag (R.TDC_CH_CFG c) F.TDC_CH_CFG_EN)).foldl (tdcDue 1)
    (tdcForget (countBreak (countBreak s (2 * h)) (2 * h + 1)) h)

/-- A suspended pair: its pending edges are discarded without a record (R365). -/
def suspendPair (p : TPair) : TPair :=
  { p with step := false, fresh := false, pl := [], pv := [] }

/-- The pairs that `f` picks are suspended (R365). -/
def suspendPairs (f : Nat → Bool) (s : State) : State :=
  let all := s.trc.pair.map (fun e => if f e.1 then (e.1, suspendPair e.2) else e)
  { s with trc := { s.trc with pair := all.filter (fun e => e.2 != noPair) } }

/-- What a gating, a pause or a change of source of generator `g` brings about in the units it clocks: a bank that runs
again samples and drives (R175) and one that stops suspends its traced pairs (R365), capture that resumes owes a GAP mark
(R313), the ports' counts stop and go on and their lines are taken up (R478, R512), a TDC timebase breaks (R387). -/
def genHook (s : State) (g : Nat) : State :=
  if 48 ≤ g ∧ g ≤ 54 then (if genRuns s g then refreshBank s (g - 48) else suspendPairs (fun n => n / 48 == g - 48) s)
  else if g = 55 then (if genRuns s 55 then { s with cap := { s.cap with gap := true } } else s)
  else if g = 63 then (let t := portsTurn s
    if genRuns s 63 then refreshLines t else t)
  else if (g = 58 ∨ g = 59) ∧ domSt s (g - 7) = 0 then tdcBreak s (g - 58)
  else s

/-- Before generator `g` changes, the ports count up to now by its old edges (R512). -/
def genPre (s : State) (g : Nat) : State := if g = 63 then portsTurn s else s

/-- Followers take the state of the generator they follow (R168, R178.1). -/
def syncFollower (g : Nat) (s : State) (f : Nat) : State :=
  if genRuns s g then genHook (setGenStat (genPre s f) f 3 0 (genMhz s g)) f
  else genHook (setGenStat (genPre s f) f 0 4 (genMhz s f)) f

/-- Generator `g` changes source, gates or resumes; its followers with it (R171). -/
def setGen (s : State) (g act cause mhz : Nat) : State :=
  let s1 := genHook (setGenStat (genPre s g) g act cause mhz) g
  (followers s1 g).foldl (syncFollower g) s1

/-- Gate with a cause: loss of source (R172, R173). -/
def gateGen (s : State) (g cause : Nat) : State := (setGen s g 0 cause (genMhz s g)).irqBit 0x005 3

/-- GENERATOR_FALLBACK (R172, R175): the primary PLL output has stopped; the generator goes to a running fallback, or
gates. The settings of the survey name no fallback (R77). -/
def execGeneratorFallback (g : Fin 66) (s : State) : Out :=
  whenCan s (live s && (genKind s g == 2 || surveyOwns s g) && genActive s g == 1 && !primaryRuns s g)
    (if fallbackRuns s g && !surveyOwns s g then (setGen s g 2 0 (fallbackMhz s g)).irqBit 0x005 2 else gateGen s g 1)

/-- GENERATOR_FALLBACK_STOP (R173): the fallback in use stops and the generator gates; one gated so goes back to the
fallback when that runs again while its primary is still stopped. -/
def execGeneratorFallbackStop (g : Fin 66) (s : State) : Out :=
  if genActive s g = 2 ∧ fallbackRuns s g = false then whenCan s (live s) (gateGen s g 2)
  else whenCan s (live s && genActive s g == 0 && genCause s g == 2 && fallbackRuns s g && !primaryRuns s g)
    ((setGen s g 2 0 (fallbackMhz s g)).irqBit 0x005 2)

/-- On fallback, or gated for want of a source: the states a generator returns from (R174). -/
def awayFromPrimary (s : State) (g : Nat) : Bool :=
  genKind s g == 2 && !surveyOwns s g && (genActive s g == 2 || (genActive s g == 0 && (genCause s g == 1 || genCause s g == 2)))

/-- Return to the primary (R174). -/
def returnGen (s : State) (g : Nat) : State := (setGen s g 1 0 (primaryMhz s g)).irqBit 0x005 4

/-- GENERATOR_RETURN (R174): the primary runs again and AUTO_RET is set. -/
def execGeneratorReturn (g : Fin 66) (s : State) : Out :=
  whenCan s (live s && awayFromPrimary s g && primaryRuns s g && s.flag (R.ISL_GEN_FB g) F.ISL_GEN_FB_AUTO_RET)
    (returnGen s g)

/-- A generator takes up the settings in effect (R139, R167 to R172, R174). -/
def applyGen (s : State) (g : Nat) : State :=
  match genKind s g with
  | 0 => setGen s g 0 3 0
  | 3 => syncFollower (s.getF (R.ISL_GEN_CFG g) F.ISL_GEN_CFG_FOLLOW) s g
  | _ =>
    if primaryRuns s g then setGen s g 1 0 (primaryMhz s g)
    else if fallbackRuns s g then (setGen s g 2 0 (fallbackMhz s g)).irqBit 0x005 2
    else gateGen s g 1

/-! ### Commit of the ISL page (R177, R178) -/

/-- Maximum of Table 5.2 in MHz, -8 column. -/
def genMax (g : Nat) : Nat :=
  if g ≤ 57 then 800 else if g ≤ 60 then 400 else if g ≤ 62 then 800 else if g ≤ 64 then 200 else 400

/-- A source in the staged settings runs above `max` by more than 2 %, computed from PLLp_VCOF (R178.2). -/
def tooFast (s : State) (kind p q d max : Nat) : Bool :=
  if kind = 1 then decide (5000 > max * 102 * d)
  else if kind = 2 then decide (outDiv s p q ≠ 0 ∧ vcoMhz s p * 100 > max * 102 * (outDiv s p q * d))
  else false

/-- Staged settings of a generator: (kind, pll, out, follow, d) and (fbKind, fbPll, fbOut, fbD). -/
structure GenSet where
  kind : Nat
  pll : Nat
  out : Nat
  fol : Nat
  d : Nat
  fbKind : Nat
  fbPll : Nat
  fbOut : Nat
  fbD : Nat
  deriving DecidableEq, Repr

def genSetOf (rd : Nat → Fld → Nat) (g : Nat) : GenSet :=
  let a := R.ISL_GEN_CFG g
  let b := R.ISL_GEN_FB g
  ⟨rd a F.ISL_GEN_CFG_SRC_KIND, rd a F.ISL_GEN_CFG_SRC_PLL, rd a F.ISL_GEN_CFG_SRC_OUT, rd a F.ISL_GEN_CFG_FOLLOW,
   rd a F.ISL_GEN_CFG_D, rd b F.ISL_GEN_FB_FB_KIND, rd b F.ISL_GEN_FB_FB_PLL, rd b F.ISL_GEN_FB_FB_OUT, rd b F.ISL_GEN_FB_FB_D⟩

/-- Condition 1 of R178: an oscillator or PLL source that does not run, with no running fallback. -/
def genNoSource (s : State) (x : GenSet) : Bool :=
  let prim := x.kind == 1 || (x.kind == 2 && outRuns s x.pll x.out)
  let fb := x.fbKind == 1 || (x.fbKind == 2 && outRuns s x.fbPll x.fbOut)
  (x.kind == 1 || x.kind == 2) && !prim && !fb

/-- Condition 2 of R178, also over the source of the generator followed. -/
def genTooFast (s : State) (rd : Nat → Fld → Nat) (g : Nat) (x : GenSet) : Bool :=
  let m := genMax g
  if x.kind = 3 then
    let y := genSetOf rd x.fol
    tooFast s y.kind y.pll y.out y.d m || tooFast s y.fbKind y.fbPll y.fbOut y.fbD m
  else tooFast s x.kind x.pll x.out x.d m || tooFast s x.fbKind x.fbPll x.fbOut x.fbD m

/-- Condition 3 of R178: it follows itself, it follows a follower, or it follows while another follows it. -/
def genFollowBad (rd : Nat → Fld → Nat) (g : Nat) (x : GenSet) : Bool :=
  x.kind == 3 && (x.fol == g || (genSetOf rd x.fol).kind == 3 ||
    (List.range 66).any (fun h => h != g && (genSetOf rd h).kind == 3 && (genSetOf rd h).fol == g))

/-- Condition 4 of R178: a bank clocked through it has a group that waits or switches. -/
def genInCutover (s : State) (g : Nat) : Bool :=
  let banks := (List.range 7).filter (fun k => bankGen k == g || genRoot s (bankGen k) == g)
  (List.range 32).any (fun grp => groupActive s grp && (members s grp).any (fun n => banks.contains (n / 48)))

/-- Condition 5 of R178. -/
def genSamePll (x : GenSet) : Bool := x.kind == 2 && x.fbKind == 2 && x.pll == x.fbPll

/-- Why a generator refuses the commit; 0 accepts (R178). DESIGN CHOICE (log entry 92): of several conditions that hold the
lowest number. -/
def genRefusal (s : State) (g : Nat) : Nat :=
  let x := genSetOf s.stagedF g
  if genNoSource s x then 1
  else if genTooFast s s.stagedF g x then 2
  else if genFollowBad s.stagedF g x then 3
  else if genInCutover s g then 4
  else if genSamePll x then 5
  else 0

/-! ### PLL state machine (Table 5.1) -/

/-- Start a new state of a PLL with its counters cleared; `x` says what it keeps of its control. -/
def pllEnter (s : State) (p st cur : Nat) (x : Pll) : State :=
  let s1 := setPllF (setPllF s p F.CLK_PLL_STAT_STATE st) p F.CLK_PLL_STAT_CUR cur
  let s2 := setPllF (setPllF s1 p F.CLK_PLL_STAT_BETTER 7) p F.CLK_PLL_STAT_HOLD_PEND 0
  setPllX s2 p x

/-- The counters of a PLL cleared, its last agreeing windows kept. -/
def Pll.clear (x : Pll) : Pll := { noPll with hist := x.hist }

/-- On entry to SWITCHING or HOLDOVER the control freezes at the average of the last four agreeing windows, or of as many as
there have been; a control that is frozen already stays so (R158). -/
def Pll.freeze (x : Pll) : Pll :=
  { x.clear with frozen := if x.frozen.isSome then x.frozen else some (x.hist.foldl (· + ·) 0, x.hist.length) }

/-- ACQ_CAUSE and IRQ_RAW.ACQ_FAIL (R155). -/
def acqFail (s : State) (p cause : Nat) : State :=
  (setPllF s p F.CLK_PLL_STAT_ACQ_CAUSE cause).irqBit 0x004 (20 + p)

/-- (Re)start acquisition on the best qualified eligible reference (R154, R155, Table 5.1); DISABLED with EN clear.
DESIGN CHOICE (log entry 27): on entry to DISABLED ACQ_CAUSE clears. -/
def pllAcquire (s : State) (p : Nat) : State :=
  if s.flag (R.CLK_PLL_CTRL p) F.CLK_PLL_CTRL_EN then
    match bestRef s p with
    | some k => pllEnter s p 1 k noPll
    | none => acqFail (pllEnter s p 1 7 noPll) p 1
  else setPllF (pllEnter s p 0 7 noPll) p F.CLK_PLL_STAT_ACQ_CAUSE 0

/-- Loss of lock (R153, R159). -/
def pllLol (s : State) (p : Nat) : State :=
  pllAcquire ((s.wrapF (R.CLK_PLL_EVCNT p) F.CLK_PLL_EVCNT_LOL 1).irqBit 0x004 (4 + p)) p

/-- Enter SWITCHING to a target (R158, Table 5.6). -/
def pllSwitch (s : State) (p target : Nat) : State :=
  ((pllEnter s p 3 target (pllX s p).freeze).wrapF (R.CLK_PLL_EVCNT p) F.CLK_PLL_EVCNT_SWITCHES 1).irqBit 0x004 (8 + p)

/-- Enter HOLDOVER; with an eligible qualified reference a switch to it begins at once (R158, R159). -/
def pllHoldover (s : State) (p : Nat) : State :=
  let s1 := (pllEnter s p 4 7 (pllX s p).freeze).irqBit 0x004 (12 + p)
  match bestRef s1 p with
  | some k => pllSwitch s1 p k
  | none => s1

/-- A better reference than the current one: qualified, eligible, of strictly higher priority (R160, R161). -/
def betterRef (s : State) (p : Nat) : Option Nat :=
  match bestRef s p with
  | some k => if refPri s p k < refPri s p (pllCur s p) then some k else none
  | none => none

/-- The better reference is looked for: in LOCKED, and in non-revertive mode, which only reports it, also while the PLL
acquires or switches to a reference (R160, R161). -/
def looksBetter (s : State) (p : Nat) : Bool :=
  pllSt s p == 2 || (pllMode s p == 1 && (pllSt s p == 1 || pllSt s p == 3) && pllCur s p != 7)

/-- Review the better reference (R160, R161): revertive mode runs the hold-off of the reference it started
with while that stays qualified; non-revertive mode reports. -/
def pllReview (s : State) (p : Nat) : State :=
  if !looksBetter s p then s
  else
    let old := s.getF (R.CLK_PLL_STAT p) F.CLK_PLL_STAT_BETTER
    let keeps := s.flag (R.CLK_PLL_STAT p) F.CLK_PLL_STAT_HOLD_PEND && eligible s p old && refQual s old &&
      decide (refPri s p old < refPri s p (pllCur s p)) && pllMode s p == 0
    if keeps then s
    else
      let s1 := setPllF (setPllF s p F.CLK_PLL_STAT_HOLD_PEND 0) p F.CLK_PLL_STAT_BETTER 7
      if pllMode s p = 2 then s1
      else match betterRef s p with
        | none => s1
        | some k =>
          let s2 := setPllF s1 p F.CLK_PLL_STAT_BETTER k
          let s3 := if old = k ∧ pllMode s p = 1 then s2 else s2.irqBit 0x004 (16 + p)
          if pllMode s p = 0 then setPllF s3 p F.CLK_PLL_STAT_HOLD_PEND 1 else s3

/-- The reference in use is disqualified, or made ineligible (R158, R159, R162, R606). -/
def pllLostRef (s : State) (p : Nat) : State :=
  match pllSt s p with
  | 1 => pllAcquire s p
  | 2 => if pllMode s p = 2 then pllHoldover s p
    else match bestRef s p with
      | some k => pllSwitch s p k
      | none => pllHoldover s p
  | 3 => pllHoldover s p
  | _ => s

/-- A PLL after the qualification of references changed. -/
def pllRefChange (s : State) (p : Nat) : State :=
  match pllSt s p with
  | 1 => if pllCur s p = 7 then (if (bestRef s p).isSome then pllAcquire s p else s)
    else if eligible s p (pllCur s p) && refQual s (pllCur s p) then pllReview s p else pllLostRef s p
  | 2 => if eligible s p (pllCur s p) && refQual s (pllCur s p) then pllReview s p else pllLostRef s p
  | 3 => if eligible s p (pllCur s p) && refQual s (pllCur s p) then pllReview s p else pllLostRef s p
  | 4 => match bestRef s p with
    | some k => pllSwitch s p k
    | none => s
  | _ => s

def allPllRefChange (s : State) : State := [0, 1, 2, 3].foldl pllRefChange s

def setDisq (s : State) (r v : Nat) : State := { s with clk := { s.clk with disq := withBits s.clk.disq r 1 v } }

def setGoodWin (s : State) (r n : Nat) : State :=
  { s with clk := { s.clk with goodWin := tabSet (fun _ => 0) s.clk.goodWin r n } }

/-- A reference fails: it is disqualified, whether or not it was qualified before, and at once so are those timed by it
(R149, R150); one that is disqualified already stays so. -/
def disqualify : Nat → State → Nat → State
  | 0, s, _ => s
  | n + 1, s, r =>
    let s1 := setGoodWin s r 0
    if bitOf s.clk.disq r && !refQual s r then s1
    else
      let s2 := setDisq s1 r 1
      let s3 := if refQual s r then (s2.setF (R.CLK_REF_STAT r) F.CLK_REF_STAT_QUAL 0).irqBit 0x004 (24 + r) else s2
      ([0, 1, 2, 3].filter (fun q => q != r && s3.getF (R.CLK_REF_CTRL q) F.CLK_REF_CTRL_TIMEBASE == r + 1)).foldl
        (disqualify n) s3

/-- The timebase of a reference is not disqualified (R150). One that is enabled and has neither qualified nor failed yet is
not disqualified: two references that time each other can both qualify, until one fails (log entry 102). -/
def timebaseOk (s : State) (r : Nat) : Bool :=
  let t := s.getF (R.CLK_REF_CTRL r) F.CLK_REF_CTRL_TIMEBASE
  t == 0 || (s.flag (R.CLK_REF_CTRL (t - 1)) F.CLK_REF_CTRL_EN && !bitOf s.clk.disq (t - 1))

/-- A window is good (R148): edges throughout and the count within REFr_EXP ± REFr_TOL ppm. -/
def windowGood (s : State) (r count : Nat) (throughout : Bool) : Bool :=
  let e := s.getF (R.CLK_REF_EXP r) F.CLK_REF_EXP_EXP
  let diff := if count < e then e - count else count - e
  throughout && decide (diff * 1000000 ≤ e * s.getF (R.CLK_REF_TOL r) F.CLK_REF_TOL_PPM) && timebaseOk s r

/-- The references and PLLs work: their domain is on and the device is neither in reset nor halted (R560). -/
def clkLive (s : State) : Bool := live s && domOn s 63

/-- REF_WINDOW_END (R148 to R150). -/
def execRefWindowEnd (r : Fin 4) (count : Nat) (throughout now : Bool) (s : State) : Out :=
  let s1 := (s.setF (R.CLK_REF_STAT r) F.CLK_REF_STAT_COUNT count).setF (R.CLK_REF_STAT r) F.CLK_REF_STAT_ACTIVE (b2n now)
  let n := tabGet (fun _ => 0) s.clk.goodWin r + 1
  let t :=
    if windowGood s r count throughout then
      if s.getF (R.CLK_REF_CTRL r) F.CLK_REF_CTRL_QUAL_N ≤ n then
        allPllRefChange ((setDisq (setGoodWin s1 r n) r 0).setF (R.CLK_REF_STAT r) F.CLK_REF_STAT_QUAL 1)
      else setGoodWin s1 r n
    else allPllRefChange (disqualify 4 s1 r)
  whenCan s (clkLive s && s.flag (R.CLK_REF_CTRL r) F.CLK_REF_CTRL_EN) t

/-- REF_EDGES_STOP (R149, R150). -/
def execRefEdgesStop (r : Fin 4) (s : State) : Out :=
  whenCan s (clkLive s)
    (allPllRefChange (disqualify 4 (s.setF (R.CLK_REF_STAT r) F.CLK_REF_STAT_ACTIVE 0) r))

/-! ### PLL events -/

/-- A lock window agrees (R152). -/
def windowAgrees (s : State) (p count : Nat) : Bool :=
  let want := 4096 * s.getF (R.CLK_PLL_DIV p) F.CLK_PLL_DIV_FBDIV
  let diff := if count < want then want - count else count - want
  decide (diff * 1000000 ≤ s.getF (R.CLK_PLL_LOCK p) F.CLK_PLL_LOCK_TOL * want)

/-- An enabled output would exceed 1,600 MHz by more than 2 % (R151, R155). -/
def outTooFast (s : State) (p mhz : Nat) : Bool :=
  [0, 1, 2, 3].any (fun q => outDiv s p q != 0 && decide (mhz * 100 > 1600 * 102 * outDiv s p q))

/-- PLL_CALIBRATION_DONE (R154, R155). DESIGN CHOICE (log entry 27): where the VCO and an output are both out of range,
ACQ_CAUSE is 2. -/
def execPllCalibrationDone (k : Fin 4) (mhz : Nat) (s : State) : Out :=
  let s1 := s.setN (R.CLK_PLL_VCOF k) (mhz % 2 ^ 13)
  let t := if mhz * 100 < 3200 * 98 ∨ mhz * 100 > 6400 * 102 then acqFail s1 k 2
    else if outTooFast s k mhz then acqFail s1 k 3
    else setPllX s1 k { noPll with go := true }
  whenCan s (clkLive s && pllSt s k == 1 && pllCur s k != 7 && !(pllX s k).go) t

/-- Generator 58 takes PLL0.OUT0 when PLL0 locks during Steep (R77, R385): a change of its source (R387). -/
def steepPllLocked (s : State) (p : Nat) : State :=
  if s.phase = .steep ∧ s.surv.usePll = true ∧ p = 0 then setGen s 58 1 0 (vcoMhz s 0 / outDiv s 0 0) else s

/-- Declare lock (R153, R155). -/
def pllLocked (s : State) (p : Nat) : State :=
  let s1 := (setPllF s p F.CLK_PLL_STAT_STATE 2).irqBit 0x004 p
  pllReview (setPllX (setPllF (steepPllLocked s1 p) p F.CLK_PLL_STAT_ACQ_CAUSE 0) p (pllX s p).clear) p

/-- What a lock window of `count` VCO cycles leads to, which agrees or not (R153, R155, R158, R159). -/
def pllWindow (s : State) (p count : Nat) (ok : Bool) : State :=
  let x := pllX s p
  let y : Pll := { x with
    agree := if ok then x.agree + 1 else 0
    bad := if ok then 0 else x.bad + 1
    wins := x.wins + 1
    hist := if ok then (count :: x.hist).take 4 else x.hist }
  let s1 := setPllX s p y
  match pllSt s p with
  | 2 => if 2 ≤ y.bad then pllLol s1 p else setPllX s p { y with wins := 0, agree := 0 }
  | 1 => if 3 ≤ y.agree then pllLocked s1 p
    else if 256 ≤ y.wins then acqFail (setPllX s1 p noPll) p 4 else s1
  | _ => if 3 ≤ y.agree then pllLocked s1 p
    else if 256 ≤ y.wins then pllLol s1 p else s1

/-- PLL_LOCK_WINDOW_END (R152, R153, R155, R159, R182). In HOLDOVER and before the calibration or the move of the
input no window is judged. -/
def execPllLockWindowEnd (k : Fin 4) (count : Nat) (s : State) : Out :=
  whenCan s (clkLive s && (pllSt s k == 2 || ((pllSt s k == 1 || pllSt s k == 3) && (pllX s k).go)))
    (pllWindow (s.setN (R.CLK_PLL_WINCNT k) (count % 2 ^ 21)) k count (windowAgrees s k count))

/-- PLL_SWITCH_INPUT (R158): the input moves to the target and the loop is released. -/
def execPllSwitchInput (k : Fin 4) (s : State) : Out :=
  whenCan s (clkLive s && pllSt s k == 3 && !(pllX s k).go) (setPllX s k { (pllX s k).clear with go := true })

/-- PLL_REVERT_HOLDOFF_EXPIRE (R160). -/
def execPllRevertHoldoffExpire (k : Fin 4) (s : State) : Out :=
  whenCan s (clkLive s && pllSt s k == 2 && s.flag (R.CLK_PLL_STAT k) F.CLK_PLL_STAT_HOLD_PEND)
    (pllSwitch s k (s.getF (R.CLK_PLL_STAT k) F.CLK_PLL_STAT_BETTER))

/-! ### SYNC_IN -/

/-- SYNC_IN_EDGE (R163, R165): acted on only when armed, of the selected polarity, and not ignored. -/
def execSyncInEdge (rising ignored : Bool) (s : State) : Out :=
  let acts := s.flag R.CLK_SYNC_STAT F.CLK_SYNC_STAT_ARMED && rising == !s.flag R.CLK_SYNC_CFG F.CLK_SYNC_CFG_EDGE && !ignored
  let mask := s.getF R.CLK_SYNC_CFG F.CLK_SYNC_CFG_PLLMASK
  let run := ([0, 1, 2, 3].filter (fun p => bitOf mask p && pllRuns s p)).foldl (fun n p => n + 2 ^ p) 0
  let s1 := (s.setF R.CLK_SYNC_STAT F.CLK_SYNC_STAT_ARMED 0).setF R.CLK_SYNC_STAT F.CLK_SYNC_STAT_SKIPPED (mask - run)
  let s2 := (s1.wrapF R.CLK_SYNC_STAT F.CLK_SYNC_STAT_COUNT 1).irqBit 0x004 28
  .next (if clkLive s && acts then { s2 with clk := { s2.clk with restart := run } } else s)

/-- Generator `g` gives edges of an output of PLL `p`, its primary or its fallback. -/
def runsFrom (s : State) (g p : Nat) : Bool :=
  (genActive s g == 1 && genKind s g == 2 && s.getF (R.ISL_GEN_CFG g) F.ISL_GEN_CFG_SRC_PLL == p) ||
  (genActive s g == 2 && s.getF (R.ISL_GEN_FB g) F.ISL_GEN_FB_FB_KIND == 2 &&
    s.getF (R.ISL_GEN_FB g) F.ISL_GEN_FB_FB_PLL == p)

/-- Generators with SYNC_EN whose source in use is an output of PLL `p` (R166). -/
def syncGens (s : State) (p : Nat) : List Nat :=
  (List.range 66).filter (fun g => runsFrom s g p && s.flag (R.ISL_GEN_CFG g) F.ISL_GEN_CFG_SYNC_EN)

/-- PLL_OUTPUT_RESTART (R164, R166). -/
def execPllOutputRestart (k : Fin 4) (s : State) : Out :=
  whenCan s (clkLive s && bitOf s.clk.restart k)
    { s with clk := { s.clk with
      restart := s.clk.restart - 2 ^ k.val
      restarts := (syncGens s k).foldl
        (fun m g => tabSet (fun _ => 0) m g (tabGet (fun _ => 0) m g + 1)) s.clk.restarts } }

/-! ### Writes of the CLK page -/

/-- Reserved values of Table 5.7. -/
def clkReserved (off w : Nat) : Bool :=
  if off < 0x080 then
    let r := (off - 0x040) / 16
    match off % 16 with
    | 0 => let t := bitsOf w 4 3
           t == r + 1 || decide (5 ≤ t) || bitsOf w 8 4 == 0
    | 4 => bitsOf w 0 24 == 0
    | _ => false
  else if off = 0x084 then bitOf w 0 && bitOf w 1
  else if 0x100 ≤ off then
    match off % 0x40 with
    | 0x04 => bitsOf w 0 6 == 0 || decide (bitsOf w 16 9 < 16)
    | 0x08 => [0, 1, 2, 3].any (fun q => bitsOf w (8 * q) 7 == 1)
    | 0x0C => bitsOf w 0 10 == 0
    | 0x10 => bitsOf w 20 2 == 3 || decide (5 ≤ bitsOf w 24 3)
    | 0x14 => bitsOf w 0 14 == 0 || decide (10000 < bitsOf w 0 14)
    | _ => false
  else false

/-- Refusals of R183 and R184. DESIGN CHOICE (log entry 27): where both hold, 0x01 of R183. -/
def clkRefusal (s : State) (off w : Nat) : Option Nat :=
  let mask := s.getF R.CLK_SYNC_CFG F.CLK_SYNC_CFG_PLLMASK
  if 0x100 ≤ off ∧ off % 0x40 ≤ 0x0C ∧ s.flag R.CLK_SYNC_STAT F.CLK_SYNC_STAT_ARMED = true ∧ bitOf mask ((off - 0x100) / 0x40) = true then some 0x01
  else if s.phase = .steep ∧ ((0x100 ≤ off ∧ off ≤ 0x114) ∨ (0x040 ≤ off ∧ off ≤ 0x048) ∨
      (off = 0x084 ∧ bitOf w 0 = true ∧ bitOf mask 0 = true)) then some 0x02
  else none

/-- What a performed write of the CLK page does (R156, R163, R605, R606). -/
def clkWrite (s : State) (off : Nat) (w : Word) : WOut :=
  match clkRefusal s off w.toNat with
  | some c => .refuse c
  | none =>
    let a := 0x4000 + off
    if off < 0x080 then
      let r := (off - 0x040) / 16
      let s1 := setGoodWin (s.setReg a w) r 0
      .done (if off % 16 = 0 ∧ bitOf w.toNat 0 = false then allPllRefChange (disqualify 4 s1 r)
        else if off % 16 = 0 ∧ s.flag (R.CLK_REF_CTRL r) F.CLK_REF_CTRL_EN = false then setDisq s1 r 0
        else s1)
    else if off = 0x084 then
      .done (if bitOf w.toNat 0 then s.setF R.CLK_SYNC_STAT F.CLK_SYNC_STAT_ARMED 1
        else if bitOf w.toNat 1 then s.setF R.CLK_SYNC_STAT F.CLK_SYNC_STAT_ARMED 0 else s)
    else if 0x100 ≤ off then
      let p := (off - 0x100) / 0x40
      let s1 := s.setReg a w
      if off % 0x40 ≤ 0x0C then .done (pllAcquire s1 p)
      else if off % 0x40 = 0x10 then .done (pllRefChange s1 p)
      else .done s1
    else .done (s.setReg a w)

end Sys2Proof.Machine
end

