-- ==== Sys2Proof/Machine/Ecc.lean ====
section
/-! DEFINITION. The 64+8 SECDED code of R232 and the device's single partial-write rule (R233 to R240). A word is a
number of 72 bits: data in bits 63:0, check byte in bits 71:64. -/

namespace Sys2Proof.Machine

/-- Columns of data bits 0 to 63: the weight-3 bytes ascending, then the eight smallest of weight 5 (R232). -/
def eccColumns : List Nat :=
  (List.range 256).filter (fun v => popCount v 8 == 3) ++ ((List.range 256).filter (fun v => popCount v 8 == 5)).take 8

/-- The columns of the data bits that are set, XORed. -/
def xorCols : List Nat → Nat → Nat
  | [], _ => 0
  | c :: cs, d => if d % 2 = 1 then Nat.xor c (xorCols cs (d / 2)) else xorCols cs (d / 2)

/-- Computed check byte of a data word (R232). -/
def checkByte (d : Nat) : Nat := xorCols eccColumns (d % 2 ^ 64)

def dataOf (w : Nat) : Nat := w % 2 ^ 64
def checkOf (w : Nat) : Nat := w / 2 ^ 64 % 256

/-- A data word with its computed check byte (R235). -/
def eccWord (d : Nat) : Nat := d % 2 ^ 64 + 2 ^ 64 * checkByte d

/-- A data word marked poisoned (R237). -/
def poisonWord (d : Nat) : Nat := d % 2 ^ 64 + 2 ^ 64 * Nat.xor (checkByte d) 0xFE

def syndrome (w : Nat) : Nat := Nat.xor (checkOf w) (checkByte (dataOf w))

/-- Position of a value in a list. -/
def indexOf (v : Nat) : List Nat → Nat → Option Nat
  | [], _ => none
  | x :: xs, i => if x = v then some i else indexOf v xs (i + 1)

/-- The four classes of R233; a correctable one names the data bit, or none when the bit is a check bit. -/
inductive EccClass where
  | good | correctable (bit : Option Nat) | poisoned | uncorrectable
  deriving DecidableEq, Repr

def classify (synd : Nat) : EccClass :=
  if synd = 0 then .good
  else if synd = 0xFE then .poisoned
  else match indexOf synd eccColumns 0 with
    | some i => .correctable (some i)
    | none => if [1, 2, 4, 8, 16, 32, 64, 128].contains synd then .correctable none else .uncorrectable

def eccClass (w : Nat) : EccClass := classify (syndrome w)

/-- Data that a read returns: corrected where it can be, else as stored (R234, R239). -/
def eccData (w : Nat) : Nat :=
  match eccClass w with
  | .correctable (some i) => Nat.xor (dataOf w) (2 ^ i)
  | _ => dataOf w

/-- The word can be taken as good data. -/
def eccUsable (w : Nat) : Bool :=
  match eccClass w with
  | .good => true
  | .correctable _ => true
  | _ => false

/-- Bytes of `d` where the enable is set, of `old` elsewhere; `n` bytes. -/
def mergeBytes : Nat → Nat → Nat → Nat → Nat
  | 0, _, _, _ => 0
  | n + 1, d, old, be => (if be % 2 = 1 then d % 256 else old % 256) + 256 * mergeBytes n (d / 256) (old / 256) (be / 2)

/-- The stored word after a write of `d` with byte enables `be` (R235 to R238). -/
def eccWrite (w d be : Nat) : Nat :=
  if be % 256 = 255 then eccWord d
  else if eccUsable w then eccWord (mergeBytes 8 d (eccData w) be)
  else poisonWord (mergeBytes 8 d (dataOf w) be)

end Sys2Proof.Machine
end

