-- ==== Sys2Proof/Machine/Fabric.lean ====
section
/-! DEFINITION. Fabric islands: handshake ports, block memories, arithmetic slices, fences (07_fabric.md, R268 to
R276). -/

namespace Sys2Proof.Machine

def fiPage (x : Nat) : Nat := 0x100 + x

/-- The island's design works: it is clocked, and the fabric is not idle (R65). -/
def islandRuns (s : State) (x : Nat) : Bool := designRuns s x

/-! ### Block memories -/

def bramKey (x m w : Nat) : Nat := x * 12288 + m * 512 + w
def bramGet (s : State) (x m w : Nat) : Nat := tabGet (fun _ => 0) s.fab.bram (bramKey x m w)
def bramSet (s : State) (x m w v : Nat) : State :=
  { s with fab := { s.fab with bram := tabSet (fun _ => 0) s.fab.bram (bramKey x m w) v } }

def lastInfo (m w kind synd : Nat) : Nat := w + 4096 * m + 262144 * kind + 16777216 * synd

/-- A correctable event: counted and recorded (R234, R236). -/
def fiCe (s : State) (x m w synd : Nat) : State :=
  (((s.satF (R.FI_CE_CNT x) F.FI_CE_CNT_N 1).setN (R.FI_CE_LAST x) (lastInfo m w 1 synd))).irqBit (fiPage x) 2

/-- An uncorrectable event of a KIND (R237, R239). -/
def fiUe (s : State) (x m w kind synd : Nat) : State :=
  (((s.satF (R.FI_UE_CNT x) F.FI_UE_CNT_N 1).setN (R.FI_UE_LAST x) (lastInfo m w kind synd))).irqBit (fiPage x) 3

/-- A port reads the stored word `v` (R233, R234, R239): its output takes the data and the error flag, the event is counted. -/
def bramRead (x m b w v : Nat) (s : State) : State :=
  let s1 := { s with fab := { s.fab with
    bramOut := tabSet (fun _ => (0, false)) s.fab.bramOut (2 * (x * 24 + m) + b) (eccData v, !eccUsable v) } }
  match eccClass v with
  | .good => s1
  | .correctable _ => fiCe s1 x m w (syndrome v)
  | .poisoned => fiUe s1 x m w 3 (syndrome v)
  | .uncorrectable => fiUe s1 x m w 1 (syndrome v)

/-- A write of the bytes of `d` that `be` enables into the stored word `v` (R235 to R238). -/
def bramWrite (x m w v d be : Nat) (s : State) : State :=
  let s1 := bramSet s x m w (eccWrite v d be)
  if be % 256 = 255 then s1
  else match eccClass v with
  | .good => s1
  | .correctable _ => fiCe s1 x m w (syndrome v)
  | .poisoned => s1
  | .uncorrectable =>
    ((fiUe s1 x m w 2 (syndrome v)).satF (R.FI_POISON_CNT x) F.FI_POISON_CNT_N 1).irqBit (fiPage x) 4

/-- The upsets of the word that a port accesses. -/
def bramFlip (x m : Nat) (s : State) : BramAct → State
  | .read w f => bramSet s x m w (Nat.xor (bramGet s x m w) f.toNat)
  | .write w _ _ f => bramSet s x m w (Nat.xor (bramGet s x m w) f.toNat)

/-- What port `b` does on an edge; every word is taken as it stood before the edge, in `s0` (R253). -/
def bramDo (x m : Nat) (s0 : State) (b : Nat) (s : State) : BramAct → State
  | .read w _ => bramRead x m b w (bramGet s0 x m w) s
  | .write w d be _ => bramWrite x m w (bramGet s0 x m w) d.toNat be.toNat s

/-- One edge on which port A does `p` and port B does `q`. Two writes of one word are one write of the merged bytes, port B's
winning (R252); of two events port B's is recorded last. -/
def bramEdge (x m : Nat) (p q : BramAct) (s : State) : State :=
  let s0 := bramFlip x m (bramFlip x m s p) q
  match p, q with
  | .write w d be _, .write v e ce _ =>
    if w = v then bramWrite x m w (bramGet s0 x m w) (mergeBytes 8 e.toNat d.toNat ce.toNat) (be ||| ce).toNat s0
    else bramDo x m s0 1 (bramDo x m s0 0 s0 p) q
  | _, _ => bramDo x m s0 1 (bramDo x m s0 0 s0 p) q

/-- An edge on which port `b` does `p` and the other port does `other`, if anything. -/
def bramPorts (x : Fin 48) (m : Fin 24) (b : Fin 2) (p : BramAct) (other : Option BramAct) (s : State) : Out :=
  whenCan s (islandRuns s x) (match other with
    | none => let s0 := bramFlip x m s p; bramDo x m s0 b s0 p
    | some q => if b = 0 then bramEdge x m p q s else bramEdge x m q p s)

/-- BRAM_READ (R233, R234, R239, R253): nothing is written back. -/
def execBramRead (x : Fin 48) (m : Fin 24) (b : Fin 2) (w : Fin 512) (flip : BitVec 72) (other : Option BramAct)
    (s : State) : Out :=
  bramPorts x m b (.read w flip) other s

/-- BRAM_WRITE_FULL (R235, R252). -/
def execBramWriteFull (x : Fin 48) (m : Fin 24) (b : Fin 2) (w : Fin 512) (d : BitVec 64) (other : Option BramAct)
    (s : State) : Out :=
  bramPorts x m b (.write w d 255#8 0#72) other s

/-- BRAM_WRITE_PARTIAL (R236 to R238, R252). -/
def execBramWritePartial (x : Fin 48) (m : Fin 24) (b : Fin 2) (w : Fin 512) (d : BitVec 64) (be : BitVec 8)
    (flip : BitVec 72) (other : Option BramAct) (s : State) : Out :=
  bramPorts x m b (.write w d be flip) other s

/-! ### Arithmetic slices -/

/-- Limit to the 48-bit range (R243). -/
def slSat (v : Int) : Int :=
  if v > 0x7FFFFFFFFFFF then 0x7FFFFFFFFFFF else if v < -0x800000000000 then -0x800000000000 else v

/-- SLICE_OPERATION (R242 to R244). -/
def execSliceOperation (x : Fin 48) (k : Fin 32) (a : BitVec 27) (b : BitVec 18) (c : BitVec 48) (z : SliceZ)
    (sub sat : Bool) (s : State) : Out :=
  let key := x.val * 32 + k.val
  let pOf (i : Nat) : Int := signedOf 48 (tabGet (fun _ => 0) s.fab.slP i)
  let zv : Int := match z with
    | .zero => 0
    | .p => pOf key
    | .c => signedOf 48 c.toNat
    | .cascade => pOf (key - 1)
  let prod := signedOf 27 a.toNat * signedOf 18 b.toNat
  let exact := if sub then zv - prod else zv + prod
  let r := if sat then slSat exact else exact
  whenCan s (islandRuns s x && !(z == .cascade && k.val == 0)) { s with fab := { s.fab with
    slP := tabSet (fun _ => 0) s.fab.slP key (BitVec.ofInt 48 r).toNat
    slOv := tabSet (fun _ => false) s.fab.slOv key (sat && slSat exact != exact) } }

/-! ### Handshake ports and long channels -/

/-- The grid neighbour of an island (R221, R225). -/
def neighbour (x dir : Nat) : Option Nat :=
  match dir with
  | 0 => if 8 ≤ x then some (x - 8) else none
  | 1 => if x % 8 < 7 then some (x + 1) else none
  | 2 => if x < 40 then some (x + 8) else none
  | _ => if 0 < x % 8 then some (x - 1) else none

def hsKey : HsPort → Nat
  | .nb src dir => 4 * src.val + dir.val
  | .long c _ _ => 192 + c.val

def hsSrc : HsPort → Nat
  | .nb src _ => src.val
  | .long _ src _ => src.val

def hsDst : HsPort → Option Nat
  | .nb src dir => neighbour src.val dir.val
  | .long _ _ dst => some dst.val

/-- Number of the port at the destination (WEDGE_INFO.PORT): the side the data comes in by. -/
def hsPortNo : HsPort → Nat
  | .nb _ dir => (dir.val + 2) % 4
  | .long c _ _ => 16 + c.val

def hsGet (s : State) (k : Nat) : Hs := tabGet (fun _ => noHs) s.fab.hs k
def hsSet (s : State) (k : Nat) (h : Hs) : State :=
  { s with fab := { s.fab with hs := tabSet (fun _ => noHs) s.fab.hs k h } }

/-- Transfers move into a receive queue of four while there is room (R226). -/
def hsMove (h : Hs) : Hs :=
  let n := min h.wait.length (4 - h.queue.length)
  { h with wait := h.wait.drop n, queue := h.queue ++ h.wait.take n }

/-- The destination takes transfers: it runs and is not fenced (R176, R269). -/
def takes (s : State) (x : Nat) : Bool := islandRuns s x && !fenced s x

/-- The islands a long channel is bound to. -/
def hsEnds : HsPort → Option (Nat × Nat)
  | .nb _ _ => none
  | .long _ src dst => some (src.val, dst.val)

/-- The image binds a channel once (R225): a command agrees with what an earlier one named. -/
def hsBound (q : Hs) (h : HsPort) : Bool := q.ends.isNone || q.ends == hsEnds h

/-- HANDSHAKE_TRANSFER (R176, R179, R225 to R227, R268, R269): the source launches `d`, the design takes `took` transfers, and
what is offered crosses as far as the receive queue has room, unless the crossing has stopped working. -/
def execHandshakeTransfer (h : HsPort) (d : Option (BitVec 64)) (took : Nat) (crosses : Bool) (s : State) : Out :=
  match hsDst h with
  | none => .next s
  | some y =>
    let q := hsGet s (hsKey h)
    let launch := match d with
      | none => true
      | some _ => takes s (hsSrc h) && decide (q.wait.length < 4)
    let drained := if takes s y then q.queue.drop took else q.queue
    let h1 : Hs := { q with wait := q.wait ++ d.toList, queue := drained, ends := hsEnds h }
    whenCan s (live s && hsBound q h && launch && (took == 0 || takes s y))
      (hsSet s (hsKey h) (if takes s y && crosses then hsMove h1 else h1))

/-- A page becomes wedged (R122, R227, R556). -/
def wedgePage (s : State) (page : Nat) : State :=
  (s.setF (R.PAGE_STAT page) F.PAGE_STAT_WEDGED 1).irqBit page 31

/-- The island that a crossing leads into. -/
def crossDst (s : State) : Crossing → Option Nat
  | .hs h => hsDst h
  | .master => some (s.getF R.CFGC_IMG_INFO F.CFGC_IMG_INFO_MP_ISL)
  | .window => some (s.getF R.CFGC_IMG_INFO F.CFGC_IMG_INFO_UW_ISL)

/-- WEDGE_INFO.PORT of a crossing (Table 7.4). -/
def crossPort : Crossing → Nat
  | .hs h => hsPortNo h
  | .master => 4
  | .window => 5

/-- A transfer is offered at a crossing whose destination queue has space. The response that the master port owes the design
is no part of State, since an access completes in one step (log entry 3). -/
def crossOffered (s : State) : Crossing → Bool
  | .hs h => let q := hsGet s (hsKey h); hsBound q h && !q.wait.isEmpty && decide (q.queue.length < 4)
  | .master => true
  | .window => !s.fab.uw.isEmpty

/-- HANDSHAKE_WEDGE (R227): a transfer waits although the destination's queue has space and its clock runs. -/
def execHandshakeWedge (c : Crossing) (s : State) : Out :=
  match crossDst s c with
  | none => .next s
  | some y =>
    whenCan s (decide (y < 48) && takes s y && crossOffered s c)
      (wedgePage (s.setN (R.FI_WEDGE_INFO y) (crossPort c + 256)) (fiPage y))

/-- Keys of the ports into island `x` from its neighbours. -/
def inKeys (x : Nat) : List Nat :=
  (List.range 4).filterMap (fun d => (neighbour x d).map (fun y => 4 * y + (d + 2) % 4))

/-- Long channels that start from island `x`, or that end in it. -/
def longKeys (s : State) (x : Nat) (from_ : Bool) : List Nat :=
  (List.range 16).map (· + 192) |>.filter (fun k => match (hsGet s k).ends with
    | some (a, b) => (if from_ then a else b) == x
    | none => false)

/-- Every transfer that island `x` launched has been taken (R270). -/
def launchedDone (s : State) (x : Nat) : Bool :=
  ((List.range 4).map (4 * x + ·) ++ longKeys s x true).all (fun k => (hsGet s k).wait.isEmpty)

/-- User-window accesses forwarded to island `x` and not answered. -/
def uwDone (s : State) (x : Nat) : Bool :=
  s.fab.uw.isEmpty || s.getF R.CFGC_IMG_INFO F.CFGC_IMG_INFO_UW_ISL != x

def drained (s : State) (x : Nat) : Bool := s.flag (R.FI_ISL_STAT x) F.FI_ISL_STAT_DRAINED
def setDrained (s : State) (x : Nat) (v : Bool) : State := s.setF (R.FI_ISL_STAT x) F.FI_ISL_STAT_DRAINED (b2n v)

/-- ISLAND_DRAINED (R270). In a halt every page holds what it held (R560). -/
def execIslandDrained (x : Fin 48) (s : State) : Out :=
  whenCan s (live s && fenced s x && !drained s x && (!domOn s x || (launchedDone s x && uwDone s x)))
    ((setDrained s x true).irqBit (fiPage x) 6)

/-- ISL_STAT as it reads (Table 7.4). -/
def islStatWord (s : State) (x : Nat) : Nat :=
  b2n (fenced s x) + 2 * b2n (drained s x) + 4 * b2n (!genRuns s x)

/-- The output nibs that island `x` is bound to get what its ports now present (R230, R276). -/
def reloadPorts (s : State) (x : Nat) : State :=
  (List.range 64).foldl (fun t j => presentPort t x j) s

/-- A fence takes effect (R268, R270, R365). -/
def fenceApply (s : State) (x : Nat) : State :=
  let s1 := (setDrained s x (!domOn s x)).irqBit (fiPage x) 5
  let s2 := suspendPairs (fun n => (boundPort s n).any (fun e => e.1 == x)) s1
  reloadPorts (if domOn s x then s2 else s2.irqBit (fiPage x) 6) x

/-- A fence lifts: receive queues are empty, ports take up their function (R276). -/
def fenceLift (s : State) (x : Nat) : State := reloadPorts (setDrained s x false) x

/-- The flip-flops of an island whose frames have just been written take the initial values that the image declares, and its
ports and probes drive what those give. Which bits of the frames declare them the specification does not say: free values
(R221, R223, log entry 10). -/
def freshOutputs (s0 : State) (x : Nat) : State :=
  let (ff, sf) := s0.free (2 ^ 19200)
  let s := { sf with fab := { sf.fab with ff := tabSet (fun _ => 0) sf.fab.ff x ff } }
  let s1 := (List.range 64).foldl (fun t j =>
    let (v, t1) := t.free 4
    { t1 with fab := { t1.fab with port := tabSet (fun _ => 0) t1.fab.port (64 * x + j) v } }) s
  (List.range 64).foldl (fun t p =>
    if t.mapBit (R.FI_PROBE0 x) 4 p then
      let (v, t1) := t.free 2
      { t1 with fab := { t1.fab with probe := tabSet (fun _ => false) t1.fab.probe p (v == 1) } }
    else t) s1

/-- What a performed write of an FI page does beyond a plain store: ECC_CLR (R234, Table 7.5). -/
def fiWrite (s : State) (x off : Nat) (w : Word) : WOut :=
  if off = 0x084 then
    .done (if bitOf w.toNat 0 then
      ((((s.setN (R.FI_CE_CNT x) 0).setN (R.FI_UE_CNT x) 0).setN (R.FI_POISON_CNT x) 0).setN (R.FI_CE_LAST x) 0).setN
        (R.FI_UE_LAST x) 0
    else s)
  else .done (s.setReg (0x100000 + 0x1000 * x + off) w)

end Sys2Proof.Machine
end

