-- ==== Sys2Proof/Machine/Config.lean ====
section
/-! DEFINITION. Configuration flash and images, partial reconfiguration, and the Blotter
(08_reconfiguration_blotter.md). -/

namespace Sys2Proof.Machine

/-! ### Flash and the image header -/

def flashBytes (s : State) (a n : Nat) : List Byte := tabRead (fun _ => 0xFF#8) s.cfg.flash a n

/-- The device reads `n` bytes of the flash from address `a` (R257). -/
def readFlash (s : State) (a n : Nat) : State := { s with cfg := { s.cfg with read := some (a, n) } }

/-- CFG_SCK and CFG_CS_N are driven; they are high-impedance while RST_N is low (R258). -/
def cfgDriven (s : State) : Bool := s.pwr.rstN

/-- What the device drives on CFG_IO0 to CFG_IO3 in cycle `c` of CFG_SCK of a read from address `a` (R257): the command 0xEC on
CFG_IO0 over 8 cycles, the four address bytes on all four lines over 8, most significant bits first, and from then on
nothing, through 10 dummy cycles and the flash's data of two cycles a byte. -/
def flashLines (a c : Nat) : List (Option Bool) :=
  if c < 8 then [some (bitOf 0xEC (7 - c)), none, none, none]
  else if c < 16 then (List.range 4).map (fun i => some (bitOf a (4 * (15 - c) + i)))
  else [none, none, none, none]

/-- What the device drives on CFG_IO0 to CFG_IO3 in cycle `c` of its latest read (R257, R258). -/
def cfgLines (s : State) (c : Nat) : List (Option Bool) :=
  match s.cfg.read with
  | some (a, _) => if cfgDriven s then flashLines a c else [none, none, none, none]
  | none => [none, none, none, none]

/-- CFG_SCK cycles from the start of a read of `n` bytes to its last data bits (R257, R266). -/
def readCycles (n : Nat) : Nat := 26 + 2 * n

/-- The little-endian word at a flash address. -/
def flashWord (s : State) (a : Nat) : Nat := leNat (flashBytes s a 4)

/-- Word `i` of the image header (Table 8.1). -/
def hdrWord (s : State) (i : Nat) : Nat := flashWord s (4 * i)

def hdrFilled (s : State) (x : Nat) : Bool := bitOf (hdrWord s (6 + x / 32)) (x % 32)
def hdrCrit (s : State) (x : Nat) : Bool := bitOf (hdrWord s (8 + x / 32)) (x % 32)

/-- An island number of the header: none (0x3F), or a filled island (R260). -/
def hdrIslandOk (s : State) (v : Nat) : Bool := v == 0x3F || (decide (v < 48) && hdrFilled s v)

/-- Reserved bits of the header are zero (Table 8.1). -/
def hdrReservedOk (s : State) : Bool :=
  hdrWord s 1 / 2 ^ 20 == 0 && hdrWord s 7 / 2 ^ 16 == 0 && hdrWord s 9 / 2 ^ 16 == 0 &&
  bitsOf (hdrWord s 10) 2 6 == 0 && bitsOf (hdrWord s 10) 14 2 == 0 && bitsOf (hdrWord s 10) 22 10 == 0 &&
  hdrWord s 11 / 2 ^ 14 == 0 && [12, 13, 14, 15].all (fun i => hdrWord s i == 0)

/-- ISL_ADDR of one island (R260). -/
def hdrIslAddrOk (s : State) (x : Nat) : Bool :=
  let a := hdrWord s (16 + x)
  a % 4096 == 0 && (if hdrFilled s x then a != 0 else a == 0 && !hdrCrit s x)

/-- The image header passes its check (R259, R260). -/
def headerOk (s : State) : Bool :=
  let h := flashBytes s 0 256
  hdrWord s 0 == 0x4A580001 && hdrWord s 1 % 2 ^ 16 == 0x0676 && decide (bitsOf (hdrWord s 1) 16 4 ≤ Config.stepping) &&
  (crc32 (h.take 12 ++ [0, 0, 0, 0] ++ h.drop 16)).toNat == hdrWord s 3 && hdrReservedOk s &&
  bitsOf (hdrWord s 10) 0 2 != 3 && (List.range 7).all (fun k => bitsOf (hdrWord s 11) (2 * k) 2 != 3) &&
  (List.range 48).all (hdrIslAddrOk s) && hdrIslandOk s (bitsOf (hdrWord s 10) 8 6) &&
  hdrIslandOk s (bitsOf (hdrWord s 10) 16 6) && hdrWord s 4 != 0 && hdrWord s 4 % 16 == 0 && hdrWord s 5 % 4096 == 0

/-! ### Island sections -/

def verified (s : State) (x : Nat) : Bool := s.mapBit R.CFGC_VERIFIED0 4 x
def setVerified (s : State) (x : Nat) (v : Bool) : State := s.setMapBit R.CFGC_VERIFIED0 4 x v
def islSrcOf (s : State) (x : Nat) : Nat := tabGet (fun _ => 0) s.cfg.islSrc x
def setIslSrc (s : State) (x a : Nat) : State :=
  { s with cfg := { s.cfg with islSrc := tabSet (fun _ => 0) s.cfg.islSrc x a } }

/-- The header of an island section (R262, R272 step 2). -/
def sectionHeaderOk (s : State) (x addr : Nat) : Bool :=
  flashWord s addr == 0x49530001 && flashWord s (addr + 4) == x &&
  flashWord s (addr + 8) == hdrWord s 2 && [16, 20, 24, 28].all (fun o => flashWord s (addr + o) == 0)

/-- Eight-byte words, little-endian. -/
def words8 : Nat → List Byte → List Nat
  | 0, _ => []
  | n + 1, bs => leNat (bs.take 8) :: words8 n (bs.drop 8)

/-- Frames 0 to 639 go to configuration memory, frames 640 to 1,023 to the block memories, each word with its computed
check byte (Table 8.2, R241, R263). -/
def writeFrames (s : State) (x : Nat) (bs : List Byte) : State :=
  let ws := (words8 32768 bs).map eccWord
  { s with
    cfg := { s.cfg with mem := tabPut (fun _ => 0) s.cfg.mem (x * 20480) (ws.take 20480) }
    fab := { s.fab with bram := tabPut (fun _ => 0) s.fab.bram (x * 12288) (ws.drop 20480) } }

/-- The words of the 1,024 frames of island `x`, in configuration memory and in the block memories. -/
def frameWords (s : State) (x : Nat) : List Nat :=
  (List.range 20480).map (fun i => tabGet (fun _ => 0) s.cfg.mem (x * 20480 + i)) ++
    (List.range 12288).map (fun i => tabGet (fun _ => 0) s.fab.bram (x * 12288 + i))

/-- Every frame of island `x` reads back as the data written from `bs` (R272 step 5). -/
def framesMatch (s : State) (x : Nat) (bs : List Byte) : Bool := frameWords s x == (words8 32768 bs).map eccWord

/-- Receive queues of an island: their entries, and the state with them discarded (R272 step 3). -/
def queueKeys (s : State) (x : Nat) : List Nat := inKeys x ++ longKeys s x false
def queuedEntries (s : State) (x : Nat) : Nat := ((queueKeys s x).map (fun k => (hsGet s k).queue.length)).foldl (· + ·) 0
def discardQueues (s : State) (x : Nat) : State :=
  (queueKeys s x).foldl (fun t k => hsSet t k { hsGet t k with queue := [] }) s

/-- Load and verify an island from a section: the reason of Table 8.4 (0 when it succeeds) and the state (R272 steps 2
to 7; R264 step 4). `bad`: a frame whose readback differs from what was written. -/
def loadIsland (s0 : State) (x addr : Nat) (bad : Option (Fin 1024)) : Nat × State :=
  let s := readFlash s0 addr 262176
  if !sectionHeaderOk s x addr then (4, s)
  else
    let bs := flashBytes s (addr + 32) 262144
    let s1 := writeFrames (discardQueues s x) x bs
    if (crc32 bs).toNat != flashWord s (addr + 12) then (5, s1)
    else if bad.isSome then (6, s1)
    else (0, setIslSrc (setVerified (freshOutputs s1 x) x true) x addr)

/-! ### CFGC page -/

/-- Reserved values of Table 8.5. -/
def cfgcReserved (off w : Nat) : Bool := (off == 0x064 || off == 0x074) && decide (48 ≤ bitsOf w 0 6)

/-- The refusals of Table 8.6, in the order of R271. -/
def prRefusal (s : State) : Option Nat :=
  let x := s.getF R.CFGC_PR_ISLAND F.CFGC_PR_ISLAND_ISL
  if s.cfg.pr.isSome then some 1
  else if s.phase ≠ .run then some 2
  else if domSt s x ≠ 0 then some 3
  else if !(fenced s x && drained s x) then some 4
  else none

/-- What a performed write of the CFGC page does: PR_CMD starts a partial reconfiguration (R271, R272 step 1). -/
def cfgcWrite (s : State) (off : Nat) (w : Word) : WOut :=
  if off = 0x06C then
    if !bitOf w.toNat 31 then .done s
    else match prRefusal s with
      | some c => .refuse c
      | none =>
        let x := s.getF R.CFGC_PR_ISLAND F.CFGC_PR_ISLAND_ISL
        let s1 := (setVerified s x false).setN R.CFGC_PR_STAT 1
        .done { s1 with cfg := { s1.cfg with pr := some (x, s.regN R.CFGC_PR_SRC / 4096 * 4096) } }
  else .done (s.setReg (0x20000 + off) w)

/-- A partial reconfiguration of island `x` fails for a reason of Table 8.4 (R273). -/
def prFail (s : State) (x why : Nat) : State :=
  let s1 := { (setIslSrc s x 0) with cfg := { (setIslSrc s x 0).cfg with pr := none } }
  ((s1.setF R.CFGC_PR_STAT F.CFGC_PR_STAT_STATE 5).setF R.CFGC_PR_STAT F.CFGC_PR_STAT_REASON why).irqBit 0x020 1

/-- The stage of a partial reconfiguration that PR_STAT.STATE names ends (R272, R273, Table 8.3). CHECK: steps 2 and 3; WRITE:
step 4; VERIFY: steps 5 to 7. -/
def prStage (bad : Option (Fin 1024)) (s : State) : State :=
  match s.cfg.pr with
  | none => s
  | some (x, a) =>
    match s.getF R.CFGC_PR_STAT F.CFGC_PR_STAT_STATE with
    | 1 =>
      if !sectionHeaderOk s x a then prFail (readFlash s a 32) x 4
      else discardQueues ((readFlash s a 262176).setN R.CFGC_PR_STAT (2 + 65536 * min (queuedEntries s x) 0xFFFF)) x
    | 2 => (writeFrames s x (flashBytes s (a + 32) 262144)).setF R.CFGC_PR_STAT F.CFGC_PR_STAT_STATE 3
    | _ =>
      if (crc32 (flashBytes s (a + 32) 262144)).toNat != flashWord s (a + 12) then prFail s x 5
      else if bad.isSome || !framesMatch s x (flashBytes s (a + 32) 262144) then prFail s x 6
      else
        let s1 := setIslSrc (setVerified (freshOutputs s x) x true) x a
        ({ s1 with cfg := { s1.cfg with pr := none } }.setF R.CFGC_PR_STAT F.CFGC_PR_STAT_STATE 4).irqBit 0x020 0

/-- A partial reconfiguration goes on: the island's domain is on; while the island is under test it waits (R529). -/
def prLive (s : State) : Bool :=
  match s.cfg.pr with
  | none => false
  | some (x, _) => live s && domOn s x

/-- PR_COMPLETE (R272, R273): the stages that are left, or with `one` the present stage alone. -/
def execPrComplete (bad : Option (Fin 1024)) (one : Bool) (s : State) : Out :=
  whenCan s (prLive s) (if one then prStage bad s else prStage bad (prStage bad (prStage bad s)))

/-! ### Blotter -/

/-- Eligible for scrubbing (R279). -/
def scrubbable (s : State) (x : Nat) : Bool := domOn s x && !fenced s x && verified s x

/-- The first eligible island from `x` on. -/
def scrubFrom (s : State) (x : Nat) : Option Nat := firstWhere (fun y => decide (x ≤ y) && scrubbable s y) (List.range 48)

/-- Position of the Blotter. -/
def blotAt (s : State) (x f : Nat) : State :=
  (s.setF R.BLOT_STAT F.BLOT_STAT_ISL x).setF R.BLOT_STAT F.BLOT_STAT_FRAME f

def blotRunning (s : State) : Bool := s.flag R.BLOT_STAT F.BLOT_STAT_RUNNING

/-- Start scrubbing with a new cycle (R280). -/
def blotStart (s : State) : State :=
  let s1 := (blotAt s ((scrubFrom s 0).getD 0) 0).setF R.BLOT_STAT F.BLOT_STAT_RUNNING 1
  { s1 with cfg := { s1.cfg with pause := false, skip := false, reload := false } }

/-- End of a frame: stop when RUN is clear (R280). -/
def blotFrameEnd (s : State) : State :=
  if s.flag R.BLOT_CTRL F.BLOT_CTRL_RUN then s else s.setF R.BLOT_STAT F.BLOT_STAT_RUNNING 0

/-- End of a cycle, after the last eligible island: count it, and pause for the interval (R279). -/
def blotCycleEnd (s : State) : State :=
  let s1 := (s.wrapF R.BLOT_CYCLES F.BLOT_CYCLES_N 1).irqBit 0x021 0
  let s2 := blotAt s1 ((scrubFrom s1 0).getD 0) 0
  { s2 with cfg := { s2.cfg with pause := s2.getF R.BLOT_CTRL F.BLOT_CTRL_INTERVAL != 0 } }

/-- Move on from frame `f` of island `x` (R279, R284). -/
def blotNext (s : State) (x f : Nat) : State :=
  let s1 := { s with cfg := { s.cfg with skip := false, reload := false } }
  blotFrameEnd (if scrubbable s1 x && decide (f < 639) then blotAt s1 x (f + 1)
    else match scrubFrom s1 (x + 1) with
      | some y => blotAt s1 y 0
      | none => blotCycleEnd s1)

def cfgKey (x f w : Nat) : Nat := x * 20480 + f * 32 + w
def cfgGet (s : State) (x f w : Nat) : Nat := tabGet (fun _ => 0) s.cfg.mem (cfgKey x f w)
def cfgSet (s : State) (x f w v : Nat) : State :=
  { s with cfg := { s.cfg with mem := tabSet (fun _ => 0) s.cfg.mem (cfgKey x f w) v } }

/-- Bits upset in words of a frame. -/
def upsetFrame (s : State) (x f : Nat) : List (Fin 32 × BitVec 72) → State
  | [] => s
  | (w, m) :: l => upsetFrame (cfgSet s x f w (Nat.xor (cfgGet s x f w) m.toNat)) x f l

def isCorrectable (w : Nat) : Bool :=
  match eccClass w with
  | .correctable _ => true
  | _ => false

/-- A correctable word is rewritten, counted and recorded (R281). -/
def scrubWord (x f : Nat) (s : State) (w : Nat) : State :=
  let v := cfgGet s x f w
  if isCorrectable v then
    ((cfgSet s x f w (eccWord (eccData v))).satF R.BLOT_CORR_CNT F.BLOT_CORR_CNT_N 1).setN R.BLOT_LAST_CORR
      (f + 65536 * x + 16777216 * w)
  else s

def setLastUncorr (s : State) (x f outcome : Nat) : State :=
  s.setN R.BLOT_LAST_UNCORR (f + 65536 * x + 16777216 * outcome)

/-- A frame with an uncorrectable word (R282). When the island was fenced during the read its reload is abandoned (R284). -/
def uncorrFrame (s : State) (x f : Nat) : State :=
  let s1 := ((setVerified s x false).satF R.BLOT_UNCORR_CNT F.BLOT_UNCORR_CNT_N 1).irqBit 0x021 2
  if s.mapBit R.CFGC_CRIT0 4 x then halt (setLastUncorr s1 x f 4) 4 (x + 65536 * f) 0
  else if !s.flag R.BLOT_CTRL F.BLOT_CTRL_RELOAD then
    blotNext (setLastUncorr s1 x f 1) x (if s.cfg.skip then 639 else f)
  else if s.cfg.skip then blotNext (setLastUncorr s1 x f 5) x 639
  else { s1 with cfg := { s1.cfg with reload := true } }

/-- The Blotter's clock and domain are on, in Run (R279, R280). -/
def blotLive (s : State) : Bool := s.phase == .run && domOn s 62 && genRuns s 64 && blotRunning s

/-- The frame in progress: the one BLOT.STAT names, or the first of the next eligible island; none when no island is
eligible (R279, R284). -/
def blotPos (s : State) : Option (Nat × Nat) :=
  let x0 := s.getF R.BLOT_STAT F.BLOT_STAT_ISL
  if s.cfg.skip || scrubbable s x0 then some (x0, s.getF R.BLOT_STAT F.BLOT_STAT_FRAME)
  else match scrubFrom s x0 with
    | some y => some (y, 0)
    | none => (scrubFrom s 0).map (fun y => (y, 0))

/-- The Blotter has read frame `f` of island `x` (R281, R282, R284): when the island was fenced during the read no correction is
written, and the next eligible island comes. -/
def blotRead (s : State) (x f : Nat) : State :=
  let ws := (List.range 32).map (cfgGet s x f)
  if ws.any (fun w => !eccUsable w) then uncorrFrame s x f
  else if s.cfg.skip then blotNext s x 639
  else if ws.any isCorrectable then blotNext (((List.range 32).foldl (scrubWord x f) s).irqBit 0x021 1) x f
  else blotNext s x f

/-- The Blotter reads a frame (R279 to R282, R284). -/
def frameReadOnce (flips : List (Fin 32 × BitVec 72)) (s : State) : Out :=
  match blotPos s with
  | none => .next s
  | some (x, f) =>
    whenCan s (blotLive s && !s.cfg.pause && !s.cfg.reload) (blotRead (upsetFrame (blotAt s x f) x f flips) x f)

/-- BLOTTER_FRAME_READ: also as a further halt cause (R282, R564). -/
def execBlotterFrameRead (flips : List (Fin 32 × BitVec 72)) (s : State) : Out :=
  orAlso (frameReadOnce flips) s

/-- BLOTTER_INTERVAL_EXPIRE (R279). -/
def execBlotterIntervalExpire (s : State) : Out :=
  whenCan s (blotLive s && s.cfg.pause)
    { (blotAt s ((scrubFrom s 0).getD 0) 0) with cfg := { s.cfg with pause := false } }

/-- BLOTTER_RELOAD (R283, R285): no partial reconfiguration holds the flash. `flips`: bits upset before the readback. -/
def execBlotterReload (flips : List (Fin 32 × BitVec 72)) (s : State) : Out :=
  let x := s.getF R.BLOT_STAT F.BLOT_STAT_ISL
  let f := s.getF R.BLOT_STAT F.BLOT_STAT_FRAME
  let want := words8 32 (flashBytes s (islSrcOf s x + 32 + 256 * f) 256)
  let s0 := readFlash s (islSrcOf s x + 32 + 256 * f) 256
  let s1 := { s0 with cfg := { s0.cfg with mem := tabPut (fun _ => 0) s.cfg.mem (cfgKey x f 0) (want.map eccWord) } }
  let s2 := upsetFrame s1 x f flips
  let good := (List.range 32).map (cfgGet s2 x f) == want.map eccWord
  let t :=
    if good then
      ((setLastUncorr (setVerified s2 x true) x f 2).satF R.BLOT_RELOAD_CNT F.BLOT_RELOAD_CNT_N 1).irqBit 0x021 3
    else ((setLastUncorr s2 x f 3).satF R.BLOT_RELFAIL_CNT F.BLOT_RELFAIL_CNT_N 1).irqBit 0x021 4
  whenCan s (blotLive s && s.cfg.reload && s.cfg.pr.isNone) (blotNext t x f)

/-- The Blotter meets a fence that has just applied to island `x`, which stood as `old` has it (R284). -/
def blotFence (old s : State) (x : Nat) : State :=
  if blotRunning s && !s.cfg.pause then
    if s.cfg.reload then
      (if s.getF R.BLOT_STAT F.BLOT_STAT_ISL = x then
        blotNext (setLastUncorr s x (s.getF R.BLOT_STAT F.BLOT_STAT_FRAME) 5) x 639 else s)
    else match blotPos old with
      | some (y, f) => if y = x then { (blotAt s x f) with cfg := { s.cfg with skip := true } } else s
      | none => s
  else s

/-- What a performed write of the BLOT page does (R280, R281, Table 8.8). -/
def blotWrite (s : State) (off : Nat) (w : Word) : WOut :=
  if off = 0x040 then
    let s1 := s.setReg R.BLOT_CTRL w
    .done (if bitOf w.toNat 0 then (if blotRunning s1 || s1.phase != .run then s1 else blotStart s1)
      else if blotRunning s1 && (s1.cfg.pause || (!s1.cfg.reload && (blotPos s1).isNone)) then s1.setF R.BLOT_STAT F.BLOT_STAT_RUNNING 0
      else s1)
  else if off = 0x064 then
    .done (if bitOf w.toNat 0 then
      [R.BLOT_CORR_CNT, R.BLOT_UNCORR_CNT, R.BLOT_RELOAD_CNT, R.BLOT_RELFAIL_CNT, R.BLOT_LAST_CORR,
        R.BLOT_LAST_UNCORR].foldl (fun t a => t.setN a 0) s
    else s)
  else .done (s.setReg (0x21000 + off) w)

end Sys2Proof.Machine
end

