-- ==== Sys2Proof/Machine/LaneState.lean ====
section
/-! DEFINITION. Serial lanes: their states, the settings in force, and the start of training (R444 to R451, R457). -/

namespace Sys2Proof.Machine

def laneOf (s : State) (n : Nat) : Lane := tabGet (fun _ => noLane) s.dl.lane n
def setLane (s : State) (n : Nat) (l : Lane) : State :=
  { s with dl := { s.dl with lane := tabSet (fun _ => noLane) s.dl.lane n l } }

/-- State of a lane (Table 15.3): 0 DISABLED, 1 HUNT, 2 CAPS, 3 RATE, 4 EQ, 5 READY, 6 UP. -/
def laneSt (s : State) (n : Nat) : Nat := s.getF (R.LANE_STAT n) F.LANE_STAT_STATE
def setLaneSt (s : State) (n st : Nat) : State := s.setF (R.LANE_STAT n) F.LANE_STAT_STATE st
def laneUp (s : State) (n : Nat) : Bool := laneSt s n == 6
def laneRate (s : State) (n : Nat) : Nat := s.getF (R.LANE_STAT n) F.LANE_STAT_RATE

/-- Domain of a lane (R444). -/
def laneDom (n : Nat) : Nat := 53 + n / 2

/-- The lane works: no reset, no halt, its domain on. -/
def laneLive (s : State) (n : Nat) : Bool := live s && domOn s (laneDom n)

/-- Link encryption is enabled; the start-up settings have it off (R457). -/
def laneEnc (s : State) (n : Nat) : Bool := s.flag (R.LANE_ENC n) F.LANE_ENC_EN && (laneOf s n).su.isNone

/-- RATEMASK in force (Table 15.7, R457). -/
def laneMask (s : State) (n : Nat) : Nat :=
  match (laneOf s n).su with
  | some m => m
  | none => s.getF (R.LANE_CFG n) F.LANE_CFG_RATEMASK

/-- RX_EQ and EQ_TARGET in force. -/
def laneRxEq (s : State) (n : Nat) : Bool := (laneOf s n).su.isSome || s.flag (R.LANE_CFG n) F.LANE_CFG_RX_EQ
def laneEqTarget (s : State) (n : Nat) : Nat :=
  if (laneOf s n).su.isSome then 127 else s.getF (R.LANE_CFG n) F.LANE_CFG_EQ_TARGET

/-- Preset taps in force: the layout of TX and of TAPS is the same. -/
def lanePreset (s : State) (n : Nat) : Word :=
  if (laneOf s n).su.isSome then BitVec.ofNat 32 (48 * 256) else s.reg (R.LANE_TX n)

/-- HUNT at a rate, within a training: the transmitter takes the preset taps (Table 15.3, Equalisation). -/
def enterHunt (s : State) (n rate : Nat) : State :=
  let l := laneOf s n
  let s1 := (setLaneSt s n 1).setF (R.LANE_STAT n) F.LANE_STAT_RATE rate
  let s2 := s1.setReg (R.LANE_TAPS n) (lanePreset s n)
  setLane s2 n { l with run := 0, target := 0, pmask := 0, pflags := 0, eqDone := false, eq := noEq, ans := none, sent := 0 }

/-- A new training starts in HUNT at rate 0 (R449, R450, R455): no rate is struck, no partner is present. -/
def newTraining (s : State) (n : Nat) : State :=
  let s1 := (((s.setF (R.LANE_STAT n) F.LANE_STAT_PRESENT 0).setF (R.LANE_STAT n) F.LANE_STAT_DEGRADED 0).setF
    (R.LANE_STAT n) F.LANE_STAT_CAUSE 0).setF (R.LANE_EYE n) F.LANE_EYE_REQS 0
  enterHunt (setLane s1 n { laneOf s1 n with struck := 0 }) n 0

/-- DISABLED. -/
def laneOff (s : State) (n : Nat) : State :=
  setLane ((((setLaneSt s n 0).setF (R.LANE_STAT n) F.LANE_STAT_RATE 0).setF (R.LANE_STAT n) F.LANE_STAT_PRESENT 0).setF
    (R.LANE_STAT n) F.LANE_STAT_CAUSE 0) n noLane

/-- Line rate of a rate index in Mb/s (Table 15.1). -/
def rateMbs (r : Nat) : Nat := atD 0 [1250, 2500, 3125, 5000, 6250, 8000, 10000, 12500] r

/-- RATEMASK of the start-up settings for an item whose HI is `hi` (R457). -/
def startupMask (hi : Nat) : Nat :=
  (List.range 8).foldl (fun m r => if r = 0 ∨ rateMbs r ≤ hi then m + 2 ^ r else m) 0

/-- Steep starts the training of a lane with the start-up settings (R457). -/
def startupLane (s : State) (n hi : Nat) : State :=
  newTraining (setLane s n { noLane with su := some (startupMask hi) }) n

end Sys2Proof.Machine
end

