-- ==== Sys2Proof/Machine/Survey.lean ====
section
/-! DEFINITION. Steep: the start of a survey, its steps, and the wiring signature (03_steep_survey.md). The end of
Steep, which begins Germinate, is in Germinate.lean. -/

namespace Sys2Proof.Machine

/-! ### Signature block -/

def sigAddr (s : State) : Nat := hdrWord s 4

/-- Item `i` of the signature block (Table 3.5). -/
def sigItem (s : State) (i : Nat) : SurvItem :=
  let a := sigAddr s + 16 + 16 * i
  let w0 := flashWord s a
  ⟨bitsOf w0 0 8, bitOf w0 8, bitsOf w0 16 16, flashWord s (a + 4), flashWord s (a + 8), flashWord s (a + 12)⟩

def itemCode (it : SurvItem) : Nat := bitsOf it.param 16 4
def itemMask (it : SurvItem) : Nat := bitsOf it.param 24 4

/-- INDEX in range and PARAM well formed for the kind (Table 3.5, Table 3.6, R80). -/
def itemParamOk (it : SurvItem) : Bool :=
  match it.kind with
  | 1 => decide (it.idx ≤ 12) && it.param == 0
  | 2 => decide (it.idx ≤ 7) && it.param == 0
  | 3 => decide (it.idx < 336) && it.param == itemCode it * 65536 + itemMask it * 16777216 && itemCode it != 0 &&
      itemMask it != 0
  | 4 => decide (it.idx < 336) && it.param == it.param % 65536 + itemCode it * 65536 + itemMask it * 16777216 &&
      itemCode it != 0 && itemMask it != 0 && decide (itemMask it < 8) && decide (0x6666 ≤ it.param % 65536) &&
      decide (it.param % 65536 ≤ 0xFD71)
  | 5 => decide (it.idx ≤ 7) && it.param == it.param % 4 + bitsOf it.param 16 8 * 65536
  | 6 => decide (it.idx < 336) && it.param == 0
  | _ => false

/-- An item passes its part of R80; `w0` is its first word. -/
def itemOk (w0 : Nat) (it : SurvItem) : Bool := bitsOf w0 9 7 == 0 && decide (it.lo ≤ it.hi) && itemParamOk it

/-- No two items with the same KIND and INDEX (R80). -/
def itemsDistinct : List SurvItem → Bool
  | [] => true
  | it :: l => l.all (fun j => !(j.kind == it.kind && j.idx == it.idx)) && itemsDistinct l

def sigCount (s : State) : Nat := flashWord s (sigAddr s + 4)

/-- The signature block passes its check (R80). -/
def signatureOk (s : State) : Bool :=
  let a := sigAddr s
  let n := sigCount s
  flashWord s a == 0x53470001 && decide (n ≤ 2048) && decide (flashWord s (a + 12) < 2 ^ 20) &&
  (crc32 (flashBytes s (a + 16) (16 * n))).toNat == flashWord s (a + 8) &&
  (List.range n).all (fun i => itemOk (flashWord s (a + 16 + 16 * i)) (sigItem s i)) &&
  itemsDistinct ((List.range n).map (sigItem s))

/-- REF0_KHZ of the signature block header (Table 3.4). -/
def ref0Khz (s : State) : Nat := bitsOf (flashWord s (sigAddr s + 12)) 0 20

/-! ### PLL0 for the survey -/

/-- FBDIV for REFDIV `m` and OUT0 `o`, when R77's conditions hold. -/
def steepFb (khz m o : Nat) : Option Nat :=
  if 5000 * m ≤ khz ∧ khz ≤ 100000 * m ∧ 400000 * o * m % khz = 0 ∧ 16 ≤ 400000 * o * m / khz ∧
      400000 * o * m / khz ≤ 511 then
    some (400000 * o * m / khz) else none

/-- The first setting in ascending REFDIV and, for each, ascending OUT0 (R77): (REFDIV, OUT0, FBDIV). -/
def steepSetting (khz : Nat) : Option (Nat × Nat × Nat) :=
  ((List.range 63).foldl (fun acc m => acc ++ (List.range 9).filterMap
    (fun o => (steepFb khz (m + 1) (o + 8)).map (fun f => (m + 1, o + 8, f)))) []).head?

/-- The survey's settings of the REF0 monitor and PLL0 (R77). DESIGN CHOICE (log entry 28): where no setting of PLL0 meets the
conditions, the REF0 monitor keeps its reset values too. -/
def steepClocks (s : State) (khz : Nat) : State :=
  match (if 5000 ≤ khz ∧ khz ≤ 400000 then steepSetting khz else none) with
  | none => s.setF R.SURV_STATUS F.SURV_STATUS_CLK_OSC 1
  | some (m, o, f) =>
    let s1 := ((s.setN (R.CLK_REF_CTRL 0) 0x201).setN (R.CLK_REF_EXP 0) ((khz * 16384 + 25000) / 50000)).setN
      (R.CLK_REF_TOL 0) 25000
    let s2 := (((s1.setN (R.CLK_PLL_REFSEL 0) 0x200001).setN (R.CLK_PLL_LOCK 0) 100).setN (R.CLK_PLL_DIV 0)
      (m + 65536 * f)).setN (R.CLK_PLL_OUTDIV 0) o
    let s3 := pllAcquire (s2.setN (R.CLK_PLL_CTRL 0) 1) 0
    { s3 with surv := { s3.surv with usePll := true } }

/-- Generator 58 runs from the oscillator with D = 1 (R77, R386); leaving PLL0.OUT0 is a change of its source (R387). -/
def steepGenBack (s : State) : State :=
  if genMhz s 58 = 50 ∧ genActive s 58 = 1 then s else setGen s 58 1 0 50

/-- At the end of Steep PLL0 and the REF0 monitor return to their reset values, PLL0 DISABLED, and generator 58 to the
oscillator (R77, R170, R386). -/
def steepClocksBack (s : State) : State :=
  let drop := fun (e : Nat × Word) => (0x4100 ≤ e.1 && e.1 < 0x4140) || (0x4040 ≤ e.1 && e.1 < 0x4050)
  let t := steepGenBack s
  setPllX (setDisq (setGoodWin { t with regs := t.regs.filter (fun e => !drop e) } 0 0) 0 0) 0 noPll

/-! ### Steps -/

def stepDone (s : State) (n : Nat) : Bool := bitOf s.surv.done n
def markStep (s : State) (n : Nat) : State :=
  { s with surv := { s.surv with done := Nat.lor s.surv.done (2 ^ n) } }

/-- The header or the signature block failed its check (R81). -/
def checkFailed (s : State) : Bool :=
  s.flag R.SURV_STATUS F.SURV_STATUS_HEADER_BAD || s.flag R.SURV_STATUS F.SURV_STATUS_SIG_BAD

/-- The random generator's start-up health test (XTS.STAT): RNG_OK says whether it passed, which the specification
leaves open, so it is a free value (log entry 91). -/
def rngOk (s : State) : State :=
  let (v, s1) := s.free 2
  s1.setF R.XTS_STAT F.XTS_STAT_RNG_OK v

/-- The header and the signature block both pass their checks (R80, R259, R260). -/
def imageOk (s : State) : Bool := headerOk s && signatureOk s

/-- The REF0 frequency that the signature block gives, 0 for none (Table 3.4, R77). -/
def surveyKhz (s : State) : Nat := if imageOk s then ref0Khz s else 0

/-- The items of the signature block in flash. -/
def sigItems (s : State) : List SurvItem := (List.range (sigCount s)).map (sigItem s)

/-- The lanes that carry a lane item, bit n (R459). -/
def sigLanes (s : State) : Nat :=
  if imageOk s then (sigItems s).foldl (fun m it => if it.kind = 5 then Nat.lor m (2 ^ it.idx) else m) 0 else 0

/-- STEEP_START (R36, R63, R64, R77, R459): the reset has been released for 40 ms. The sequencer takes generator 58, and with
a REF0 frequency the monitor of REF0 and PLL0. -/
def execSteepStart (s : State) : Out :=
  let old := s.regN R.SURV_RST_CAUSE
  let kept := old - Nat.land old s.pwr.causeRead
  let s1 := s.setN R.SURV_RST_CAUSE (Nat.lor kept s.pwr.causeNew)
  let s2 := { s1 with
    phase := .steep
    pwr := { s1.pwr with causeNew := 0, causeRead := 0 }
    surv := { State.reset.surv with t0 := s1.root.ts, lanes := sigLanes s1 } }
  whenCan s (s.phase == .reset && allGood s && s.pwr.rstN)
    (rngOk (steepClocks ((List.range 7).foldl resenseBank s2) (surveyKhz s1)))

/-- Whether item `i` of the signature has its measurement. -/
def itemFixed (s : State) (i : Nat) : Bool := tabGet (fun _ => false) s.surv.fixed i
def itemRes (s : State) (i : Nat) : SurvRes := tabGet (fun _ => noRes) s.surv.res i

def setRes (s : State) (i : Nat) (r : SurvRes) : State :=
  { s with surv := { s.surv with
    res := tabSet (fun _ => noRes) s.surv.res i r
    fixed := tabSet (fun _ => false) s.surv.fixed i true } }

/-- Outcome of a value against the limits (R79): MATCH, LOW, HIGH. -/
def limitOutcome (it : SurvItem) (v : Nat) : Nat := if v < it.lo then 1 else if it.hi < v then 2 else 0

/-- From the end of step 1 Steep trains the lanes that carry a lane item (R78, Table 3.3); without a reference in the
range of R445 the items report SKIPPED (R457). -/
def steepLanes (khz : Nat) : Nat → List SurvItem → State → State
  | _, [], s => s
  | i, it :: l, s =>
    steepLanes khz (i + 1) l
      (if it.kind ≠ 5 then s
       else if 25000 ≤ khz ∧ khz ≤ 312500 then startupLane s it.idx it.hi
       else setRes s i ⟨0, 5, 0, 0⟩)

/-- STEEP_HEADER_CHECK (R80, R81, R259, R260): step 1. With a good header the bank voltages are declared; with a good
signature the items are taken and lane training begins (Table 3.3). The declared voltage moves a bank's thresholds (R186). -/
def execSteepHeaderCheck (s : State) : Out :=
  let s0 := markStep (readFlash s 0 256) 1
  let t :=
    if headerOk s then
      let s1 := (List.range 7).foldl (fun t k => resenseBank
        (t.setF (R.NIB_BANK_STAT k) F.NIB_BANK_STAT_VCCIO (bitsOf (hdrWord s 11) (2 * k) 2)) k) s0
      let s1 := readFlash s1 (sigAddr s) (16 + 16 * sigCount s)
      if signatureOk s then
        let items := sigItems s
        steepLanes (ref0Khz s) 0 items ({ s1 with surv := { s1.surv with items := items } }.setN R.SURV_ITEM_CNT items.length)
      else s1.setF R.SURV_STATUS F.SURV_STATUS_SIG_BAD 1
    else s0.setF R.SURV_STATUS F.SURV_STATUS_HEADER_BAD 1
  whenCan s (s.phase == .steep && !stepDone s 1) t

/-- STEEP_PLL0_LOCK_TIMEOUT (R77, R385): generator 58 runs from the oscillator at 50 MHz. -/
def execSteepPll0LockTimeout (s : State) : Out :=
  let t := steepGenBack s
  whenCan s (s.phase == .steep && s.surv.usePll && !pllRuns s 0)
    ({ t with surv := { t.surv with usePll := false } }.setF R.SURV_STATUS F.SURV_STATUS_CLK_OSC 1)

/-- A table of a list's values from key 0. -/
def listTab (l : List Nat) : Tab Nat := tabPut (fun _ => 0) [] 0 l

/-- Every item of a kind takes its result from the values measured. -/
def fixValues (kind : Nat) (mv : List Nat) : Nat → List SurvItem → State → State
  | _, [], s => s
  | i, it :: l, s =>
    fixValues kind mv (i + 1) l (if it.kind = kind then setRes s i ⟨0, limitOutcome it (atD 0 mv it.idx), atD 0 mv it.idx, 0⟩ else s)

/-- The RAIL item of bank `k`'s VCCIO does not match (R86). -/
def bankSkipped (s : State) (k : Nat) : Bool :=
  ((List.range s.surv.items.length).zip s.surv.items).any
    (fun e => e.2.kind == 1 && e.2.idx == 3 + k && itemFixed s e.1 && (itemRes s e.1).out != 0)

/-- Load and cable items of skipped banks report SKIPPED (R86). -/
def skipBanks : Nat → List SurvItem → State → State
  | _, [], s => s
  | i, it :: l, s =>
    skipBanks (i + 1) l (if (it.kind == 3 || it.kind == 4) && bankSkipped s (it.idx / 48) then setRes s i ⟨0, 5, 0, 0⟩ else s)

/-- RAIL_SURVEY (R69, R86): step 2. -/
def execRailSurvey (mv : List Nat) (s : State) : Out :=
  let s1 := markStep { s with surv := { s.surv with rails := listTab mv } } 2
  let s2 := fixValues 1 mv 0 s.surv.items s1
  whenCan s (s.phase == .steep && stepDone s 1 && !stepDone s 2 && mv.length == 13)
    (skipBanks 0 s.surv.items s2)

/-- FSENSE_SURVEY (R69): step 3; the ball voltage times 16. -/
def execFsenseSurvey (mv : List Nat) (s : State) : Out :=
  let field := mv.map (· * 16)
  let s1 := markStep { s with surv := { s.surv with fsense := listTab field } } 3
  whenCan s (s.phase == .steep && stepDone s 2 && !stepDone s 3 && mv.length == 8)
    (fixValues 2 field 0 s.surv.items s1)

/-- NIB_IDLE_SURVEY: step 4, no stimulus (R66, R73). -/
def execNibIdleSurvey (mv : List Nat) (s : State) : Out :=
  let s1 := markStep { s with surv := { s.surv with idle := listTab mv } } 4
  whenCan s (s.phase == .steep && stepDone s 3 && !stepDone s 4 && mv.length == 336)
    (fixValues 6 mv 0 s.surv.items s1)

/-! ### Load classification (R70 to R72) -/

/-- A reading reaches the compliance voltage code × VCCIO / 16 (R67). -/
def reaches (code vccio v : Nat) : Bool := decide (code * vccio ≤ 16 * v)

/-- The readings at which the run stops: index 0 to 2 for 1 mA, 100 µA, 10 µA (R70). -/
def stopAt (code vccio : Nat) : Nat → List (Nat × Nat) → Option (Nat × Nat × Nat)
  | _, [] => none
  | 2, (a, b) :: _ => some (2, a, b)
  | i, (a, b) :: l => if reaches code vccio a || reaches code vccio b then stopAt code vccio (i + 1) l else some (i, a, b)

/-- One of the first `n` pairs of readings falls by more than 2 % of compliance (R72). -/
def fallingRun (code vccio n : Nat) (readings : List (Nat × Nat)) : Bool :=
  (readings.take n).any (fun e => decide ((e.1 - e.2) * 1600 > 2 * code * vccio))

/-- Class and value of a run that does not fall and stops at `r`, with reading `mA` at 1.0 ms of 1 mA (R71). OPEN 0,
RESISTIVE 1 in Ω, SHORT 2, CAPACITIVE 3 in pF. DESIGN CHOICE (log entry 28): of the two 1 mA readings SHORT takes the one at
1.0 ms; a run that meets the conditions of OPEN and of SHORT is OPEN. -/
def classifyRun (code vccio v0 mA : Nat) (r : Nat × Nat × Nat) : Nat × Nat :=
  let (i, a, b) := r
  if i = 2 && reaches code vccio a && reaches code vccio b then (0, 0)
  else if mA < v0 + 20 then (2, 0)
  else if (b - a) * 1600 ≤ 2 * code * vccio then (1, (b - v0) * 10 ^ i)
  else (3, 1000 / 10 ^ i * 500 * 1000 / (b - a))

/-- Two runs agree in class and, for RESISTIVE and CAPACITIVE, within 5 % (R72). DESIGN CHOICE (log entry 28): 5 % of the
larger value. -/
def runsAgree (x y : Nat × Nat) : Bool :=
  x.1 == y.1 && (x.1 == 0 || x.1 == 2 || decide ((max x.2 y.2 - min x.2 y.2) * 20 ≤ max x.2 y.2))

/-- Index of the item of a kind and nib. -/
def findItem (s : State) (kind idx : Nat) : Option (Nat × SurvItem) :=
  firstWhere (fun e => e.2.kind == kind && e.2.idx == idx) ((List.range s.surv.items.length).zip s.surv.items)

/-- Result of a load item with a settled class (R79, R87). -/
def loadResult (it : SurvItem) (v0 : Nat) (unstable : Bool) (c : Nat × Nat) : SurvRes :=
  let out := if unstable then 4 else if !bitOf (itemMask it) c.1 then 3
    else if c.1 = 1 || c.1 = 3 then limitOutcome it c.2 else 0
  ⟨c.1, out, c.2, v0⟩

/-- Every reading stays within what a stimulus can hold a node to (R67, R582): 30 mV above the compliance voltage, or what the
field held it to in step 4 or holds it to now, read with the comparator's accuracy of 1 % of VCCIO and 10 mV (R186). -/
def readingsOk (s : State) (n code : Nat) (readings : List (Nat × Nat)) : Bool :=
  let vio := bankMv s (n / 48)
  let held := max (tabGet (fun _ => 0) s.surv.idle n) ((fieldMv s n).getD 0).toNat
  let top := max (code * vio * 100 + 48000) (held * 1600) + 16 * vio + 16000
  readings.all (fun e => decide (e.1 * 1600 ≤ top) && decide (e.2 * 1600 ≤ top))

/-- The survey stimuli go to nib `n`, one nib of a bank at a time (R66). -/
def surveyFree (s : State) (n : Nat) : Bool := s.surv.under.all (fun e => e.1 == n || e.1 / 48 != n / 48)
def beginSurvey (s : State) (n code : Nat) : State :=
  { s with surv := { s.surv with under := (n, code) :: s.surv.under.filter (fun e => e.1 != n) } }
/-- The survey of nib `n` ends, and its pull-down is connected again (R68). -/
def endSurvey (s : State) (n : Nat) : State :=
  { s with surv := { s.surv with under := s.surv.under.filter (fun e => e.1 != n) } }

/-- LOAD_SURVEY_RUN (R66, R70 to R72, R86): a run of a marked nib; the first clean run settles the class, after a
falling reading two consecutive runs must agree, and four runs without that are UNSTABLE. Falling runs are kept as
class 15. From its first run to its result the nib is under survey, its pull-down disconnected (R66, R68). DESIGN CHOICE (log
entry 28): a clean first run needs no second; two clean runs of one class more than 5 % apart lead to a further run; with
UNSTABLE go the class and value of the latest run that did not fall, or OPEN and 0. -/
def execLoadSurveyRun (nib : Fin 336) (readings : List (Nat × Nat)) (s : State) : Out :=
  match findItem s 3 nib with
  | none => .next s
  | some (i, it) =>
    let vio := bankMv s (nib.val / 48)
    match stopAt (itemCode it) vio 0 readings with
    | none => .next s
    | some r =>
      let v0 := tabGet (fun _ => 0) s.surv.idle nib
      let old := tabGet (fun _ => []) s.surv.runs nib
      let c := if fallingRun (itemCode it) vio (r.1 + 1) readings then (15, 0)
        else classifyRun (itemCode it) vio v0 (readings.headD (0, 0)).2 r
      let runs := c :: old
      let s1 := beginSurvey { s with surv := { s.surv with runs := tabSet (fun _ => []) s.surv.runs nib runs } } nib (itemCode it)
      let agrees := match old with
        | [] => true
        | p :: _ => p.1 != 15 && runsAgree p c
      let last := (firstWhere (fun x => x.1 != 15) runs).getD (0, 0)
      let t := if c.1 != 15 && agrees then endSurvey (setRes s1 i (loadResult it v0 false c)) nib
        else if 4 ≤ runs.length then endSurvey (setRes s1 i (loadResult it v0 true last)) nib
        else s1
      whenCan s (s.phase == .steep && stepDone s 4 && !itemFixed s i && surveyFree s nib && readingsOk s nib (itemCode it) readings)
        (readBack t nib)

/-! ### Cable length (R74) -/

/-- Length in mm from the sum of the 64 round trips in TDC LSBs: VF × c × t / 2. DESIGN CHOICE (log entry 28): rounded to the
nearest. -/
def cableMm (vf sum : Nat) : Nat :=
  let den := 65536 * 1000000 * 128 * 2 * 64
  (vf * 299792458 * sum + den / 2) / den

/-- Every load item of a bank has its result (Table 3.3: step 6 runs after step 5 in the same bank). -/
def bankLoadsDone (s : State) (k : Nat) : Bool :=
  ((List.range s.surv.items.length).zip s.surv.items).all (fun e => e.2.kind != 3 || e.2.idx / 48 != k || itemFixed s e.1)

/-- Result of a cable item from its 64 round trips and their end (R74, R79). DESIGN CHOICE (log entry 28): the averaged round
trip is rounded to the nearest LSB. -/
def cableResult (it : SurvItem) (shots : List Nat) (fin : CableEnd) : SurvRes :=
  let cls := match fin with
    | .open => 0 | .short => 1 | .none => 2
  let sum := if fin = .none then 0 else shots.foldl (· + ·) 0
  let mm := cableMm (it.param % 65536) sum
  ⟨cls, if !bitOf (itemMask it) cls then 3 else if cls = 2 then 0 else limitOutcome it mm, mm, (sum + 32) / 64⟩

def shotsOf (s : State) (n : Nat) : List Nat := tabGet (fun _ => []) s.surv.shots n

/-- CABLE_SURVEY (R16, R66 to R68, R74 to R77, R43): shots timed from PLL0 once it has locked, else from the oscillator. From its
first shot to its 64th the nib is under survey; the 64th gives the result, the end being the one that it shows (DESIGN
CHOICE, log entry 28). -/
def execCableSurvey (nib : Fin 336) (shots : List Nat) (fin : CableEnd) (s : State) : Out :=
  match findItem s 4 nib with
  | none => .next s
  | some (i, it) =>
    let taken := shotsOf s nib ++ shots
    let s1 := beginSurvey { s with surv := { s.surv with shots := tabSet (fun _ => []) s.surv.shots nib taken } } nib (itemCode it)
    let t := if taken.length = 64 then endSurvey (setRes s1 i (cableResult it taken fin)) nib else s1
    whenCan s (s.phase == .steep && stepDone s 4 && bankLoadsDone s (nib.val / 48) && !itemFixed s i && surveyFree s nib &&
        !shots.isEmpty && decide (taken.length ≤ 64) && (!s.surv.usePll || pllRuns s 0))
      (readBack t nib)

/-! ### Reading the results -/

/-- PHASE code (Table 3.2). -/
def phaseCode : Phase → Nat
  | .reset => 0 | .steep => 0 | .steepHold => 1 | .germinate => 2 | .germFail => 3 | .kiln => 4 | .kilnFail => 5
  | .run => 6 | .halt => 7

/-- Every item of a kind has its result. -/
def kindDone (s : State) (kind : Nat) : Bool :=
  ((List.range s.surv.items.length).zip s.surv.items).all (fun e => e.2.kind != kind || itemFixed s e.1)

/-- STEP of SURV.PHASE (Table 3.7). DESIGN CHOICE (log entry 38): of several steps in progress the lowest; 7 once steps 1 to 6 are
complete. -/
def steepStep (s : State) : Nat :=
  if s.phase != .steep then 0
  else if !stepDone s 1 then 1
  else if !stepDone s 2 then 2
  else if !stepDone s 3 then 3
  else if !stepDone s 4 then 4
  else if !kindDone s 3 then 5
  else if !kindDone s 4 then 6
  else 7

def survPhaseWord (s : State) : Nat := phaseCode s.phase + 16 * steepStep s

/-- What RES_SEL selects: (INDEX, KIND, CLASS, OUTCOME, VALUE, AUX) (Table 3.10, Table 3.11). DESIGN CHOICE (log entry 38): INDEX
of a raw value is its number within its kind. -/
def survSelected (s : State) : Nat × Nat × SurvRes :=
  let sel := s.regN R.SURV_RES_SEL
  let i := sel % 4096
  if bitOf sel 31 then
    if i ≤ 12 then (i, 1, ⟨0, 7, tabGet (fun _ => 0) s.surv.rails i, 0⟩)
    else if 16 ≤ i ∧ i ≤ 23 then (i - 16, 2, ⟨0, 7, tabGet (fun _ => 0) s.surv.fsense (i - 16), 0⟩)
    else if 256 ≤ i ∧ i ≤ 591 then (i - 256, 6, ⟨0, 7, tabGet (fun _ => 0) s.surv.idle (i - 256), 0⟩)
    else (0, 0, ⟨0, 0, 0, 0⟩)
  else match (s.surv.items.drop i).head? with
    | some it => (it.idx, it.kind, itemRes s i)
    | none => (0, 0, ⟨0, 0, 0, 0⟩)

def resKindWord (s : State) : Nat :=
  let (i, k, r) := survSelected s
  r.out + 16 * r.cls + 256 * k + 65536 * i

/-- An item matches: its outcome is MATCH, or it is a lane item with REQUIRED 0 whose partner is ABSENT (R79). -/
def itemMatches (it : SurvItem) (r : SurvRes) : Bool := r.out == 0 || (it.kind == 5 && r.out == 6 && !bitOf it.param 0)

/-- Items that mismatch, in ascending order: they do not match and are not INFO_ONLY (R79, R87, Table 3.5). Fixed at the
end of Steep. -/
def mismatches (s : State) : List Nat :=
  ((List.range s.surv.items.length).zip s.surv.items).filterMap
    (fun e => if !itemMatches e.2 (itemRes s e.1) && !e.2.info then some e.1 else none)

/-- MIS_ITEM: the N-th mismatch, or 0xFFF (Table 3.10). -/
def misItemWord (s : State) : Nat :=
  if s.flag R.SURV_STATUS F.SURV_STATUS_DONE then atD 0xFFF (mismatches s) (s.regN R.SURV_MIS_SEL) else 0xFFF

/-- Microseconds since the present phase began (R84): oscillator cycles of 20 ns. -/
def phaseUs (s : State) : Nat := (s.root.ts + 2 ^ 48 - s.surv.t0) % 2 ^ 48 / 50 % 2 ^ 32

end Sys2Proof.Machine
end

