-- ==== Sys2Proof/Machine/Capture.lean ====
section
/-! DEFINITION. The capture engine and the Inkwell (09_capture_inkwell.md). The front-end queue takes records on capture
edges; the write port moves words from it into the Inkwell on edges of generator 56. -/

namespace Sys2Proof.Machine

/-! ### Counts, pointers and registers -/

def spillOn (s : State) : Bool := s.flag R.INK_CTRL F.INK_CTRL_SPILL_EN
def spillSize (s : State) : Nat := s.getF R.INK_SPILL_SIZE F.INK_SPILL_SIZE_BLOCKS
def spillBusy (s : State) : Bool := s.flag R.CAP_STAT F.CAP_STAT_SPILL_BUSY
def throttling (s : State) : Bool := s.flag R.CAP_STAT F.CAP_STAT_THROTTLING
def inkWr (s : State) : Nat := s.getF R.INK_WR F.INK_WR_WORD

/-- Oldest Inkwell block still whole, counted since ARM (R302). -/
def oldestBlock (s : State) : Nat :=
  if inkWr s % 512 = 0 then s.cap.blocks - 512 else s.cap.blocks - 511

/-- Spill blocks whose every line is acknowledged (R304). -/
def spillDone (s : State) : Nat :=
  match s.cap.spOut with
  | [] => s.cap.spIss / 64
  | n :: _ => n / 64

/-- Oldest spill block still whole. -/
def oldestSpill (s : State) : Nat := (s.cap.spIss + 63) / 64 - spillSize s

/-- The pointer registers follow the counts (R302, R304). -/
def inkSync (s : State) : State :=
  let o := oldestBlock s
  let s1 := ((s.setN R.INK_OLDEST (o % 512)).setN R.INK_RD (s.cap.freed % 512)).setN R.INK_FILL
    ((s.cap.blocks - o) * 512 + inkWr s % 512)
  if spillOn s then
    ((s1.setN R.INK_SPILL_WR (spillDone s % spillSize s)).setN R.INK_SPILL_RD (s.cap.spFreed % spillSize s)).setN
      R.INK_SPILL_OLDEST (oldestSpill s % spillSize s)
  else s1

/-! ### The front-end queue -/

def capRoom (s : State) (n : Nat) : Bool := decide (s.cap.fq.length + n ≤ 512)

/-- A word enters the queue. -/
def pushWord (s : State) (w k : Nat) : State :=
  { s with cap := { s.cap with fq := s.cap.fq ++ [(w, k)], bpos := (s.cap.bpos + 1) % 512 } }

/-- A record finds the queue full (R301). -/
def recordLost (s : State) : State :=
  let s1 := (s.satF R.INK_LOST F.INK_LOST_N 1).irqBit 0x030 2
  { s1 with cap := { s1.cap with lost := s1.cap.lost + 1 } }

/-- Header word of a FULL segment (Table 9.4). -/
def fullHeader (t n : Nat) : Nat := 8 * 2 ^ 60 + 2 ^ 48 * n + t

/-- Words that a run of bytes needs. -/
def wordsFor (n : Nat) : Nat := (n + 7) / 8

/-- Bytes of a frame of the capture in progress (R299). -/
def frameF (s : State) : Nat := s.getF R.CAP_STAT F.CAP_STAT_FRAME

/-- Words stored after the header of the segment at word `i`. -/
def afterHdr (s : State) (i : Nat) : Nat := (inkWr s + 2 ^ 18 - i - 1) % 2 ^ 18

/-- The header of a closed segment is not needed any more once all its words are stored. -/
def hdrDone (s : State) : State :=
  match s.cap.hdr with
  | some (i, n) => if n ≠ 0 ∧ wordsFor (n * frameF s) ≤ afterHdr s i then { s with cap := { s.cap with hdr := none } } else s
  | none => s

/-- Give the header of the open segment its COUNT, in the queue or in the Inkwell (R299). -/
def fillHeader (s : State) (t n : Nat) : State :=
  match s.cap.hdr with
  | some (i, 0) => hdrDone { s with cap := { s.cap with
      ink := tabSet (fun _ => 0) s.cap.ink i (eccWord (fullHeader t n)), hdr := some (i, n) } }
  | _ => { s with cap := { s.cap with
      fq := s.cap.fq.map (fun e => if bitOf e.2 1 then (fullHeader t n, e.2 + 6) else e) } }

/-- A segment closes: its last word is padded with zero and its header written (R299). -/
def closeSeg (s : State) : State :=
  match s.cap.seg with
  | none => s
  | some (t, n, bs) =>
    let s1 := if bs.isEmpty then s else pushWord s (leNat bs) 0
    let s2 := fillHeader s1 t n
    { s2 with cap := { s2.cap with seg := none } }

/-- Mark word (Table 9.5). -/
def markWord (kind arg t : Nat) : Nat := 10 * 2 ^ 60 + 2 ^ 56 * kind + 2 ^ 48 * arg + t

/-- A MARK of time `t` enters the queue when there is room (R299 closes a segment before it). -/
def tryMark (s : State) (t kind arg k : Nat) : State × Bool :=
  let s1 := closeSeg s
  if capRoom s1 1 then
    let s2 := pushWord s1 (markWord kind arg t) k
    ({ s2 with cap := { s2.cap with hi := some (t / 2 ^ 36) } }, true)
  else (s1, false)

/-- The MARK LOST that is due (R301). -/
def lostMark (s : State) (t : Nat) : State :=
  let u := (tryMark s t 4 (min s.cap.lost 255) 0).1
  { u with cap := { u.cap with lost := 0 } }

/-- GAP and LOST marks that are due come before the next record, of time `t` (R301, R313). -/
def prelude (s : State) (t : Nat) : State :=
  let s1 := if s.cap.gap then
      match tryMark s t 3 0 0 with
      | (u, true) => { (u.irqBit 0x030 3) with cap := { u.cap with gap := false } }
      | (u, false) => u
    else s
  if 0 < s1.cap.lost ∧ s1.cap.fq.length + 2 ≤ 512 then lostMark s1 t else s1

/-- Write a MARK of the next capture edge, or lose it (R297, R301). -/
def mark (s : State) (kind arg k : Nat) : State × Bool :=
  match tryMark (prelude s (edgeTs s)) (edgeTs s) kind arg k with
  | (t, true) => (t, true)
  | (t, false) => (recordLost t, false)

/-- TRANS word (Table 9.4). -/
def transWord (g lev evt sub t : Nat) : Nat :=
  2 ^ 62 + 2 ^ 56 * g + 2 ^ 48 * lev + 2 ^ 40 * evt + 2 ^ 36 * sub + t % 2 ^ 36

/-- `n` TIME words of time `t`. -/
def pushTime : Nat → State → Nat → State
  | 0, s, _ => s
  | n + 1, s, t =>
    let u := pushWord s (9 * 2 ^ 60 + t) 0
    pushTime n { u with cap := { u.cap with hi := some (t / 2 ^ 36) } } t

/-- Write a TRANS record of time `t`, with the TIME word it may need; a TIME word that ends a block is repeated at the start of
the next one (R297, R298, R300). -/
def pushTrans (s : State) (g lev evt sub t : Nat) : State :=
  let s1 := prelude s s.cap.ts
  let time := if s1.cap.bpos = 0 then 1
    else if s1.cap.hi ≠ some (t / 2 ^ 36) then (if s1.cap.bpos = 511 then 2 else 1) else 0
  if capRoom s1 (time + 1) then pushWord (pushTime time s1 t) (transWord g lev evt sub t) 0
  else recordLost s1

/-- Padding words to the end of a block (Table 9.4). -/
def padBlock : Nat → State → State
  | 0, s => s
  | n + 1, s => padBlock n (pushWord s 0 0)

/-- Words of whole bytes enter the queue; what fills no word stays. -/
def pushBytes : Nat → State → List Byte → State × List Byte
  | 0, s, bs => (s, bs)
  | n + 1, s, bs => if bs.length < 8 then (s, bs) else pushBytes n (pushWord s (leNat (bs.take 8)) 0) (bs.drop 8)

/-- Groups enabled, ascending. -/
def groupsOn (s : State) : List Nat := (List.range 50).filter (groupOn s)

/-- The channels of group `g` whose samples carry the count of the present edge, bit by bit: those of a double-edge group, and
those that pass no synchroniser (R289, R290). -/
def ownMask (s : State) (g : Nat) : Nat :=
  ((List.range 8).filter (fun i => groupDe s g || chanOwn s (8 * g + i))).foldl (fun n i => n + 2 ^ i) 0

/-- The stamp of a frame: of values that have all passed a synchroniser, the count of the edge minus 2 (R289); a frame that also
holds values of the edge itself carries the count of the edge (log entry 43). -/
def frameTs (s : State) : Nat := if (groupsOn s).all (fun g => ownMask s g == 0) then emergedTs s else s.cap.ts

/-- Store a frame in the open segment, or in a new one (R299); a GAP mark that is due closes the open one (R313). There must be
room for the padding before a new segment, its header and every word that the bytes fill or begin (R301). -/
def pushFrame (s0 : State) (frame : List Byte) : State :=
  let f := frame.length
  let s := if s0.cap.gap then closeSeg s0 else s0
  let s1 := if s.cap.seg.isNone then prelude s s.cap.ts else s
  let pad := if s1.cap.seg.isNone ∧ 512 < s1.cap.bpos + 1 + wordsFor f then 512 - s1.cap.bpos else 0
  let (t0, n, bs) := s1.cap.seg.getD (frameTs s1, 0, [])
  let all := bs ++ frame
  if capRoom s1 (pad + b2n s1.cap.seg.isNone + wordsFor all.length) then
    let s2 := if s1.cap.seg.isNone then pushWord (padBlock pad s1) (fullHeader t0 0) 2 else s1
    let (s3, rest) := pushBytes 16 s2 all
    let s4 := { s3 with cap := { s3.cap with seg := some (t0, n + 1, rest), hi := some (t0 / 2 ^ 36) } }
    if n + 1 = 4095 ∨ s4.cap.bpos = 0 ∨ 512 < s4.cap.bpos + wordsFor (rest.length + f) then closeSeg s4 else s4
  else recordLost (closeSeg s1)

/-! ### Fullness and policies -/

def inkPolicy (s : State) : Nat := s.getF R.INK_CTRL F.INK_CTRL_POLICY

/-- All 512 blocks of the Inkwell are held (R302, R305). -/
def inkHeld (s : State) : Bool := inkWr s % 512 == 0 && decide (s.cap.freed + 512 ≤ s.cap.blocks)

/-- The writer needs a block that is not free (R302). -/
def inkBlocked (s : State) : Bool := inkHeld s && !s.cap.fq.isEmpty

/-- Blocks to spill: completed ones, and on entry to DONE the partial one (R304, R306). -/
def spillTotal (s : State) : Nat := s.cap.blocks + b2n (capState s == 3 && inkWr s % 512 != 0)

/-- The next spill block would be the one that SPILL_RD names (R305). -/
def regionBlocked (s : State) : Bool :=
  s.cap.spIss % 64 == 0 && decide (s.cap.spBlk < spillTotal s) && decide (s.cap.spFreed + spillSize s ≤ s.cap.spIss / 64)

/-- Full with cause RING: the ring, in the Inkwell or in the spill region, has no place (R302, R305). -/
def ringCond (s : State) : Bool := if spillOn s then regionBlocked s else inkBlocked s

/-- Full with cause RATE: no block of the Inkwell has been spilled while the spill region has space (R305). -/
def rateCond (s : State) : Bool := spillOn s && inkHeld s && !regionBlocked s

/-- Cause of the entry to full that is to be made (R307): 1 RING, 2 RATE, 0 none. A full that occurs while throttling is no
entry (R310). -/
def fullCause (s : State) : Nat :=
  if !capActive s || throttling s then 0
  else if ringCond s && !s.cap.ring then 1
  else if rateCond s && !s.cap.rate then 2
  else 0

def fullDue (s : State) : Bool := fullCause s != 0

/-- Unconsumed content in blocks (R310): of the spill region when its ring is what filled, else of the Inkwell. -/
def unconsumed (s : State) : Nat :=
  if spillOn s && !s.cap.thrRate then (s.cap.spIss + 63) / 64 - s.cap.spFreed else s.cap.blocks - s.cap.freed

def throttleOffDue (s : State) : Bool :=
  throttling s && capActive s && decide (unconsumed s ≤ s.getF R.INK_LOWWAT F.INK_LOWWAT_BLOCKS)

/-- The post-trigger words have been stored (R295). -/
def postDue (s : State) : Bool :=
  capState s == 2 && (match s.cap.post with
    | some n => decide (s.regN R.CAP_POST ≤ n)
    | none => false)

/-- SPILL_BUSY ends with the last acknowledgement of the capture (R306). -/
def spillEnd (s : State) : State :=
  if capState s = 3 ∧ s.cap.spOut = [] ∧ spillTotal s ≤ s.cap.spBlk then s.setF R.CAP_STAT F.CAP_STAT_SPILL_BUSY 0 else s

/-- Padding from word `i` of the Inkwell, `n` words (Table 9.4). -/
def padInk : Nat → Tab Nat → Nat → Tab Nat
  | 0, m, _ => m
  | n + 1, m, i => padInk n (tabSet (fun _ => 0) m i (eccWord 0)) ((i + 1) % 2 ^ 18)

/-- Recording ends within a segment whose header is stored at word `i`: COUNT tells the frames stored whole, what follows them is
padding, and with no frame the header too (log entry 30). -/
def cutSeg (s : State) (i n : Nat) : State :=
  let f := frameF s
  let have_ := afterHdr s i
  let k := min n (have_ * 8 / f)
  let w := wordsFor (k * f)
  let old := tabGet (fun _ => 0) s.cap.ink i
  let last := (i + w) % 2 ^ 18
  let m1 := tabSet (fun _ => 0) s.cap.ink i (eccWord (if k = 0 then 0 else fullHeader (dataOf old % 2 ^ 48) k))
  let m2 := if k * f % 8 = 0 then m1
    else tabSet (fun _ => 0) m1 last (eccWord (dataOf (tabGet (fun _ => 0) m1 last) % 2 ^ (8 * (k * f % 8))))
  { s with cap := { s.cap with ink := padInk (have_ - w) m2 ((last + 1) % 2 ^ 18) } }

/-- Entry to DONE (R296, R299, R306): what the queue still holds is not stored. -/
def enterDone (s : State) (cause : Nat) : State :=
  let s1 := match s.cap.hdr with
    | some (i, n) => cutSeg s i (if n = 0 then (match s.cap.seg with
        | some (_, m, _) => m
        | none => 0) else n)
    | none => s
  let s2 := { s1 with cap := { s1.cap with
    fq := [], seg := none, hdr := none, ring := false, rate := false, wrap := false, stop := false } }
  spillEnd (((s2.setF R.CAP_STAT F.CAP_STAT_STATE 3).setF R.CAP_STAT F.CAP_STAT_CAUSE cause).irqBit 0x030 1)

/-- Apply the policy in effect at full (R308 to R310, Table 9.6). -/
def applyPolicy (s : State) : State :=
  let trap := s.flag R.INK_CTRL F.INK_CTRL_TRAP_EN && ctxRuns s (s.getF R.INK_CTRL F.INK_CTRL_TRAP_CTX)
  match inkPolicy s with
  | 0 => if trap then s else enterDone s 3
  | 1 => enterDone s 3
  | 2 => { s with cap := { s.cap with wrap := true } }
  | _ => if throttling s then s else
      let s1 := { (s.setF R.CAP_STAT F.CAP_STAT_THROTTLING 1) with cap := { s.cap with
        thr := 0, thrRate := s.cap.rate && !s.cap.ring } }
      (mark (s1.irqBit 0x031 1) 5
        (if s.flag R.CAP_CTRL F.CAP_CTRL_MODE then s.getF R.INK_CTRL F.INK_CTRL_THR_SHIFT else 0) 0).1

/-- Discard the oldest unconsumed Inkwell block (Table 9.6 WRAP); a spill of it that had begun starts over with the next. -/
def dropInkBlock (s : State) : State :=
  let f := s.cap.freed
  if s.cap.spBlk = f ∧ spillOn s = true then
    { s with cap := { s.cap with freed := f + 1, spBlk := f + 1, spIss := s.cap.spIss / 64 * 64 } }
  else { s with cap := { s.cap with freed := f + 1 } }

/-- Raise an interrupt cause, 3 HOST, 4 INKFULL or 5 CNTOVF, in a context: it is held pending, once (R329, Table 10.4). -/
def raiseCause (s : State) (x cause : Nat) : State :=
  let p := s.getF (R.QCX_STAT x) F.QCX_STAT_PEND
  s.setF (R.QCX_STAT x) F.QCX_STAT_PEND (Nat.lor p (2 ^ (cause - 3)))

/-- WRAP discards the oldest Inkwell block: spill is off, or the cause is RATE (Table 9.6). -/
def dropsInk (s : State) : Bool := s.cap.wrap && inkPolicy s == 2 && (if spillOn s then s.cap.rate else s.cap.ring)

/-- The write port stores the oldest queued word, if the ring has a place for it (R300 to R302); with the post-trigger words
stored it stores no more, unless a STOP has it store the queue (R295, R312). -/
def storeWord (all : Bool) (s : State) : Option State :=
  match s.cap.fq with
  | [] => none
  | (w, k) :: rest =>
    if postDue s && !all then none
    else if inkBlocked s && !dropsInk s then none
    else
      let s1 := if inkBlocked s then dropInkBlock s else s
      let i := inkWr s1
      let post := if bitOf k 0 || bitOf k 2 then some 0 else s1.cap.post.map (· + 1)
      let s2 := { s1 with cap := { s1.cap with
        fq := rest
        ink := tabSet (fun _ => 0) s1.cap.ink i (eccWord w)
        hdr := if bitOf k 1 then some (i, 0) else if bitOf k 3 then some (i, bitsOf w 48 12) else s1.cap.hdr
        post := post
        blocks := s1.cap.blocks + b2n (i % 512 == 511) } }
      let s3 := hdrDone (s2.setN R.INK_WR ((i + 1) % 2 ^ 18))
      some (if bitOf k 0 then s3.setN R.INK_TRIG_IDX i else s3)

/-- The write port stores up to `n` words. -/
def storeWords (all : Bool) : Nat → State → State
  | 0, s => s
  | n + 1, s => match storeWord all s with
    | none => s
    | some t => storeWords all n t

/-- An entry to full (R307 to R310): its cause, the count, INKFULL, the micro-trap, and the policy in effect. -/
def enterFull (s : State) : State :=
  let c := fullCause s
  let s1 := ((s.setF R.INK_FULL_INFO F.INK_FULL_INFO_CAUSE c).satF R.INK_FULL_INFO F.INK_FULL_INFO_COUNT 1).irqBit 0x031 0
  let x := s.getF R.INK_CTRL F.INK_CTRL_TRAP_CTX
  let s2 := if s.flag R.INK_CTRL F.INK_CTRL_TRAP_EN && ctxRuns s x then raiseCause s1 x 4 else s1
  inkSync (applyPolicy { s2 with cap := { s2.cap with ring := s2.cap.ring || c == 1, rate := s2.cap.rate || c == 2 } })

/-- The whole queue goes to the write port (R294, R312); a full that stands in its way is entered when WRAP makes room. -/
def flushQueue (all : Bool) (s : State) : State :=
  let t := storeWords all 514 s
  if fullDue t && inkPolicy t == 2 then storeWords all 514 (enterFull t) else t

/-- A full that comes about while throttling is no entry, but the policy in effect governs it (R308, R310). -/
def noteFull (s : State) : State :=
  if throttling s && capActive s then
    { s with cap := { s.cap with ring := s.cap.ring || ringCond s, rate := s.cap.rate || (!ringCond s && rateCond s) } }
  else s

/-- A full ends: a policy other than WRAP has taken the place of WRAP, so that the next full is a new entry, or the ring has a
place again. RATE ends with the next block freed by spill. -/
def fullEnds (s : State) : State :=
  if s.cap.wrap && inkPolicy s != 2 then { s with cap := { s.cap with ring := false, rate := false, wrap := false } }
  else if s.cap.ring && !s.cap.wrap && !ringCond s then { s with cap := { s.cap with ring := false } }
  else s

/-- `e` edges of generator 56 (R301): the policy in effect applies while full (R308), eight words an edge are stored, and when
storage resumes after a loss the MARK LOST is written. -/
def inkEdges (s : State) (e : Nat) : State :=
  if e = 0 then s
  else
    let s0 := noteFull (fullEnds s)
    let s1 := if (s0.cap.ring || s0.cap.rate) && capActive s0 then applyPolicy s0 else s0
    let s2 := fullEnds (storeWords false (8 * e) s1)
    inkSync (if 0 < s2.cap.lost ∧ capActive s2 = true ∧ s2.cap.fq.length < s1.cap.fq.length then lostMark s2 (edgeTs s2) else s2)

/-! ### Triggers and STOP -/

/-- A trigger reaches the engine (R294, R295): the mark, whose ARG is `arg`, and with the first trigger POST. -/
def trigMark (arg : Nat) (s : State) : State :=
  let first := capState s == 1
  let (s1, kept) := mark (s.irqBit 0x030 0) 1 arg (b2n first)
  if first then
    let s2 := (s1.set48 R.CAP_TRIG_TS_LO R.CAP_TRIG_TS_HI (edgeTs s)).setF R.CAP_STAT F.CAP_STAT_STATE 2
    if kept then s2
    else
      let q := s2.cap.fq
      { (s2.setN R.INK_TRIG_IDX ((inkWr s2 + q.length) % 2 ^ 18)) with cap := { s2.cap with
        fq := q.take (q.length - 1) ++ (q.drop (q.length - 1)).map (fun e => (e.1, e.2 + 4)) } }
  else s1

/-- A trigger by itself: with POST = 0 the first one ends the capture right after its mark is stored (R294). -/
def captureTriggerOp (s : State) (arg : Nat) : State :=
  let t := trigMark arg s
  if capState s = 1 ∧ s.regN R.CAP_POST = 0 then
    let u := flushQueue false t
    inkSync (if postDue u then enterDone u 1 else u)
  else t

/-- ARGs of the pulses that the next capture edge registers, oldest first (R324, Table 9.5). -/
def trigsDue (s : State) : List Nat := (s.cap.trig.filter (fun e => e.1 == 0)).map (·.2)

/-- Those pulses taken off the way. -/
def dropTrigs (s : State) : State := { s with cap := { s.cap with trig := s.cap.trig.filter (fun e => e.1 != 0) } }

/-- The trigger marks of one capture edge. -/
def trigMarks : List Nat → State → State
  | [], s => s
  | arg :: l, s => trigMarks l (trigMark arg s)

/-- STOP in RUN or POST (R312, Table 9.2): triggers of the same capture edge go first; the queue is stored. -/
def captureStopOp (s : State) : State :=
  inkSync (enterDone (flushQueue true (mark (trigMarks (trigsDue s) (dropTrigs s)) 2 2 0).1) 2)

/-- One pulse of the Quill is registered: the oldest of those that have arrived, whose mark has ARG `arg`. Without a capture in
progress it is no trigger (R294). -/
def takeTrig (arg : Nat) (s : State) : State :=
  let s1 := { s with cap := { s.cap with trig := s.cap.trig.erase (0, arg) } }
  if capActive s then captureTriggerOp s1 arg else s1

/-- CAPTURE_TRIGGER (R294, R324): the pulse is registered by the next capture edge. With a STOP of the Quill waiting for that edge
the two are taken together (R312). -/
def execCaptureTrigger (s : State) : Out :=
  match trigsDue s with
  | [] => .next s
  | arg :: _ => whenCan s (live s && domOn s 48 && genRuns s 55 && !s.cap.stop) (takeTrig arg s)

/-- The pulses that the coming capture edge registers are taken, and the others come an edge nearer (R324). -/
def takeTrigs : List Nat → State → State
  | [], s => { s with cap := { s.cap with trig := s.cap.trig.map (fun e => (e.1 - 1, e.2)) } }
  | arg :: l, s => takeTrigs l (takeTrig arg s)

/-- What reaches the engine on the coming capture edge: a STOP with the triggers before it, or the triggers (R312, R324). -/
def takeEvents (s : State) : State :=
  if s.cap.stop && capActive s then takeTrigs [] (captureStopOp s) else takeTrigs (trigsDue s) s

/-- CAPTURE_POST_DONE (R295). -/
def execCapturePostDone (s : State) : Out :=
  whenCan s (live s && domOn s 48 && postDue s) (inkSync (enterDone s 1))

/-- INKWELL_FULL (R307 to R310). -/
def execInkwellFull (s : State) : Out :=
  whenCan s (live s && domOn s 49 && fullDue s) (enterFull s)

/-- THROTTLE_OFF (R310). -/
def execThrottleOff (s : State) : Out :=
  let s1 := { ((s.setF R.CAP_STAT F.CAP_STAT_THROTTLING 0).irqBit 0x031 2) with cap := { s.cap with
    ring := false, rate := false, wrap := false, thrRate := false } }
  whenCan s (live s && domOn s 49 && throttleOffDue s) (mark s1 6 0 0).1

/-! ### Samples and records -/

/-- Level byte of a group in a table of samples. -/
def groupByte (m : Tab Bool) (g : Nat) : Nat :=
  ((List.range 8).filter (fun i => tabGet (fun _ => false) m (8 * g + i))).foldl (fun n i => n + 2 ^ i) 0

/-- A change in the direction that SLOPE selects (R189, R291). -/
def chEvent (s : State) (c : Nat) (old new : Bool) : Bool :=
  (old != new) && (decide (336 ≤ c) || (match nibCfg s c F.NIB_NIB_CFG_SLOPE with
    | 0 => new
    | 1 => !new
    | _ => true))

/-- Event byte of a group between two tables of samples. -/
def eventByte (s : State) (old new : Tab Bool) (g : Nat) : Nat :=
  ((List.range 8).filter (fun i => chEvent s (8 * g + i) (tabGet (fun _ => false) old (8 * g + i))
    (tabGet (fun _ => false) new (8 * g + i)))).foldl (fun n i => n + 2 ^ i) 0

/-- A TRANS record of one group and sample, of time `t`, unless throttling drops it (R297, R310). -/
def recordGroup (g sub lev evt t : Nat) (s : State) : State :=
  if evt = 0 then s
  else if throttling s && !s.mapBit R.INK_KEEP0 4 g then s.satF R.INK_THR_DROP F.INK_THR_DROP_N 1
  else pushTrans s g lev evt sub t

/-- The records of one capture edge in TRANS mode (R297): `a` the samples before, `b` at the edge, `f` at the falling
edge of the cycle. In a double-edge group the sample before is that of the falling edge before (R291). A group of which some
channels pass a synchroniser and others do not gives a record for each sort, the older sample first (log entry 31). -/
def transEdge (a0 f0 b f : Tab Bool) : List Nat → State → State
  | [], s => s
  | g :: gs, s =>
    let old := if groupDe s g then f0 else a0
    let evt := eventByte s old b g
    let own := ownMask s g
    let s0 := recordGroup g 0 (groupByte b g) (Nat.land evt (255 - own)) (emergedTs s) s
    let s1 := recordGroup g 0 (groupByte b g) (Nat.land evt own) s.cap.ts s0
    let s2 := if groupDe s g then recordGroup g 8 (groupByte f g) (eventByte s1 b f g) s.cap.ts s1 else s1
    transEdge a0 f0 b f gs s2

/-- The bytes of one frame (R299). -/
def frameBytes (s : State) (b f : Tab Bool) : List Nat → List Byte
  | [] => []
  | g :: gs => BitVec.ofNat 8 (groupByte b g) ::
      (if groupDe s g then [BitVec.ofNat 8 (groupByte f g)] else []) ++ frameBytes s b f gs

/-- A frame in FULL mode, decimated while throttling (R299, R310). -/
def fullEdge (s : State) (frame : List Byte) : State :=
  if throttling s then
    let n := s.cap.thr
    let s1 := { s with cap := { s.cap with thr := n + 1 } }
    if n % 2 ^ s.getF R.INK_CTRL F.INK_CTRL_THR_SHIFT = 0 then closeSeg (pushFrame (closeSeg s1) frame)
    else s1.satF R.INK_THR_DROP F.INK_THR_DROP_N 1
  else pushFrame s frame

/-- Probe levels as the designs drive them, where bound (R245). -/
def setProbes : List (Fin 64 × Bool) → State → State
  | [], s => s
  | (p, v) :: l, s => setProbes l (if probeOn s p then
      { s with fab := { s.fab with probe := tabSet (fun _ => false) s.fab.probe p v } } else s)

/-- Comparator levels on the falling edge where they differ from those on the rising edge. -/
def fallTab (b : Tab Bool) : List (Fin 336 × Bool) → Tab Bool
  | [] => b
  | (n, v) :: l => tabSet (fun _ => false) (fallTab b l) n v

/-- One capture edge: the triggers it registers, the count, the samples, the records in RUN and POST, and `e` edges of
generator 56 (R287 to R301). -/
def captureEdge (s0 : State) (probes : List (Fin 64 × Bool)) (fall : List (Fin 336 × Bool)) (e : Nat) : State :=
  let s := tbFollows (takeEvents s0) 1
  let s1 := setProbes probes s
  let b := sampleNow s1
  let f := fallTab b fall
  let s2 := { s1 with cap := { s1.cap with ts := edgeTs s1 } }
  let s3 := if capActive s then
      (if s.flag R.CAP_CTRL F.CAP_CTRL_MODE then fullEdge s2 (frameBytes s2 b f (groupsOn s2))
       else transEdge s.cap.samp s.cap.sampF b f (groupsOn s2) s2)
    else s2
  let s4 := takeSamples s3 b f
  inkEdges { s4 with cap := { s4.cap with fresh := true } } e

/-- The edges of generator 56 that one capture edge can bring, or any number while there is none: one when the two are on one
clock, none when it is gated (R301). -/
def inkEdgesOk (s : State) (e : Nat) : Bool :=
  if !genRuns s 56 || !domOn s 49 then e == 0 else !genRuns s 55 || !oneClock s 55 56 || e == 1

/-! ### Inkwell reads (R303, R311) -/

/-- Read word `i` of the Inkwell, after the upsets `flip`: the data, and whether it is flagged. -/
def inkFetch (s : State) (i flip : Nat) : State × Nat × Bool :=
  let v := Nat.xor (tabGet (fun _ => 0) s.cap.ink i) flip
  let s1 := { s with cap := { s.cap with ink := tabSet (fun _ => 0) s.cap.ink i v } }
  match eccClass v with
  | .good => (s1, dataOf v, false)
  | .correctable _ => ((s1.satF R.INK_CE_CNT F.INK_CE_CNT_N 1).irqBit 0x031 3, eccData v, false)
  | _ => ((s1.satF R.INK_UE_CNT F.INK_UE_CNT_N 1).irqBit 0x031 4, dataOf v, true)

/-- A read of WIN_LO: the data is returned and its high half latched in WIN_HI. -/
def inkWinLo (s : State) (flip : Nat) : State × Word :=
  let (s1, d, ue) := inkFetch s (s.getF R.INK_WIN_ADDR F.INK_WIN_ADDR_WORD) flip
  ((((s1.setF R.INK_WIN_ADDR F.INK_WIN_ADDR_UE (b2n ue)).setN R.INK_WIN_LO (d % 2 ^ 32)).setN R.INK_WIN_HI (d / 2 ^ 32)),
    BitVec.ofNat 32 d)

/-- A read of WIN_HI: the latched half; WIN_ADDR advances. -/
def inkWinHi (s : State) : State × Word :=
  (s.wrapF R.INK_WIN_ADDR F.INK_WIN_ADDR_WORD 1, s.reg R.INK_WIN_HI)

/-! ### CAP and INK pages -/

/-- Bytes of a frame (R299). -/
def frameLen (s : State) : Nat := ((groupsOn s).map (fun g => 1 + b2n (groupDe s g))).foldl (· + ·) 0

/-- The ARM checks of Table 9.3, in order. -/
def armRefusal (s : State) : Option Nat :=
  let gs := groupsOn s
  if s.phase ≠ .run then some 0x07
  else if capActive s || spillBusy s then some 0x01
  else if gs.isEmpty then some 0x02
  else if 25 < (gs.filter (groupDe s)).length then some 0x03
  else if s.flag R.CAP_CTRL F.CAP_CTRL_MODE && decide (56 < frameLen s) then some 0x04
  else if spillOn s && !domOn s 57 then some 0x05
  else none

/-- An accepted ARM (R293): the Inkwell's pointers and counts, MARK ARM, RUN. -/
def capArm (s : State) : State :=
  let s1 := [R.INK_WR, R.INK_RD, R.INK_OLDEST, R.INK_FILL, R.INK_LOST, R.INK_THR_DROP, R.INK_FULL_INFO, R.INK_TRIG_IDX,
    R.INK_SPILL_WR, R.INK_SPILL_RD, R.INK_SPILL_OLDEST].foldl (fun t a => t.setN a 0) s
  let f := if s.flag R.CAP_CTRL F.CAP_CTRL_MODE then frameLen s else 0
  let s2 := s1.setN R.CAP_STAT (1 + 512 * b2n (spillOn s) + 65536 * f)
  let s3 := { s2 with cap := { noCap with
    ts := s.cap.ts, samp := s.cap.samp, sampF := s.cap.sampF, s1 := s.cap.s1, s2 := s.cap.s2, s3 := s.cap.s3,
    hist := s.cap.hist, ledge := s.cap.ledge, ports := s.cap.ports, fresh := s.cap.fresh, trig := s.cap.trig, ink := s.cap.ink } }
  (tryMark s3 (edgeTs s3) 0 0 0).1

/-- A performed write of CAP.CMD (Table 9.2, R292 to R295). A capture whose post-trigger words are stored is DONE. -/
def capCmd (s : State) (w : Word) : WOut :=
  if bitOf w.toNat 0 then
    match armRefusal s with
    | some c => .refuse c
    | none => .done (capArm s)
  else if !bitOf w.toNat 1 && !bitOf w.toNat 2 then .done s
  else if !capActive s then .refuse 0x06
  else if postDue s then .refuseAs (inkSync (enterDone s 1)) 0x06
  else .done (if bitOf w.toNat 1 then captureStopOp s else captureTriggerOp s 0xFF)

/-- Reserved values of Table 9.8. -/
def capReserved (off w : Nat) : Bool := off == 0x058 && decide (1 < popCount w 3)

/-- What a performed write of the CAP page does. -/
def capWrite (s : State) (off : Nat) (w : Word) : WOut :=
  if off = 0x058 then capCmd s w
  else if 0x040 ≤ off ∧ off ≤ 0x054 ∧ capActive s = true then .refuse 0x01
  else .done (s.setReg (0x30000 + off) w)

/-- Reserved values of Table 9.10. -/
def inkReserved (off w : Nat) : Bool :=
  match off with
  | 0x040 => let t := bitsOf w 16 4
             t == 0 || decide (9 ≤ t)
  | 0x04C => let b := bitsOf w 0 10
             b == 0 || decide (512 ≤ b)
  | 0x078 => decide (bitsOf w 0 20 < 16)
  | _ => false

/-- The held block that an index names, lowest first: blocks `lo` to `hi`, numbered modulo `m`. -/
def heldBlock (lo hi m v : Nat) : Option Nat :=
  if m = 0 ∨ m ≤ v then none
  else
    let b := lo + (v + m - lo % m) % m
    if b ≤ hi then some b else none

/-- A write of RD or SPILL_RD (R302, R305): refused in the wrong mode or for a block not held. -/
def inkRdOp (s : State) (spill : Bool) (v : Nat) : WOut :=
  if spill then
    if !spillOn s then .refuse 0x02
    else match heldBlock (oldestSpill s) (spillDone s) (spillSize s) v with
      | none => .refuse 0x02
      | some b => .done (inkSync { s with cap := { s.cap with spFreed := b } })
  else
    if spillOn s then .refuse 0x02
    else match heldBlock (oldestBlock s) s.cap.blocks 512 v with
      | none => .refuse 0x02
      | some b => .done (inkSync { s with cap := { s.cap with freed := b } })

/-- What a performed write of the INK page does. -/
def inkWrite (s : State) (off : Nat) (w : Word) : WOut :=
  let busy := capActive s || spillBusy s
  if off = 0x054 then inkRdOp s false (bitsOf w.toNat 0 9)
  else if off = 0x080 then inkRdOp s true (bitsOf w.toNat 0 20)
  else if busy && (off == 0x04C || off == 0x070 || off == 0x074 || off == 0x078) then .refuse 0x01
  else if busy && off == 0x040 && bitsOf w.toNat 12 1 != b2n (spillOn s) then .refuse 0x01
  else .done (s.setReg (0x31000 + off) w)

end Sys2Proof.Machine
end

