-- ==== Sys2Proof/Machine/Quill.lean ====
section
/-! DEFINITION. The Quill: contexts, control words, micro-traps, the control store (10_quill_sequencer.md). One command
runs one context through one Quill edge; an edge is over when every running context has had its turn. -/

namespace Sys2Proof.Machine

def ctxOf (s : State) (x : Nat) : QCtx := tabGet (fun _ => noCtx) s.quill.ctx x
def setCtx (s : State) (x : Nat) (c : QCtx) : State :=
  { s with quill := { s.quill with ctx := tabSet (fun _ => noCtx) s.quill.ctx x c } }
def cntOf (s : State) (x k : Nat) : Nat := tabGet (fun _ => 0) (ctxOf s x).cnt k
def tmrOf (s : State) (x t : Nat) : Nat := tabGet (fun _ => 0) (ctxOf s x).tmr t
def qPage (x : Nat) : Nat := 0x034 + x

/-! ### Quill edges -/

/-- The contexts that run. -/
def runSet (s : State) : Nat := ((List.range 8).filter (ctxRuns s)).foldl (fun n x => n + 2 ^ x) 0

/-- Every running context has executed on the present edge. -/
def edgeOver (s : State) : Bool := Nat.land (runSet s) s.quill.did == runSet s

/-- A timer that counts advances and saturates (R322). -/
def stepTimer (c : QCtx) (t : Nat) : QCtx :=
  if bitOf c.trun t then { c with tmr := tabSet (fun _ => 0) c.tmr t (satAdd 48 (tabGet (fun _ => 0) c.tmr t) 1) } else c

/-- The timers and an open dead time of a context count the edge (R322, R335). A word on the edge still compares the
counts from before it (log entry 101). -/
def stepCtx (s : State) (x : Nat) : State :=
  let c := stepTimer (stepTimer (ctxOf s x) 0) 1
  setCtx s x { c with dt := c.dt.map (· + 1) }

def storeRaw (s : State) (a : Nat) : Nat := tabGet (fun _ => 0) s.quill.store a
def setStoreRaw (s : State) (a v : Nat) : State :=
  { s with quill := { s.quill with store := tabSet (fun _ => 0) s.quill.store a v } }

/-- The store words written during an edge take effect once it is over (R337). -/
def storeLands (s : State) : State :=
  if edgeOver s then
    let t := s.quill.wr.foldl (fun t e => setStoreRaw t e.1 e.2) s
    { t with quill := { t.quill with wr := [] } }
  else s

/-- The next Quill edge (R320, R324, R337). -/
def nextEdge (s0 : State) : State :=
  let s := storeLands s0
  let q := s.quill
  { s with
    quill := { q with did := 0, prev := q.cur, cur := 0, z0 := s.cap.samp, z1 := q.z0, z2 := q.z1, z3 := q.z2, z4 := q.z3,
                      z5 := q.z4 }
    cap := { s.cap with fresh := false } }

/-- Context `x` can have its turn: on the present edge, or on the next one once this one is over. On one clock with
the capture engine the two edges go together (R320). -/
def turnOk (s : State) (x : Nat) : Bool :=
  live s && domOn s 50 && genRuns s 57 && ctxRuns s x &&
    (!bitOf s.quill.did x || (edgeOver s && (s.cap.fresh || !genRuns s 55 || !oneClock s 55 57)))

/-- The state in which context `x` has its turn. -/
def turn (s : State) (x : Nat) : State :=
  let s1 := if bitOf s.quill.did x then nextEdge s else s
  { s1 with quill := { s1.quill with did := Nat.lor s1.quill.did (2 ^ x) } }

/-! ### Control words (Table 10.1) -/

/-- Even-parity bits of a 96-bit word, one for each third (R316). -/
def parity3 (d : Nat) : Nat :=
  popCount (d % 2 ^ 32) 32 % 2 + 2 * (popCount (d / 2 ^ 32 % 2 ^ 32) 32 % 2) + 4 * (popCount (d / 2 ^ 64 % 2 ^ 32) 32 % 2)

def parityBad (v : Nat) : Bool := parity3 (v % 2 ^ 96) != v / 2 ^ 96 % 8

/-- The word that context `x` is about to execute. -/
def wordAt (s : State) (x : Nat) : Nat := storeRaw s (ctxOf s x).pc % 2 ^ 96

def wOpc (w : Nat) : Nat := bitsOf w 90 6
def wNxtT (w : Nat) : Nat := bitsOf w 78 12
def wNxtF (w : Nat) : Nat := bitsOf w 66 12
def wComb (w : Nat) : Nat := bitsOf w 64 2
def wATy (w : Nat) : Nat := bitsOf w 60 4
def wAArg (w : Nat) : Nat := bitsOf w 46 14
def wBTy (w : Nat) : Nat := bitsOf w 42 4
def wBArg (w : Nat) : Nat := bitsOf w 28 14
def wEmit (w : Nat) : Nat := bitsOf w 24 4
def wTrig (w : Nat) : Bool := bitOf w 23
def wRearm (w : Nat) : Bool := bitOf w 22
def wAlways (w : Nat) : Bool := bitOf w 21
def wOperand (w : Nat) : Nat := bitsOf w 0 21

/-- The CARG is out of range, has a bit that Table 10.2 does not use, or the CTYPE is reserved (R319). -/
def condBad (ty arg : Nat) : Bool :=
  match ty with
  | 0 => arg != 0
  | 1 => decide (400 ≤ arg)
  | 2 => decide (400 ≤ arg)
  | 3 => decide (400 ≤ arg)
  | 4 => decide (4 ≤ arg)
  | 5 => decide (4 ≤ arg)
  | 6 => decide (2 ≤ arg)
  | 7 => decide (32 ≤ arg)
  | 8 => decide (4 ≤ arg)
  | _ => true

/-- Bits of OPERAND that an opcode uses (Table 10.3); none for an undefined opcode. -/
def operandBits (opc : Nat) : Option Nat :=
  match opc with
  | 1 => some 0
  | 2 => some 2
  | 3 => some 4
  | 4 => some 1
  | 5 => some 1
  | 6 => some 4
  | 7 => some 0
  | 8 => some 2
  | 9 => some 0
  | 10 => some 0
  | _ => none

/-- UNDEF (R319). -/
def wordUndef (w : Nat) (handler : Bool) : Bool :=
  (match operandBits (wOpc w) with
    | none => true
    | some n => decide (2 ^ n ≤ wOperand w)) ||
  condBad (wATy w) (wAArg w) || condBad (wBTy w) (wBArg w) ||
  (wComb w == 0 && (wBTy w != 0 || wBArg w != 0)) ||
  (wAlways w && (wOpc w == 9 || wOpc w == 10)) ||
  (wOpc w == 10 && !handler)

/-- A fault cause for the next edge of context `x` (Table 10.4): 0 STORE, 1 UNDEF, 2 BOUNDS. -/
def faultCause (s : State) (x : Nat) : Option Nat :=
  let pc := (ctxOf s x).pc
  if pc < s.regN (R.QCX_BASE x) ∨ s.regN (R.QCX_LIMIT x) < pc then some 2
  else if parityBad (storeRaw s pc) then some 0
  else if wordUndef (wordAt s x) (ctxState s x == 2) then some 1
  else none

/-- Lowest-numbered pending interrupt cause. -/
def pendCause (s : State) (x : Nat) : Option Nat :=
  match s.getF (R.QCX_STAT x) F.QCX_STAT_PEND with
  | 0 => none
  | p => if bitOf p 0 then some 3 else if bitOf p 1 then some 4 else some 5

/-! ### Conditions (Table 10.2) -/

/-- The samples that words on this edge see: those of two edges before, and two more where they pass a synchroniser (R320). -/
def seenTab (s : State) : Tab Bool := if oneClock s 57 55 then s.quill.z2 else s.quill.z4
def seenTabBefore (s : State) : Tab Bool := if oneClock s 57 55 then s.quill.z3 else s.quill.z5

/-- Sample of a channel as words on this edge see it (R320). -/
def seen (s : State) (c : Nat) : Bool := tabGet (fun _ => false) (seenTab s) c
def seenBefore (s : State) (c : Nat) : Bool := tabGet (fun _ => false) (seenTabBefore s) c

def pair48 (s : State) (lo hi : Nat) : Nat := s.regN lo + 2 ^ 32 * (s.regN hi % 2 ^ 16)

def condTrue (s : State) (x ty arg : Nat) : Bool :=
  match ty with
  | 0 => true
  | 1 => seen s arg
  | 2 => !seen s arg
  | 3 => chEvent s arg (seenBefore s arg) (seen s arg)
  | 4 =>
    let p := s.regN (R.QCX_PAT x arg)
    let m := bitsOf p 8 8
    Nat.land (groupByte (seenTab s) (bitsOf p 0 6)) m == Nat.land (bitsOf p 16 8) m
  | 5 => decide (pair48 s (R.QCX_LIM_LO x arg) (R.QCX_LIM_HI x arg) ≤ cntOf s x arg)
  | 6 => bitOf (ctxOf s x).trun (2 + arg) && decide (pair48 s (R.QCX_TLIM_LO x arg) (R.QCX_TLIM_HI x arg) ≤ tmrOf s x arg)
  | 7 => bitOf s.quill.prev arg
  | _ => bitOf (s.regN (R.QCX_HFLAG x)) arg

/-- C of a word (Table 10.1, COMB). -/
def wordCond (s : State) (x w : Nat) : Bool :=
  let a := condTrue s x (wATy w) (wAArg w)
  let b := condTrue s x (wBTy w) (wBArg w)
  match wComb w with
  | 0 => a
  | 1 => a && b
  | 2 => a || b
  | _ => a && !b

/-! ### Pulses and dead time -/

/-- A pulse, whose mark has ARG `arg`, on its way to the capture engine: the next capture edge registers it on one clock,
otherwise the third or the fourth, which the device does not say (R324, R601). -/
def sendTrig (arg : Nat) (s : State) : State :=
  if oneClock s 57 55 then { s with cap := { s.cap with trig := s.cap.trig ++ [(0, arg)] } }
  else
    let (v, t) := s.free 2
    { t with cap := { t.cap with trig := t.cap.trig ++ [(2 + v, arg)] } }

/-- A pulse on line `l` of context `x` (R206, R294, R324). Whether it is a trigger turns on the engine's state when it is
registered; the line is the one selected when it is emitted (log entry 31). -/
def pulseLine (x : Nat) (s : State) (l : Nat) : State :=
  let s1 := quietPulse s x l
  let hit := s.flag R.CAP_CTRL F.CAP_CTRL_TRIG_QUILL && s.getF R.CAP_CTRL F.CAP_CTRL_TRIG_CTX == x &&
    s.getF R.CAP_CTRL F.CAP_CTRL_TRIG_LINE == l
  let s2 := { s1 with quill := { s1.quill with cur := Nat.lor s1.quill.cur (2 ^ (4 * x + l)) } }
  if hit then sendTrig (32 * x + l) s2 else s2

/-- Dead time (R334, R335): what was open before the word is closed by REARM; TRIG with C true opens one if none was. -/
def deadTime (s : State) (x : Nat) (trig rearm : Bool) : State :=
  let c := ctxOf s x
  let s1 := if trig then (s.wrapF (R.QCX_TRIG_CNT x) F.QCX_TRIG_CNT_N 1).irqBit (qPage x) 0 else s
  match c.dt with
  | none => if trig then (setCtx s1 x { c with dt := some 0 }).setN (R.QCX_DT_STAT x) 1 else s1
  | some n =>
    if rearm then
      let e := min n 0xFFFFFFFF
      let s2 := (setCtx s1 x { c with dt := none }).setN (R.QCX_DT_STAT x) 0
      (s2.setN (R.QCX_DT_LAST x) e).setN (R.QCX_DT_MAX x) (max e (s.regN (R.QCX_DT_MAX x)))
    else s1

/-- Entering STOPPED (0) or FAULTED (3): pending causes cleared, timers stopped, an open dead time abandoned (R333,
R336). -/
def leaveRun (s : State) (x st : Nat) : State :=
  let c := ctxOf s x
  let s1 := setCtx s x { c with rett := false, dt := none, trun := c.trun / 4 * 4 }
  ((s1.setF (R.QCX_STAT x) F.QCX_STAT_STATE st).setF (R.QCX_STAT x) F.QCX_STAT_PEND 0).setN (R.QCX_DT_STAT x) 0

/-! ### Execution -/

/-- Context `x` executes a word on this edge: no fault cause, no trap edge to come, and the word's opcode is `opc`. -/
def canRun (s : State) (x opc : Nat) : Bool :=
  let t := turn s x
  turnOk s x && (faultCause t x).isNone && !(ctxOf t x).rett && (ctxState t x == 2 || (pendCause t x).isNone) &&
    wOpc (wordAt t x) == opc

/-- What every word does beside its action (R318): lines, dead time, the next address. -/
def wordFrame (s : State) (x w : Nat) (c : Bool) : State :=
  let s1 := if c then (setBits (wEmit w) 4).foldl (pulseLine x) s else s
  let s2 := deadTime s1 x (wTrig w && c) (wRearm w)
  let q := ctxOf s2 x
  (setCtx s2 x { q with pc := if c then wNxtT w else wNxtF w }).setN (R.QCX_CUR_PC x) (ctxOf s x).pc

/-- Execute the word of context `x` with action `f` (R318): the action when C is true or ALWAYS is set. -/
def runWord (s : State) (x : Nat) (f : State → Nat → State) : State :=
  let t := turn s x
  let w := wordAt t x
  let c := wordCond t x w
  let t1 := wordFrame (stepCtx t x) x w c
  if c || wAlways w then f t1 w else t1

/-- QUILL_NOP (Table 10.3). -/
def execQuillNop (x : Fin 8) (s : State) : Out :=
  whenCan s (canRun s x 1) (runWord s x (fun t _ => t))

/-- CINC: the counter wraps and then raises CNTOVF when enabled (R322). -/
def cinc (x : Nat) (s : State) (w : Nat) : State :=
  let k := wOperand w
  let c := ctxOf s x
  let n := wrapAdd 48 (cntOf s x k) 1
  let s1 := setCtx s x { c with cnt := tabSet (fun _ => 0) c.cnt k n }
  if n = 0 ∧ s.flag (R.QCX_CTRL x) F.QCX_CTRL_OVF_TRAP = true then raiseCause s1 x 5 else s1

/-- QUILL_CINC (R322). -/
def execQuillCinc (x : Fin 8) (s : State) : Out :=
  whenCan s (canRun s x 2) (runWord s x (cinc x))

/-- CCLR: each counter whose mask bit is set is cleared. -/
def cclr (x : Nat) (s : State) (w : Nat) : State :=
  let c := ctxOf s x
  setCtx s x { c with cnt := tabDrop (fun k => bitOf (wOperand w) k) c.cnt }

/-- QUILL_CCLR (R322). -/
def execQuillCclr (x : Fin 8) (s : State) : Out :=
  whenCan s (canRun s x 3) (runWord s x (cclr x))

/-- TSTART: the timer is zeroed and counts; it has been started since START. -/
def tstart (x : Nat) (s : State) (w : Nat) : State :=
  let c := ctxOf s x
  let t := wOperand w
  setCtx s x { c with tmr := tabSet (fun _ => 0) c.tmr t 0, trun := Nat.lor c.trun (2 ^ t + 2 ^ (2 + t)) }

/-- QUILL_TSTART (R322). -/
def execQuillTstart (x : Fin 8) (s : State) : Out :=
  whenCan s (canRun s x 4) (runWord s x (tstart x))

/-- TSTOP: the timer holds its count. -/
def tstop (x : Nat) (s : State) (w : Nat) : State :=
  let c := ctxOf s x
  setCtx s x { c with trun := withBits c.trun (wOperand w) 1 0 }

/-- QUILL_TSTOP (R322). -/
def execQuillTstop (x : Fin 8) (s : State) : Out :=
  whenCan s (canRun s x 5) (runWord s x (tstop x))

/-- QUILL_IRQ: the USER bits 7:4 of IRQ_RAW (Table 10.3). -/
def execQuillIrq (x : Fin 8) (s : State) : Out :=
  whenCan s (canRun s x 6) (runWord s x (fun t w => t.irq (qPage x) (16 * wOperand w)))

/-- CSTOP: the capture engine's STOP, without effect outside RUN and POST (R321); the engine takes it on its next edge, after
the pulses that reach it on that edge, of whichever context (R312, R324). -/
def cstop (s : State) (_w : Nat) : State :=
  if capActive s then { s with cap := { s.cap with stop := true } } else s

/-- QUILL_CSTOP (R312, R321). -/
def execQuillCstop (x : Fin 8) (s : State) : Out :=
  whenCan s (canRun s x 7) (runWord s x cstop)

/-- QUILL_SETPOL: INK.CTRL.POLICY is written directly (R321). -/
def execQuillSetpol (x : Fin 8) (s : State) : Out :=
  whenCan s (canRun s x 8)
    (runWord s x (fun t w => if domOn t 49 then t.setF R.INK_CTRL F.INK_CTRL_POLICY (wOperand w) else t))

/-- QUILL_HALT (R333). -/
def execQuillHalt (x : Fin 8) (s : State) : Out :=
  whenCan s (canRun s x 9) (runWord s x (fun t _ => (leaveRun t x 0).irqBit (qPage x) 3))

/-- RETT with C true (R328, R329): to RUN at the frame address, or a trap edge next for a pending cause. -/
def rett (x : Nat) (s : State) (_w : Nat) : State :=
  let c := ctxOf s x
  if (pendCause s x).isSome then setCtx s x { c with rett := true }
  else (setCtx s x { c with pc := s.getF (R.QCX_TF_INFO x) F.QCX_TF_INFO_PC }).setF (R.QCX_STAT x) F.QCX_STAT_STATE 1

/-- QUILL_RETT (R328, R329). -/
def execQuillRett (x : Fin 8) (s : State) : Out :=
  whenCan s (canRun s x 10) (runWord s x (rett x))

/-! ### Micro-traps -/

/-- The trap edge for `cause` (R325, R326): the frame, TRAP_CNT, HANDLER at the vector word. On a trap edge that RETT
made, PC and OPC of the frame stay (R329). -/
def takeTrap (s : State) (x cause : Nat) (keepPc : Bool) : State :=
  let c := ctxOf s x
  let old := s.regN (R.QCX_TF_INFO x)
  let info := if keepPc then withBits old 16 3 cause
    else c.pc + 65536 * cause + 2 ^ 24 * (if cause = 2 then 0 else wOpc (wordAt s x)) + 2 ^ 31
  let s1 := (s.setN (R.QCX_TF_INFO x) info).set48 (R.QCX_TF_TS_LO x) (R.QCX_TF_TS_HI x) s.cap.ts
  let s2 := (s1.satF (R.QCX_TRAP_CNT x) F.QCX_TRAP_CNT_N 1).irqBit (qPage x) 1
  let s3 := setCtx s2 x { c with rett := false, pc := s.regN (R.QCX_VBASE x) + cause }
  let s4 := s3.setF (R.QCX_STAT x) F.QCX_STAT_STATE 2
  if 3 ≤ cause then
    s4.setF (R.QCX_STAT x) F.QCX_STAT_PEND (withBits (s.getF (R.QCX_STAT x) F.QCX_STAT_PEND) (cause - 3) 1 0)
  else s4

/-- A double trap (R331): FAULTED, or the device halts. -/
def doubleTrap (s : State) (x cause : Nat) : State :=
  let s1 := ((s.setF (R.QCX_STAT x) F.QCX_STAT_DBL 1).setF (R.QCX_STAT x) F.QCX_STAT_DBL_CAUSE cause).irqBit (qPage x) 2
  if s.flag (R.QCX_CTRL x) F.QCX_CTRL_CRIT then halt s1 3 (x + 16 * cause) (s.regN (R.QCX_TF_INFO x))
  else leaveRun s1 x 3

/-- A micro-trap (R325 to R331): in RUN the lowest-numbered cause is taken; in HANDLER a fault is a double trap, except
that a trap edge made by RETT executes no word. -/
def microTrapOnce (x : Fin 8) (flip : BitVec 99) (s : State) : Out :=
  let t0 := turn s x
  let pc := (ctxOf t0 x).pc
  let t := stepCtx (setStoreRaw t0 pc (Nat.xor (storeRaw t0 pc) flip.toNat)) x
  if ctxState t x = 2 then
    if (ctxOf t x).rett then
      match pendCause t x with
      | some k => whenCan s (turnOk s x) (takeTrap t x k true)
      | none => .next s
    else match faultCause t x with
      | some k => whenCan s (turnOk s x) (doubleTrap t x k)
      | none => .next s
  else match faultCause t x with
    | some k => whenCan s (turnOk s x) (takeTrap t x k false)
    | none => match pendCause t x with
      | some k => whenCan s (turnOk s x) (takeTrap t x k false)
      | none => .next s

/-- MICRO_TRAP: also as a further halt cause (R331, R564). -/
def execMicroTrap (x : Fin 8) (flip : BitVec 99) (s : State) : Out := orAlso (microTrapOnce x flip) s

/-! ### QCX pages -/

/-- A micro-context takes up START (R323): counters, timers and dead time cleared. Its first word executes on the next
edge. When no context ran, no pulse of an earlier edge is on its way, and the samples on their way are those of the last
capture edges, one for each Quill edge (log entry 31). -/
def startCtx (s0 : State) (x : Nat) : State :=
  let s := storeLands s0
  let h (i : Nat) : Tab Bool := atD s.cap.samp s.cap.hist i
  let s1 := if anyCtxRuns s then s
    else { s with
      quill := { s.quill with did := 0, cur := 0, prev := 0, z0 := s.cap.samp, z1 := h 0, z2 := h 1, z3 := h 2, z4 := h 3,
                              z5 := h 3 }
      cap := { s.cap with fresh := false } }
  let s2 := setCtx s1 x { noCtx with pc := s.regN (R.QCX_START_ADDR x) }
  let s3 := { s2 with quill := { s2.quill with did := Nat.lor s2.quill.did (2 ^ x) } }
  (s3.setF (R.QCX_STAT x) F.QCX_STAT_STATE 1).setN (R.QCX_DT_STAT x) 0

/-- START with addresses outside the window (Table 10.6 order 3). -/
def startBad (s : State) (x : Nat) : Bool :=
  let b := s.regN (R.QCX_BASE x)
  let l := s.regN (R.QCX_LIMIT x)
  let out (a : Nat) : Bool := decide (a < b) || decide (l < a)
  decide (l < b) || out (s.regN (R.QCX_START_ADDR x)) || out (s.regN (R.QCX_VBASE x)) || out (s.regN (R.QCX_VBASE x) + 5)

/-- A performed write of QCXx.CMD (R341, Table 10.6). -/
def qcxCmd (s : State) (x : Nat) (w : Word) : WOut :=
  if bitOf w.toNat 0 then
    if s.phase ≠ .run then .refuse 0x07
    else if ctxRuns s x then .refuse 0x02
    else if startBad s x then .refuse 0x03
    else .done (startCtx s x)
  else if bitOf w.toNat 1 then
    if ctxState s x = 0 then .done s
    else
      let s1 := leaveRun s x 0
      .done (if ctxState s x = 3 then s1.setF (R.QCX_STAT x) F.QCX_STAT_DBL 0 else s1)
  else if bitOf w.toNat 2 then
    if ctxRuns s x then .done (raiseCause s x 3) else .refuse 0x04
  else .done s

/-- Reserved values of Table 10.8. -/
def qcxReserved (off w : Nat) : Bool :=
  if off = 0x044 then decide (1 < popCount w 3)
  else if 0x090 ≤ off ∧ off < 0x0A0 then decide (50 ≤ bitsOf w 0 6)
  else false

/-- Number of a requester path, 4 for a Germinate record. -/
def pathIx (p : Option Path) : Nat := match p with
  | some q => q.code
  | none => 4

def heldGet (s : State) (p : Option Path) (a : Nat) : Option Word := tabGet (fun _ => none) s.quill.held (8 * a + pathIx p)
def heldSet (s : State) (p : Option Path) (a : Nat) (w : Option Word) : State :=
  { s with quill := { s.quill with held := tabSet (fun _ => none) s.quill.held (8 * a + pathIx p) w } }

/-- The HI half of a limit applies both halves (R338). -/
def limitHi (s : State) (p : Option Path) (a : Nat) (w : Word) : State :=
  let lo := (heldGet s p (a - 4)).getD (s.reg (a - 4))
  (s.setReg (a - 4) lo).setReg a w

/-- What a performed write of a QCX page does (R338, R340, R335). -/
def qcxWrite (s : State) (p : Option Path) (x off : Nat) (w : Word) : WOut :=
  let a := 0x34000 + 0x1000 * x + off
  if off = 0x044 then qcxCmd s x w
  else if (off = 0x040 ∨ (0x04C ≤ off ∧ off ≤ 0x058)) ∧ ctxRuns s x = true then .refuse 0x01
  else if off = 0x084 then
    .done (if bitOf w.toNat 0 then ((s.setN (R.QCX_DT_LAST x) 0).setN (R.QCX_DT_MAX x) 0).setN (R.QCX_TRIG_CNT x) 0 else s)
  else if 0x0A0 ≤ off ∧ off < 0x0D0 then
    .done (if off % 8 = 0 then heldSet s p a (some w) else limitHi s p a w)
  else .done (s.setReg a w)

/-! ### QST page (R342) -/

def qstGet (s : State) (p : Option Path) (i : Nat) : Nat := tabGet (fun _ => 0) s.quill.qst (4 * pathIx p + i)
def qstSet (s : State) (p : Option Path) (i v : Nat) : State :=
  { s with quill := { s.quill with qst := tabSet (fun _ => 0) s.quill.qst (4 * pathIx p + i) v } }

def qstAdvance (s : State) (p : Option Path) : State := qstSet s p 0 ((qstGet s p 0 + 1) % 4096)

/-- What a performed write of the QST page does: ADDR, the holding registers, and the store word, which takes effect when the
edge in progress is over, so that every context executes the old word on it (R316, R337). -/
def qstWrite (s : State) (p : Option Path) (off : Nat) (w : Word) : WOut :=
  match off with
  | 0x040 => .done (qstSet s p 0 (bitsOf w.toNat 0 12))
  | 0x044 => .done (qstSet s p 1 w.toNat)
  | 0x048 => .done (qstSet s p 2 w.toNat)
  | 0x04C =>
    let d := qstGet s p 1 + 2 ^ 32 * qstGet s p 2 + 2 ^ 64 * w.toNat
    let t := { s with quill := { s.quill with wr := s.quill.wr ++ [(qstGet s p 0, d + 2 ^ 96 * parity3 d)] } }
    .done (qstAdvance (storeLands t) p)
  | _ => .done s

/-- The word of the store at `a` as the QST page has it: a word written during the edge under way has been taken (R113). -/
def storeRead (s : State) (a : Nat) : Nat :=
  match firstWhere (fun e => e.1 == a) s.quill.wr.reverse with
  | some e => e.2
  | none => storeRaw s a

/-- The word at `a` as a read with upsets leaves it, in the store, or waiting to enter it when the edge under way is over. -/
def storeUpset (s : State) (a v : Nat) : State :=
  if s.quill.wr.any (fun e => e.1 == a) then { s with quill := { s.quill with wr := s.quill.wr ++ [(a, v)] } }
  else setStoreRaw s a v

/-- A read of W0, W1 or W2 (R342); W0 fetches the word, after the upsets `flip`. -/
def qstReadOp (s0 : State) (p : Option Path) (i flip : Nat) : State × Word :=
  let s := storeLands s0
  match i with
  | 0 =>
    let a := qstGet s p 0
    let v := Nat.xor (storeRead s a) flip
    let s1 := qstSet (storeUpset s a v) p 3 (v % 2 ^ 96)
    let bad := parityBad v
    let s2 := s1.setN R.QST_STAT (b2n bad)
    (if bad then s2.irqBit 0x03C 0 else s2, BitVec.ofNat 32 v)
  | 1 => (s, BitVec.ofNat 32 (qstGet s p 3 / 2 ^ 32))
  | _ => (qstAdvance s p, BitVec.ofNat 32 (qstGet s p 3 / 2 ^ 64))

/-- QCX counters and timers as they read. -/
def qcxCount (s : State) (x off : Nat) : Nat :=
  if off < 0x0F0 then cntOf s x ((off - 0x0D0) / 8) else tmrOf s x ((off - 0x0F0) / 8)

end Sys2Proof.Machine
end

