-- ==== Sys2Proof/Machine/Tdc.lean ====
section
/-! DEFINITION. The time-interval unit (12_time_interval.md). -/

namespace Sys2Proof.Machine

def tdcDomOn (s : State) (h : Nat) : Bool := domOn s (51 + h)
def chCfg (s : State) (c : Nat) (f : Fld) : Nat := s.getF (R.TDC_CH_CFG c) f
def chEn (s : State) (c : Nat) : Bool := s.flag (R.TDC_CH_CFG c) F.TDC_CH_CFG_EN
def tdcQ (s : State) (c : Nat) : List TEnt := tabGet (fun _ => []) s.tdc.q c
def setTdcQ (s : State) (c : Nat) (q : List TEnt) : State :=
  { s with tdc := { s.tdc with q := tabSet (fun _ => []) s.tdc.q c q } }

/-- Interpolator steps in a generator period of half `h`: P = 128,000 / f (R369); 0 while the generator is at no
frequency. -/
def tdcP (s : State) (h : Nat) : Nat := if genMhz s (58 + h) = 0 then 0 else 128000 / genMhz s (58 + h)

/-- The capture timestamp of the first capture edge after the crossing, with CTSV (R376): exact on one clock, else to
within one cycle more, a free value; 0 while CAPF is off. -/
def tdcCts (s : State) (h : Nat) : State × Nat × Bool :=
  if !domOn s 48 then (s, 0, false)
  else if oneClock s (58 + h) 55 then (s, wrapAdd 48 s.cap.ts 1, true)
  else
    let (e, s1) := s.free 2
    (s1, wrapAdd 48 s.cap.ts (1 + e), true)

/-- By how much the timestamp of one edge of one channel is off, in LSBs: the offset between channels and the scatter of single
shots (R379, R589, Table 20.9). A free value within 32 LSBs, 250 ps (DESIGN CHOICE, log entry 42: the specification bounds the
offset and gives the scatter as an rms figure). -/
def tdcError (s : State) : Int × State :=
  let (e, s1) := s.free 65
  ((e : Int) - 32, s1)

/-- An entry of channel `c` with the flags `d` (Table 12.1). -/
def tdcEntry (s : State) (c : Nat) (raw : Int) (cts d : Nat) (rising ctsv : Bool) : TEnt :=
  let t := (raw + signedOf 16 (s.getF (R.TDC_CH_OFS c) F.TDC_CH_OFS_OFS)) % (2 ^ 64 : Nat)
  ⟨t.toNat, cts, b2n rising + 2 * (d % 8) + 16 * b2n ctsv + 2 ^ 15⟩

def setOver (s : State) (c : Nat) (o : Option TOver) : State :=
  { s with tdc := { s.tdc with late := tabSet (fun _ => none) s.tdc.late c o } }

/-- A timestamped edge of channel `c` finds its queue with room, or full (R377); an overflow is kept as it was, for a read in the
same generator cycle (R390). -/
def tdcStore (s : State) (c step : Nat) (rising : Bool) : State :=
  let i := c % 8
  let page := 0x050 + c / 8
  let q := tdcQ s c
  let isFull := decide (1024 ≤ q.length)
  let (e, u) := tdcError s
  let raw : Int := step + e
  let (s0, cts, ctsv) := tdcCts u (c / 16)
  let d0 := tabGet (fun _ => 0) s.tdc.due c
  let s1 := if isFull then
      setOver ((tdcDue 4 (s0.satF (R.TDC_CH_LOST c) F.TDC_CH_LOST_N 1) c).irqBit page (8 + i)) c
        (some ⟨tbOf s (c / 16), q ++ [tdcEntry s c raw cts d0 rising ctsv], s.regN (R.TDC_CH_LOST c),
          bitOf (s.regN (R.PAGE_IRQ_RAW page)) (8 + i), 0⟩)
    else setOver s0 c none
  if isFull && chCfg s c F.TDC_CH_CFG_OVF == 0 then s1
  else
    let e := tdcEntry s c raw cts (tabGet (fun _ => 0) s1.tdc.due c) rising ctsv
    let q2 := (if isFull then q.drop 1 else q) ++ [e]
    let s3 := { s1 with tdc := { s1.tdc with due := tabSet (fun _ => 0) s1.tdc.due c 0 } }
    let s4 := (setTdcQ s3 c q2).wrapF (R.TDC_CH_EDGES c) F.TDC_CH_EDGES_N 1
    if q2.length = s.getF (R.TDC_CH_WM c) F.TDC_CH_WM_N ∧ q.length < q2.length then s4.irqBit page i else s4

/-- A read of channel `c` in the generator cycle of an overflow: nothing was lost or counted, and the new entry is stored, with
the flags owed before it; those that have come since stay owed (R390). -/
def tdcUndo (s : State) (c : Nat) : State :=
  match tabGet (fun _ => none) s.tdc.late c with
  | none => s
  | some o =>
    let s1 := setOver s c none
    if o.cnt ≠ tbOf s (c / 16) then s1
    else
      let a := R.PAGE_IRQ_RAW (0x050 + c / 8)
      let s2 := (setTdcQ s1 c o.q).setN (R.TDC_CH_LOST c) o.lost
      let s3 := if o.irq then s2 else s2.setN a (withBits (s2.regN a) (8 + c % 8) 1 0)
      let s4 := if chCfg s c F.TDC_CH_CFG_OVF = 0 then s3.wrapF (R.TDC_CH_EDGES c) F.TDC_CH_EDGES_N 1 else s3
      { s4 with tdc := { s4.tdc with due := tabSet (fun _ => 0) s4.tdc.due c o.since } }

/-- An edge of its source reaches channel `c` at interpolator step `step` of its half's timebase (R370, R374). -/
def tdcChannelEdge (rising : Bool) (step : Nat) (s : State) (c : Nat) : State :=
  let h := c / 16
  let p := tdcP s h
  let raw := (p * tbOf s h + step % p) % 2 ^ 64
  match tabGet (fun _ => none) s.tdc.last c with
  | some l => if (raw + 2 ^ 64 - l) % 2 ^ 64 < p then
      tdcDue 2 (s.satF (R.TDC_CH_MISSED c) F.TDC_CH_MISSED_N 1) c
    else tdcStore { s with tdc := { s.tdc with last := tabSet (fun _ => none) s.tdc.last c (some raw) } } c raw rising
  | none => tdcStore { s with tdc := { s.tdc with last := tabSet (fun _ => none) s.tdc.last c (some raw) } } c raw rising

/-- Channels of half `h` that take their edges from a source and whose timebase counts (R372, R387). -/
def tdcTakers (s : State) (src : TdcSrc) (h : Nat) : List Nat :=
  if tdcDomOn s h && genRuns s (58 + h) && tdcP s h != 0 then
    (tdcHalf h).filter (fun c => chEn s c && (match src with
      | .nib n => chCfg s c F.TDC_CH_CFG_SRC_KIND == 0 && chCfg s c F.TDC_CH_CFG_NIB == n.val
      | .tin t _ _ => chCfg s c F.TDC_CH_CFG_SRC_KIND == 1 && chCfg s c F.TDC_CH_CFG_TIN == t.val))
  else []

/-- An edge in the selected direction: 0 rising, 1 falling, 2 both. -/
def slopeTakes (slope : Nat) (rising : Bool) : Bool := if slope = 0 then rising else if slope = 1 then !rising else true

/-- Hysteresis code of a TIN input in mV (Table 12.4). -/
def tinHystMv (code : Nat) : Nat :=
  match code with
  | 0 => 0
  | 1 => 10
  | 2 => 20
  | _ => 40

/-- The comparator of TIN input `t` at `vp` and `vn` millivolts, whose output is `now`, all in units of 1/200 mV: VP - VN in MODE
0, VP in MODE 1, against THR, accurate to 1 % and 5 mV, with half the hysteresis to either side of it; `either` within that
accuracy (R381). -/
def tinLevel (s : State) (t : Nat) (vp vn : Int) (now either : Bool) : Bool :=
  let a := R.TIN_TIN_CFG t
  let thr := signedOf 12 (s.getF a F.TIN_TIN_CFG_THR)
  let half : Int := 100 * tinHystMv (s.getF a F.TIN_TIN_CFG_HYST)
  let v := 200 * (if s.flag a F.TIN_TIN_CFG_MODE then vp else vp - vn)
  let level := 200 * thr + (if now then -half else half)
  let band : Int := 2 * thr.natAbs + 1000
  if v > level + band then true else if v < level - band then false else either

/-- The comparator output before an edge: the other level, where nothing has shown it since the input was enabled (log entry
42). -/
def tinNow (s : State) (t : Nat) (rising : Bool) : Bool := (tabGet (fun _ => none) s.tdc.cmp t).getD (!rising)

/-- TIN input `t`: its comparator goes to `rising`; its count of selected edges and its prescaler, which no edge reaches while the
generators are gated: whether the edge is passed on (R382, R384, R387). -/
def tinEdge (s0 : State) (t : Nat) (rising : Bool) : State × Bool :=
  let s := { s0 with tdc := { s0.tdc with cmp := tabSet (fun _ => none) s0.tdc.cmp t (some rising) } }
  let s1 := s.setN (R.TIN_TIN_STAT t) 1
  if s.flag (R.TIN_TIN_CFG t) F.TIN_TIN_CFG_EN && slopeTakes (s.getF (R.TIN_TIN_CFG t) F.TIN_TIN_CFG_SLOPE) rising &&
      (genRuns s 58 || genRuns s 59) then
    let n := tabGet (fun _ => 0) s.tdc.presc t
    ({ s1 with tdc := { s1.tdc with
        presc := tabSet (fun _ => 0) s1.tdc.presc t (n + 1)
        hz := tabSet (fun _ => 0) s1.tdc.hz t (tabGet (fun _ => 0) s1.tdc.hz t + b2n (genRuns s 58)) } },
      n % 2 ^ s.getF (R.TIN_TIN_CFG t) F.TIN_TIN_CFG_PRESC == 0)
  else (s1, false)

/-- `a` and `b` generator edges of halves A and B pass. A half on one clock with the capture engine counts with the capture
timestamp: both move while nothing looks at single capture edges, and else neither, such edges coming as commands (R376; log
entry 3). -/
def tbPass (s : State) (a b : Nat) : State :=
  let n := if tbWithCap s 0 then a else if tbWithCap s 1 then b else 0
  let t := if capQuiet s then capPass s n else s
  let own (h k : Nat) : Nat := if tbWithCap s h then (if capQuiet s then n else 0) else k
  tbAdvance (tbAdvance t 0 (own 0 a)) 1 (own 1 b)

/-- TDC_EDGE (R370, R372 to R377, R381, R382, R387): `a` and `b` are what halves A and B count; on one clock they count alike
(R371). -/
def execTdcEdge (src : TdcSrc) (rising : Bool) (a b0 : Nat × Nat) (s : State) : Out :=
  let b := if oneClock s 58 59 then a else b0
  let s1 := tbPass s a.1 b.1
  let (s2, pass) := match src with
    | .nib n => (s1, slopeTakes (nibCfg s n F.NIB_NIB_CFG_SLOPE) rising)
    | .tin t _ _ => if tdcDomOn s 0 then tinEdge s1 t rising else (s1, false)
  let happens := match src with
    | .nib n => tabGet (fun _ => false) s.nib.cmp n == rising
    | .tin t vp vn => tinNow s t rising != rising && tinLevel s t vp vn (tinNow s t rising) rising == rising
  let s3 := if pass then
      (tdcTakers s2 src 1).foldl (tdcChannelEdge rising b.2) ((tdcTakers s2 src 0).foldl (tdcChannelEdge rising a.2) s2)
    else s2
  whenCan s (live s && happens) s3

/-- TDC_RECALIBRATE (R380): no edge is missed or delayed by it. -/
def execTdcRecalibrate (c : Fin 32) (s : State) : Out :=
  whenCan s (live s && tdcDomOn s (c.val / 16)) s

def setHz (s : State) (t n : Nat) : State := { s with tdc := { s.tdc with hz := tabSet (fun _ => 0) s.tdc.hz t n } }

/-- TIN_FREQ_WINDOW (R384): a one-second window of generator 58 ends; the edges counted in it are reported. -/
def execTinFreqWindow (t : Fin 4) (active : Bool) (s : State) : Out :=
  whenCan s (live s && tdcDomOn s 0 && genRuns s 58 && s.flag (R.TIN_TIN_CFG t) F.TIN_TIN_CFG_EN)
    (setHz ((s.setN (R.TIN_TIN_FREQ t) (tabGet (fun _ => 0) s.tdc.hz t)).setN (R.TIN_TIN_STAT t) (b2n active)) t 0)

/-! ### Queue reads (R378) -/

/-- The four words of an entry. -/
def entWords (e : TEnt) : List Nat :=
  [e.t % 2 ^ 32, e.t / 2 ^ 32, e.cts % 2 ^ 32, e.cts / 2 ^ 32 + 65536 * e.flags]

/-- Remove the oldest entry of channel `c`: its words, none when the queue is empty (R378, R390). -/
def tdcPop (s0 : State) (c : Nat) : State × Option (List Nat) :=
  let s := tdcUndo s0 c
  match tdcQ s c with
  | [] => (s, none)
  | e :: q => (setTdcQ s c q, some (entWords e))

/-- A read of Q_W0 on path `p`. -/
def tdcReadW0 (s : State) (p c : Nat) : State × Word :=
  let (s1, ws) := tdcPop s c
  let l := ws.getD []
  ({ s1 with tdc := { s1.tdc with latch := tabSet (fun _ => []) s1.tdc.latch (4 * c + p) l } }, BitVec.ofNat 32 (atD 0 l 0))

/-- What Q_W1 to Q_W3 return on path `p`. -/
def tdcLatched (s : State) (p c i : Nat) : Word :=
  BitVec.ofNat 32 (atD 0 (tabGet (fun _ => []) s.tdc.latch (4 * c + p)) i)

/-- The 16 bytes that an aligned DMA read of the window of channel `c` returns. -/
def tdcDmaRead (s : State) (c : Nat) : State × List Byte :=
  let (s1, ws) := tdcPop s c
  (s1, ((ws.getD [0, 0, 0, 0]).map (natLE 4)).flatten)

/-! ### TDC and TIN pages -/

/-- Reserved values of Table 12.3. -/
def tdcReserved (off w : Nat) : Bool :=
  if 0x100 ≤ off ∧ off < 0x300 then
    match off % 0x40 with
    | 0x00 => decide (336 ≤ bitsOf w 8 9)
    | 0x18 => bitsOf w 0 11 == 0 || decide (1024 < bitsOf w 0 11)
    | _ => false
  else false

/-- A write of CHi_CFG of channel `c` (R388, R389). -/
def tdcCfgOp (s : State) (c : Nat) (w : Word) : WOut :=
  let a := R.TDC_CH_CFG c
  let en := bitOf w.toNat 0
  let mhz := genMhz s (58 + c / 16)
  if chEn s c && (w.toNat / 2 != s.regN a / 2) then .refuse 0x02
  else if en && !chEn s c then
    if s.phase ≠ .run then .refuse 0x05
    else if !([50, 100, 200, 400].contains mhz) then .refuse 0x04
    else
      let s1 := setOver (setTdcQ (s.setReg a w) c []) c none
      let s2 := ((s1.setN (R.TDC_CH_LOST c) 0).setN (R.TDC_CH_MISSED c) 0).setN (R.TDC_CH_EDGES c) 0
      let s3 := { s2 with tdc := { s2.tdc with
        last := tabSet (fun _ => none) s2.tdc.last c none
        due := tabSet (fun _ => 0) s2.tdc.due c 0 } }
      .done (if bitOf w.toNat 4 then
          { s3 with tdc := { s3.tdc with presc := tabSet (fun _ => 0) s3.tdc.presc (bitsOf w.toNat 20 2) 0 } }
        else s3)
  else .done (s.setReg a w)

/-- TDC0.CMD.ZERO (R371). A period that runs from a timestamped edge goes on across it (R374). -/
def tdcZeroOp (s : State) : WOut :=
  let t := setTb (setTb s 0 0) 1 0
  let moved (e : Nat × Option Nat) : Nat × Option Nat :=
    (e.1, e.2.map (fun l => (l + 2 ^ 64 - tdcP s (e.1 / 16) * tbOf s (e.1 / 16) % 2 ^ 64) % 2 ^ 64))
  if domOn s 51 && domOn s 52 && oneClock s 58 59 then
    .done { t with tdc := { t.tdc with last := t.tdc.last.map moved, late := [] } }
  else .refuse 0x03

/-- What a performed write of TDC page `i` does (R90, R371, R388). -/
def tdcWrite (s : State) (i off : Nat) (w : Word) : WOut :=
  if i = 0 ∧ s.phase = .steep then .refuse 0x01
  else if off = 0x044 then (if bitOf w.toNat 0 then tdcZeroOp s else .done s)
  else if 0x100 ≤ off ∧ off % 0x40 = 0 then tdcCfgOp s (8 * i + (off - 0x100) / 0x40) w
  else .done (s.setReg (0x50000 + 0x1000 * i + off) w)

/-- Reserved values of Table 12.5. -/
def tinReserved (off w : Nat) : Bool :=
  if off % 0x10 = 0 then
    let t := signedOf 12 (bitsOf w 16 12)
    bitsOf w 4 2 == 3 || decide (9 ≤ bitsOf w 8 4) || decide (t < -1200) || decide (1200 < t) || (bitOf w 1 && bitOf w 2)
  else false

/-- What a performed write of TINt_CFG does (R382, R388). -/
def tinWrite (s : State) (off : Nat) (w : Word) : WOut :=
  let t := (off - 0x040) / 16
  let a := R.TIN_TIN_CFG t
  let was := s.flag a F.TIN_TIN_CFG_EN
  if was && (w.toNat / 2 != s.regN a / 2) then .refuse 0x01
  else
    let s1 := s.setReg a w
    .done (if bitOf w.toNat 0 && !was then
      setHz { s1 with tdc := { s1.tdc with
        presc := tabSet (fun _ => 0) s1.tdc.presc t 0, cmp := tabSet (fun _ => none) s1.tdc.cmp t none } } t 0 else s1)

end Sys2Proof.Machine
end

