-- ==== Sys2Proof/Machine/Trace.lean ====
section
/-! DEFINITION. Tracing (11_tracing.md): traced pairs, transaction comparators, the divergence queue; and the capture
edge, on which the samples of every block are taken. -/

namespace Sys2Proof.Machine

def trcRun (s : State) : Bool := s.flag R.TRC_CTRL F.TRC_CTRL_RUN
def pairEn (s : State) (n : Nat) : Bool := s.mapBit (R.TRC_TEN 0) 4 n
def pairOf (s : State) (n : Nat) : TPair := tabGet (fun _ => noPair) s.trc.pair n
def setPair (s : State) (n : Nat) (p : TPair) : State :=
  { s with trc := { s.trc with pair := tabSet (fun _ => noPair) s.trc.pair n p } }
def standing (s : State) (n : Nat) : Bool := s.mapBit (R.TRC_STAND 0) 4 n
def setStanding (s : State) (n : Nat) (v : Bool) : State := s.setMapBit (R.TRC_STAND 0) 4 n v

/-! ### Profiles and comparators, read through `rd` (values in effect, or staged values) -/

def profIx (rd : Nat → Fld → Nat) (n : Nat) : Nat := rd (R.TRC_TPROF (n / 8)) ⟨4 * (n % 8), 4⟩
def profEarly (s : State) (n : Nat) : Nat := s.getF (R.TRC_PROF_EARLY (profIx s.getF n)) F.TRC_PROF_EARLY_CYC
def profLate (s : State) (n : Nat) : Nat := s.getF (R.TRC_PROF_LATE (profIx s.getF n)) F.TRC_PROF_LATE_CYC
def profClean (s : State) (n : Nat) : Nat := s.getF (R.TRC_PROF_CFG (profIx s.getF n)) F.TRC_PROF_CFG_CLEAN
def profZval (s : State) (n : Nat) : Bool := s.flag (R.TRC_PROF_CFG (profIx s.getF n)) F.TRC_PROF_CFG_ZVAL

def txEn (rd : Nat → Fld → Nat) (k : Nat) : Bool := rd (R.TRC_TX_CFG k) F.TRC_TX_CFG_EN == 1
def txStrobe (rd : Nat → Fld → Nat) (k : Nat) : Nat := rd (R.TRC_TX_CFG k) F.TRC_TX_CFG_STROBE
def txBank (rd : Nat → Fld → Nat) (k : Nat) : Nat := rd (R.TRC_TX_CFG k) F.TRC_TX_CFG_BANK
def txDelay (s : State) (k : Nat) : Nat := s.getF (R.TRC_TX_CFG k) F.TRC_TX_CFG_DELAY
def txRising (s : State) (k : Nat) : Bool := s.getF (R.TRC_TX_CFG k) F.TRC_TX_CFG_EDGE == 0
def txMask (rd : Nat → Fld → Nat) (k : Nat) : Nat :=
  rd (R.TRC_TX_MASK0 k) F.TRC_TX_MASK0_M + 2 ^ 32 * rd (R.TRC_TX_MASK1 k) F.TRC_TX_MASK1_M

/-- Output nibs of the data pairs of comparator `k`, bit 0 first (R352). -/
def txData (rd : Nat → Fld → Nat) (k : Nat) : List Nat := (setBits (txMask rd k) 48).map (48 * txBank rd k + ·)

def txOn (rd : Nat → Fld → Nat) : List Nat := (List.range 8).filter (txEn rd)

/-- A data pair of an enabled comparator: no edge matching applies to it (R353). -/
def isData (s : State) (n : Nat) : Bool := (txOn s.getF).any (fun k => (txData s.getF k).contains n)

/-- The pairs whose edges are matched. -/
def edgePairs (s : State) : List Nat := (List.range 336).filter (fun n => pairEn s n && !isData s n)

/-! ### The capture edge -/

/-- Legacy and replacement values of a pair (R344). -/
def legacyNow (s : State) (n : Nat) : Bool := match nibPair s n with
  | some i => nibIn s i
  | none => false

def replNow (s : State) (n : Nat) : Bool :=
  let v := fabricValue s n
  if v.2 then v.1 else profZval s n

/-- The pair is suspended (R365). -/
def suspended (s : State) (n : Nat) : Bool :=
  !bankRuns s (n / 48) || (match boundPort s n with
    | some (x, _) => fenced s x
    | none => false)

/-- The bank of pair `n` is on one clock with the capture engine; otherwise L and V pass a synchroniser (R289, R345). -/
def pairOwn (s : State) (n : Nat) : Bool := oneClock s (bankGen (n / 48)) 55

/-- The stamp of what pair `n` shows on the last capture edge (R289, R345). -/
def pairTs (s : State) (n : Nat) : Nat := if pairOwn s n then s.cap.ts else emergedTs s

/-- L and V of pair `n` as the capture edge just taken has them (R344, R345): both behind synchronisers, which pass on what
comes whether or not the pair is traced, where its bank is on another clock. -/
def pairNow (s : State) (n : Nat) : Bool × Bool :=
  if pairOwn s n then (legacyNow s n, replNow s n)
  else
    let p := atD ([], []) s.cap.ports 2
    ((match nibPair s n with
      | some i => tabGet (fun _ => false) s.cap.s3 i
      | none => false), replNow { s with fab := { s.fab with port := p.1, crossed := p.2 } } n)

/-- The latest change of the legacy value of pair `n` (R359). -/
def legacyEdge (s : State) (n : Nat) : Option LEdge := (nibPair s n).bind (tabGet (fun _ => none) s.cap.ledge)

/-- A pair at a capture edge. -/
def samplePair (s : State) (n : Nat) : State :=
  let (l, v) := pairNow s n
  let q : TPair := { pairOf s n with cl := l, cv := v, fresh := true }
  setPair s n (if suspended s n then suspendPair q else q)

/-- Number whose bit i is the i-th of a list. -/
def bitsNum : List Bool → Nat
  | [] => 0
  | b :: bs => b2n b + 2 * bitsNum bs

/-- Data word of comparator `k` on one side at the last capture edge (R354). -/
def wordNow (s : State) (k : Nat) (legacy : Bool) : Nat :=
  bitsNum ((txData s.getF k).map (fun n => if legacy then (pairOf s n).cl else (pairOf s n).cv))

/-- Age of an edge of pair `n` in capture cycles (R366). -/
def ageOf (s : State) (n : Nat) (e : TEdge) : Nat := (pairTs s n + 2 ^ 48 - e.t) % 2 ^ 48

/-- An edge of the strobe of comparator `k` takes its data word on its sampling edge, DELAY after it (R354); one that a smaller
DELAY has overtaken takes it now (log entry 31). -/
def takeWord (s : State) (legacy : Bool) (e : TEdge) (k : Nat) : TEdge :=
  if e.word.any (fun x => x.1 == k) || decide (ageOf s (txStrobe s.getF k) e < txDelay s k) then e
  else { e with
    word := (k, wordNow s k legacy) :: e.word
    last := if legacy then (k, (txData s.getF k).map (legacyEdge s)) :: e.last else e.last }

/-- The data words that comparator `k` samples on this edge, for pending strobe edges and for matched ones. -/
def sampleTx (s : State) (k : Nat) : State :=
  let n := txStrobe s.getF k
  let p := pairOf s n
  let s1 := setPair s n { p with pl := p.pl.map (takeWord s true · k), pv := p.pv.map (takeWord s false · k) }
  { s1 with trc := { s1.trc with txn := s1.trc.txn.map (fun t =>
      if t.k = k then { t with l := takeWord s true t.l k, v := takeWord s false t.v k } else t) } }

/-- Tracing on a capture edge (R344 to R346, R354, R365, R366). -/
def traceSample (s : State) : State :=
  if trcRun s then (txOn s.getF).foldl sampleTx (((List.range 336).filter (pairEn s)).foldl samplePair s) else s

/-! ### What is due on the last capture edge -/

def trcLive (s : State) : Bool := live s && domOn s 48 && trcRun s

/-- A pending edge is a divergence (R349): 1 MISSING, 2 EXTRA, 0 none. -/
def divDue (s : State) (n : Nat) : Nat :=
  let p := pairOf s n
  match p.pl, p.pv with
  | e :: _, _ => if profLate s n < ageOf s n e ∨ 5 ≤ p.pl.length then 1 else 0
  | [], e :: _ => if profEarly s n < ageOf s n e ∨ 5 ≤ p.pv.length then 2 else 0
  | [], [] => 0

/-- The pair has an edge of a side to match (R346). -/
def edgeDue (s : State) (n : Nat) (legacy : Bool) : Bool :=
  let p := pairOf s n
  p.step && (if legacy then p.l != p.cl else p.v != p.cv)

def resyncDue (s : State) (n : Nat) : Bool :=
  let p := pairOf s n
  !p.step && p.fresh && p.cl == p.cv

/-- Both words of a transaction are sampled (R354). -/
def txnReady (t : TTxn) : Bool := t.l.word.any (fun e => e.1 == t.k) && t.v.word.any (fun e => e.1 == t.k)

/-- Something is to be decided before the next capture edge. -/
def traceDue (s : State) : Bool :=
  trcRun s && ((edgePairs s).any (fun n => divDue s n != 0 || edgeDue s n true || edgeDue s n false || resyncDue s n) ||
    s.trc.txn.any txnReady)

/-- The Quill edge under way is over, and on one clock with the capture engine the one of the last capture edge has come
(R320, R326). -/
def quillSettled (s : State) : Bool :=
  !genRuns s 57 || (edgeOver s && !(s.cap.fresh && anyCtxRuns s && oneClock s 55 57))

/-- CAPTURE_SAMPLE (R287 to R301): a capture edge with `e` edges of generator 56, or, while generator 55 is gated, those
alone. What the edge before gave rise to is over: a full, the end of POST, the end of throttling, tracing decisions, the
Quill edge. -/
def execCaptureSample (probes : List (Fin 64 × Bool)) (fall : List (Fin 336 × Bool)) (e : Nat) (s : State) : Out :=
  let settled := !fullDue s && !postDue s && !throttleOffDue s
  if genRuns s 55 then
    whenCan s (live s && domOn s 48 && settled && !traceDue s && quillSettled s && inkEdgesOk s e)
      (traceSample (captureEdge s probes fall e))
  else whenCan s (live s && domOn s 48 && settled && inkEdgesOk s e) (inkEdges s e)

/-! ### Records -/

/-- A divergence record (R350, R360): counted; discarded when the queue is full. -/
def writeRec (s : State) (ws : List Nat) : State :=
  let s1 := (s.satF R.TRC_DIV_CNT F.TRC_DIV_CNT_N 1).irqBit 0x040 2
  if 1024 ≤ s.trc.q.length then (s1.satF R.TRC_Q_LOST F.TRC_Q_LOST_N 1).irqBit 0x040 3
  else { s1 with trc := { s1.trc with q := s1.trc.q ++ [(s.cap.ts, ws)] } }

/-- An entry of a TDC queue is of the crossing that gave the change `e` of pair `n`'s legacy value (R359): the direction is its
own, and the capture timestamp, of the first capture edge after the crossing (R376), fits. With the bank on one clock
with the capture engine that edge took the change, or it is the one after where the channel's half is on another clock;
else the crossing lies after the change before it. -/
def entryFits (s : State) (n c : Nat) (e : LEdge) (x : TEnt) : Bool :=
  let next := wrapAdd 48 e.t 1
  let before (a b : Nat) : Bool := decide ((b + 2 ^ 48 - a) % 2 ^ 48 < 2 ^ 47)
  bitOf x.flags 4 && bitOf x.flags 0 == e.lvl &&
    (if pairOwn s n then x.cts == e.t || (x.cts == next && !oneClock s (58 + c / 16) 55)
     else before x.cts next && (match e.prev with
      | some p => x.cts != p && before p x.cts
      | none => true))

/-- The TDC time of a change of pair `n`'s legacy value (R359): the lowest enabled channel that takes its input nib, and the low
32 bits of the timestamp in its queue. -/
def tdcTime (s : State) (n : Nat) (e : LEdge) : Option (Nat × Nat) :=
  let nib := (nibPair s n).getD 511
  match firstWhere (fun c => chEn s c && chCfg s c F.TDC_CH_CFG_SRC_KIND == 0 && chCfg s c F.TDC_CH_CFG_NIB == nib) (List.range 32) with
  | none => none
  | some c => match firstWhere (entryFits s n c e) (tdcQ s c).reverse with
    | some x => some (c, x.t % 2 ^ 32)
    | none => none

/-- Word 0 of a record (Table 11.2). -/
def recWord0 (nib kind pulse lval : Nat) (tdc : Option (Nat × Nat)) (txc bit more : Nat) : Nat :=
  nib + 512 * kind + 4096 * pulse + 8192 * lval + (match tdc with
    | some (c, _) => 16384 + 32768 * c
    | none => 0) + 2 ^ 20 * txc + 2 ^ 23 * bit + 2 ^ 29 * more + 2 ^ 31

def recWords (w0 t dec : Nat) (tdc : Option (Nat × Nat)) : List Nat :=
  [w0, t % 2 ^ 32, t / 2 ^ 32 + 65536 * min dec 0xFFFF, (tdc.map (·.2)).getD 0]

/-- DECIDE (Table 11.2): capture cycles from an edge to the decision. -/
def decideAge (s : State) (e : TEdge) : Nat := (s.cap.ts + 2 ^ 48 - e.t) % 2 ^ 48

/-! ### Matching -/

/-- A match counts towards the end of a standing divergence (R357). -/
def countMatch (s : State) (n : Nat) : State :=
  if standing s n then
    let p := pairOf s n
    if profClean s n ≤ p.clean + 1 then ((setStanding s n false).irqBit 0x040 4 |> fun t => setPair t n { p with clean := 0 })
    else setPair s n { p with clean := p.clean + 1 }
  else s

/-- Matched strobe edges of the selected direction form a transaction (R354). -/
def formTxn (l v : TEdge) (s : State) (k : Nat) : State :=
  if l.lvl == txRising s k && v.lvl == txRising s k then
    { s with trc := { s.trc with txn := s.trc.txn ++ [⟨k, l, v⟩] } }
  else s

/-- A match of two edges of pair `n` (R347, R348, Table 11.3 PSTAT). -/
def matchEdges (s : State) (n : Nat) (l v : TEdge) : State :=
  let i := profIx s.getF n
  let lead := (l.t + 2 ^ 48 - v.t) % 2 ^ 48
  let lag := (v.t + 2 ^ 48 - l.t) % 2 ^ 48
  let s1 := if lead < 2 ^ 47 then s.setN (R.TRC_PSTAT_EARLY i) (max (s.regN (R.TRC_PSTAT_EARLY i)) lead)
    else s.setN (R.TRC_PSTAT_LATE i) (max (s.regN (R.TRC_PSTAT_LATE i)) lag)
  ((txOn s.getF).filter (fun k => txStrobe s.getF k == n)).foldl (formTxn l v) (countMatch s1 n)

/-- TRACE_EDGE (R346 to R348): the edge matches the oldest pending edge of the other side, or becomes pending. -/
def execTraceEdge (n : Fin 336) (legacy : Bool) (s : State) : Out :=
  let p := pairOf s n
  let e0 : TEdge := ⟨pairTs s n, if legacy then p.cl else p.cv, p.cl, if legacy then (legacyEdge s n).bind (·.prev) else none,
    [], []⟩
  let e := ((txOn s.getF).filter (fun k => txStrobe s.getF k == n.val)).foldl (takeWord s legacy) e0
  let p1 : TPair := if legacy then { p with l := p.cl } else { p with v := p.cv }
  let t := if legacy then
      (match p.pv with
        | v :: vs => matchEdges (setPair s n { p1 with pv := vs }) n e v
        | [] => setPair s n { p1 with pl := p.pl ++ [e] })
    else
      (match p.pl with
        | l :: ls => matchEdges (setPair s n { p1 with pl := ls }) n l e
        | [] => setPair s n { p1 with pv := p.pv ++ [e] })
  whenCan s (trcLive s && pairEn s n && !isData s n && divDue s n == 0 && edgeDue s n legacy) t

/-- Word of comparator `k` that an edge carries. -/
def wordOf (k : Nat) (e : TEdge) : Nat := ((firstWhere (fun x => x.1 == k) e.word).map (·.2)).getD 0

/-- The bits in which the words of a transaction differ. -/
def txnXor (t : TTxn) : Nat := Nat.xor (wordOf t.k t.l) (wordOf t.k t.v)

/-- The output nib that the record of a divergent transaction names (R355). -/
def txnNib (s : State) (t : TTxn) : Nat := atD 0 (txData s.getF t.k) ((setBits (txnXor t) 48).headD 0)

/-- Records decided on one capture edge are written by ascending NIB (R360): every edge has been matched, and no record of a
lower NIB is still to be written. -/
def recordTurn (s : State) (nib : Nat) : Bool :=
  !(edgePairs s).any (fun n => divDue s n == 0 && (edgeDue s n true || edgeDue s n false)) &&
    !(edgePairs s).any (fun n => decide (n < nib) && divDue s n != 0) &&
    !s.trc.txn.any (fun t => txnReady t && txnXor t != 0 && decide (txnNib s t < nib))

/-- TRACE_DIVERGENCE (R349 to R351). -/
def execTraceDivergence (n : Fin 336) (s : State) : Out :=
  let p := pairOf s n
  let kind := divDue s n
  let mine := if kind = 1 then p.pl else p.pv
  match mine with
  | [] => .next s
  | e :: more =>
    let tdc := if kind = 1 then tdcTime s n ⟨e.t, e.lvl, e.prev⟩ else none
    let w0 := recWord0 n kind (b2n (!more.isEmpty)) (b2n e.l) tdc 0 0 0
    let s1 := writeRec s (recWords w0 e.t (decideAge s e) tdc)
    let s2 := setPair s1 n { p with step := false, fresh := false, pl := [], pv := [], clean := 0 }
    whenCan s (trcLive s && pairEn s n && !isData s n && kind != 0 && recordTurn s n) (setStanding s2 n true)

/-- TRACE_RESYNC (R350): matching resumes from the next edge. -/
def execTraceResync (n : Fin 336) (s : State) : Out :=
  let p := pairOf s n
  whenCan s (trcLive s && pairEn s n && !isData s n && resyncDue s n)
    (setPair s n { p with step := true, l := p.cl, v := p.cv, pl := [], pv := [] })

/-! ### Transactions -/

/-- The standing bit of a data pair after a divergent transaction (R355, R357): set where its bit differs. -/
def standData (diff : Nat) : Nat → List Nat → State → State
  | _, [], s => s
  | i, n :: ns, s => standData diff (i + 1) ns
      (if bitOf diff i then setPair (setStanding s n true) n { (pairOf s n) with clean := 0 } else s)

/-- The latest change of the legacy value of data bit `i` at the legacy sampling edge (R359). -/
def lastOf (t : TTxn) (i : Nat) : Option LEdge :=
  match firstWhere (fun x => x.1 == t.k) t.l.last with
  | some x => atD none x.2 i
  | none => none

/-- A divergent transaction (R355, R359). -/
def txnDiff (s : State) (t : TTxn) : State :=
  let diff := txnXor t
  let i := (setBits diff 48).headD 0
  let n := txnNib s t
  let tdc := (lastOf t i).bind (tdcTime s n)
  let w0 := recWord0 n 3 0 (b2n (bitOf (wordOf t.k t.l) i)) tdc t.k i (b2n (1 < popCount diff 48))
  let s1 := writeRec s (recWords w0 t.l.t (decideAge s t.l) tdc)
  standData diff 0 (txData s.getF t.k) (s1.satF (R.TRC_TX_DIV t.k) F.TRC_TX_DIV_N 1)

/-- A transaction can be decided: its words are sampled, and the record of a divergent one is next (R354, R360). -/
def txnTurn (s : State) (t : TTxn) : Bool := txnReady t && (txnXor t == 0 || recordTurn s (txnNib s t))

/-- TRANSACTION_DECIDE: the oldest of the comparator's transactions that can be decided (R354, R355, R357). -/
def execTransactionDecide (k : Fin 8) (s : State) : Out :=
  match firstWhere (fun t => t.k == k.val && txnTurn s t) s.trc.txn with
  | none => .next s
  | some t =>
    let s1 := { s with trc := { s.trc with txn := s.trc.txn.erase t } }
    whenCan s (trcLive s) (if txnXor t = 0 then (txData s.getF k).foldl countMatch s1 else txnDiff s1 t)

/-! ### TRC page -/

/-- Reserved values of Table 11.4. -/
def trcReserved (off w : Nat) : Bool :=
  if 0x200 ≤ off ∧ off < 0x300 ∧ off % 16 = 8 then bitsOf w 0 16 == 0
  else if 0x380 ≤ off ∧ off % 16 = 0 then bitsOf w 12 3 == 7
  else false

/-- Every standing bit clears. -/
def clearStanding (s : State) : State := (List.range 11).foldl (fun t w => t.setN (R.TRC_STAND w) 0) s

/-- A performed write of TRC.CTRL (R367). -/
def trcCtrl (s : State) (w : Word) : WOut :=
  if bitOf w.toNat 0 then
    if s.phase ≠ .run then .refuse 0x07
    else if trcRun s then .done s
    else .done { (s.setReg R.TRC_CTRL w) with trc := { s.trc with pair := [], txn := [] } }
  else if trcRun s then
    let s1 := clearStanding (s.setReg R.TRC_CTRL w)
    .done { s1 with trc := { s1.trc with pair := [], txn := [], q := [] } }
  else .done s

/-- What a performed write of the TRC page does. -/
def trcWrite (s : State) (off : Nat) (w : Word) : WOut :=
  if off = 0x040 then trcCtrl s w
  else if off = 0x054 then
    .done (if bitOf w.toNat 0 then
      (List.range 8).foldl (fun t k => t.setN (R.TRC_TX_DIV k) 0)
        ((List.range 16).foldl (fun t i => (t.setN (R.TRC_PSTAT_EARLY i) 0).setN (R.TRC_PSTAT_LATE i) 0)
          ((s.setN R.TRC_Q_LOST 0).setN R.TRC_DIV_CNT 0))
    else s)
  else .done (s.setReg (0x40000 + off) w)

/-- A read of Q_W0 on path `p` (R361). -/
def trcReadW0 (s : State) (p : Nat) : State × Word :=
  match s.trc.q with
  | [] => ({ s with trc := { s.trc with latch := tabSet (fun _ => []) s.trc.latch p [] } }, 0)
  | r :: q => ({ s with trc := { s.trc with q := q, latch := tabSet (fun _ => []) s.trc.latch p r.2 } },
      BitVec.ofNat 32 (atD 0 r.2 0))

/-- What Q_W1 to Q_W3 return on path `p`. -/
def trcLatched (s : State) (p i : Nat) : Word := BitVec.ofNat 32 (atD 0 (tabGet (fun _ => []) s.trc.latch p) i)

/-! ### Commit of the TRC page (R362 to R364) -/

/-- The nibs for which a comparator's staged settings break condition 2 of R364. -/
def txFaults (rd : Nat → Fld → Nat) (k : Nat) : List Nat :=
  let st := txStrobe rd k
  let ten (n : Nat) : Bool := decide (n < 336) && rd (R.TRC_TEN (n / 32)) ⟨n % 32, 1⟩ == 1
  if txEn rd k then
    (if txMask rd k == 0 || !ten st || st / 48 != txBank rd k then [st] else []) ++ (txData rd k).filter (fun n => !ten n)
  else []

/-- The nibs that break condition 3 of R364. -/
def txShared (rd : Nat → Fld → Nat) : List Nat :=
  let ks := txOn rd
  (List.range 336).filter (fun n => decide (1 < (ks.filter (fun k => (txData rd k).contains n)).length) ||
    (ks.any (fun k => (txData rd k).contains n && ks.any (fun j => j != k && txStrobe rd j == n))))

/-- Smallest of a list. -/
def minOf : List Nat → Option Nat
  | [] => none
  | a :: l => some (match minOf l with
    | some b => min a b
    | none => a)

/-- Why the tracing unit refuses the staged settings: lowest nib concerned and reason (R364). -/
def traceRefusal (s : State) : Option (Nat × Nat) :=
  let rd := s.stagedF
  let c1 := (List.range 336).filter (fun n => rd (R.TRC_TEN (n / 32)) ⟨n % 32, 1⟩ == 1 &&
    !(isOutput s n && (nibPair s n).isSome))
  let c2 := ((List.range 8).map (txFaults rd)).flatten
  let c3 := txShared rd
  match minOf (c1 ++ c2 ++ c3) with
  | none => none
  | some n => some (n, if c1.contains n then 1 else if c2.contains n then 2 else 3)

/-- What concerns pair `n` in the settings: enable, profile, membership of comparators (R363). -/
def pairSettings (s : State) (n : Nat) : Bool × Nat × List Nat × List (Nat × Bool) :=
  let i := profIx s.getF n
  (pairEn s n, i, [s.regN (R.TRC_PROF_EARLY i), s.regN (R.TRC_PROF_LATE i), s.regN (R.TRC_PROF_CFG i)],
    ((txOn s.getF).filter (fun k => txStrobe s.getF k == n || (txData s.getF k).contains n)).map
      (fun k => (k, txStrobe s.getF k == n)))

/-- The settings of a pair have changed on an apply (R363): it starts out of step. -/
def pairChanged (s : State) (n : Nat) : State :=
  let s1 := setPair s n noPair
  let s2 := { s1 with trc := { s1.trc with txn := s1.trc.txn.filter (fun t => txStrobe s.getF t.k != n) } }
  if pairEn s n then s2 else setStanding s2 n false

/-- The tracing unit takes the settings in effect in `s` in place of those of `old` (R363). -/
def traceApply (old s : State) : State :=
  ((List.range 336).filter (fun n => pairSettings old n != pairSettings s n)).foldl pairChanged s

end Sys2Proof.Machine
end

