-- ==== Sys2Proof/Machine/Memory.lean ====
section
/-! DEFINITION. External memory: addresses, lines with ECC, encryption and integrity tags, the controller, keys
(13_memory_encryption.md), and the spill of the Inkwell (R304 to R306). DRAM is held as beats of 40 bits; a line filled
by a FILL is held as its range until something else is written to it. -/

namespace Sys2Proof.Machine

/-! ### Modes and regions -/

def memState (s : State) : Nat := s.getF R.MEMC_STAT F.MEMC_STAT_STATE
def keyIdMode (s : State) : Bool := s.flag R.XTS_CTRL F.XTS_CTRL_MODE
def integOn (s : State) : Bool := s.flag R.XTS_CTRL F.XTS_CTRL_INTEG
def dataTopMib (s : State) : Nat := s.getF R.MEMC_DATA_TOP F.MEMC_DATA_TOP_MIB

/-- Capacity in MiB (R394). -/
def capacityMib (s : State) : Nat :=
  (s.getF R.MEMC_CFG F.MEMC_CFG_RANKS + 1) * (if s.getF R.MEMC_CFG F.MEMC_CFG_DEVW = 0 then 4 else 2) *
    (512 * 2 ^ s.getF R.MEMC_CFG F.MEMC_CFG_DENS)

def slotKeys (s : State) (k : Nat) : Option KeySet := tabGet (fun _ => none) s.mem.slot k

/-- Slot of an address in the records: 0 in ephemeral mode (Table 19.6). -/
def slotOf (s : State) (a : Nat) : Nat := if keyIdMode s then a / 2 ^ 36 % 16 else 0

/-- A key set as KSIZE has it used (R403, R407): the first 16 or 32 bytes of each key. -/
def sized (s : State) (k : KeySet) : KeySet :=
  let n := if s.flag R.XTS_CTRL F.XTS_CTRL_KSIZE then 32 else 16
  ⟨k.k1.take n, k.k2.take n, k.kt.take n⟩

/-- Key set of an access (R405, R406). -/
def keysFor (s : State) (a : Nat) : Option KeySet :=
  (if keyIdMode s then slotKeys s (a / 2 ^ 36 % 16) else s.mem.eph).map (sized s)

/-- What a 40-bit internal physical address names (R400, R401, R303, R378). -/
inductive Target where
  | dram (byte : Nat)
  | inkwell (byte : Nat)
  | tdc (channel byte : Nat)
  | none
  deriving DecidableEq, Repr

def decodeAddr (a : Nat) : Target :=
  let lo := a % 2 ^ 36
  if lo < 2 ^ 34 then .dram lo
  else if a / 2 ^ 36 ≠ 0 then .none
  else if 0x800000000 ≤ lo ∧ lo < 0x800200000 then .inkwell (lo - 0x800000000)
  else if 0x801000000 ≤ lo ∧ lo < 0x801200000 then .tdc ((lo - 0x801000000) / 0x10000) (lo % 0x10000)
  else .none

/-! ### Events -/

/-- An error response (R420, Table 13.2). -/
def memError (s : State) : State := (s.satF R.MEMC_ERR_CNT F.MEMC_ERR_CNT_N 1).irqBit 0x060 5

/-- A correctable event (R398). -/
def memCe (s : State) (req line : Nat) : State :=
  (((s.satF R.MEMC_CE_CNT F.MEMC_CE_CNT_N 1).setN R.MEMC_CE_LAST line).setF R.MEMC_LAST_REQ F.MEMC_LAST_REQ_CE_REQ req).irqBit
    0x060 3

/-- An event of UE_LAST (Table 13.4). -/
def memUeLast (s : State) (req slot line kind : Nat) : State :=
  let s1 := s.setN R.MEMC_UE_LAST (line % 2 ^ 28 + 2 ^ 28 * kind)
  ((s1.setF R.MEMC_LAST_REQ F.MEMC_LAST_REQ_UE_REQ req).setF R.MEMC_LAST_REQ F.MEMC_LAST_REQ_UE_SLOT slot).irqBit 0x060 4

/-- An uncorrectable event: 1 read, 2 partial write (also counted as poisoned), 3 read of a poisoned line, 4 tag word
(R239, R237 by R399, R412). -/
def memUe (s : State) (req slot line kind : Nat) : State :=
  let s1 := if kind = 4 then s.satF R.MEMC_TAG_UE_CNT F.MEMC_TAG_UE_CNT_N 1 else s.satF R.MEMC_UE_CNT F.MEMC_UE_CNT_N 1
  let s2 := if kind = 2 then s1.satF R.MEMC_POISON_CNT F.MEMC_POISON_CNT_N 1 else s1
  memUeLast s2 req slot line kind

/-- An integrity failure halts the device (R411, Table 19.6). -/
def integrityHalt (s : State) (req a : Nat) : State :=
  let line := a / 64 * 64
  halt s 1 (line % 2 ^ 32) (line / 2 ^ 32 % 256 + 256 * req + 4096 * slotOf s a)

/-! ### Beats, lines and tags -/

/-- A beat with its check bits: R232 with data bits 63:32 zero (R397). -/
def mkBeat (d : Nat) (poison : Bool) : Nat :=
  d % 2 ^ 32 + 2 ^ 32 * (if poison then Nat.xor (checkByte (d % 2 ^ 32)) 0xFE else checkByte (d % 2 ^ 32))

def beatClass (b : Nat) : EccClass := classify (Nat.xor (b / 2 ^ 32 % 256) (checkByte (b % 2 ^ 32)))

/-- Data of a beat, corrected where it can be. -/
def beatData (b : Nat) : Nat :=
  match beatClass b with
  | .correctable (some i) => Nat.xor (b % 2 ^ 32) (2 ^ i) % 2 ^ 32
  | _ => b % 2 ^ 32

/-- Bytes as beats, four bytes each, low lane first (R394). -/
def beatsOf (poison : Bool) : Nat → List Byte → List Nat
  | 0, _ => []
  | n + 1, bs => mkBeat (leNat (bs.take 4)) poison :: beatsOf poison n (bs.drop 4)

def beatBytes (bs : List Nat) : List Byte := (bs.map (fun b => natLE 4 (beatData b))).flatten

/-- A line under keys `k`: its ciphertext (R403, R404). -/
def lineEnc (k : KeySet) (i : Nat) (p : List Byte) : List Byte := xtsEncLine k.k1 k.k2 i p

/-- Tag of a line of ciphertext (R409). -/
def lineTag (k : KeySet) (i : Nat) (ct : List Byte) : Nat := beNat ((aesCmac k.kt (ct ++ natLE 8 i)).take 8)

def tagBeats (t : Nat) : List Nat := [mkBeat (t % 2 ^ 32) false, mkBeat (t / 2 ^ 32) false]

/-- The fill that a line without contents of its own belongs to. -/
def fillOf (s : State) (i : Nat) : Option KeySet :=
  (firstWhere (fun f => decide (f.1 ≤ i) && decide (i < f.1 + f.2.1)) s.mem.fills).map (fun f => f.2.2)

/-- A beat as it stands, given what its line's fill would hold. -/
def beatOr (s : State) (v : Option Nat) (dflt : Option Nat) (junk : Nat) : Nat :=
  match v with
  | some b => b
  | none => match dflt with
    | some b => b
    | none => Config.dramBeat s.mem.epoch junk % 2 ^ 40

/-- The 16 beats of line `i` (R397). -/
def lineBeats (s : State) (i : Nat) : List Nat :=
  let vs := tabGetRun (fun _ => none) s.mem.beat (16 * i) 16
  let z := (fillOf s i).map (fun k => beatsOf false 16 (lineEnc k i (List.replicate 64 0#8)))
  if vs.all Option.isSome then vs.map (fun v => v.getD 0)
  else (List.range 16).map (fun j => beatOr s (atD none vs j) (z.map (fun l => atD 0 l j)) (16 * i + j))

/-- The two beats of the tag word of line `i` (R408). -/
def tagOf (s : State) (i : Nat) : List Nat :=
  let vs := tabGetRun (fun _ => none) s.mem.tag (2 * i) 2
  let z := (fillOf s i).map (fun k => tagBeats (lineTag k i (lineEnc k i (List.replicate 64 0#8))))
  if vs.all Option.isSome then vs.map (fun v => v.getD 0)
  else (List.range 2).map (fun j => beatOr s (atD none vs j) (z.map (fun l => atD 0 l j)) (2 ^ 40 + 2 * i + j))

def setBeats (s : State) (i : Nat) (bs : List Nat) : State :=
  { s with mem := { s.mem with beat := tabPut (fun _ => none) s.mem.beat (16 * i) (bs.map some) } }

def setTag (s : State) (i : Nat) (bs : List Nat) : State :=
  { s with mem := { s.mem with tag := tabPut (fun _ => none) s.mem.tag (2 * i) (bs.map some) } }

/-- Store ciphertext as line `i`, and its tag with integrity on (R409, R412). -/
def putLine (s : State) (k : KeySet) (i : Nat) (ct : List Byte) (poison : Bool) : State :=
  let s1 := setBeats s i (beatsOf poison 16 ct)
  if integOn s then setTag s1 i (tagBeats (lineTag k i ct)) else s1

/-- XOR masks on the beats of a list, by index from `base`. -/
def flipBeats (base : Nat) (bs : List Nat) : List (Fin 18 × BitVec 72) → List Nat
  | [] => bs
  | (j, m) :: l => flipBeats base (if base ≤ j.val ∧ j.val < base + bs.length then
      setAt bs (j.val - base) (Nat.xor (atD 0 bs (j.val - base)) (m.toNat % 2 ^ 40)) else bs) l

/-- Bits of a line and of its tag word upset. -/
def upsetLine (s : State) (i : Nat) (flips : List (Fin 18 × BitVec 72)) : State :=
  if flips.isEmpty then s
  else
    let s1 := setBeats s i (flipBeats 0 (lineBeats s i) flips)
    if integOn s then setTag s1 i (flipBeats 16 (tagOf s i) flips) else s1

/-- A FILL in progress covers line `i`, which an access has not yet found filled. -/
def fillCovers (s : State) (i : Nat) : Bool :=
  match s.mem.fill with
  | some (lo, n, _) => decide (lo ≤ i) && decide (i < lo + n) && !s.mem.reached.contains i && memState s == 4
  | none => false

/-- Key set of the FILL in progress. -/
def fillKeys (s : State) : Option KeySet :=
  match s.mem.fill with
  | some (_, _, k) => (if keyIdMode s then slotKeys s k else s.mem.eph).map (sized s)
  | none => none

/-- The FILL in progress has written line `i` (R418). -/
def fillReaches (s : State) (i : Nat) : State :=
  match fillKeys s with
  | some k =>
    if fillCovers s i then
      let s1 := putLine s k i (lineEnc k i (List.replicate 64 0#8)) false
      { s1 with mem := { s1.mem with reached := i :: s1.mem.reached } }
    else s
  | none => s

/-- Class of a line (R398): 0 good, 1 correctable, 2 poisoned, 3 uncorrectable. -/
def lineClass (bs : List Nat) : Nat :=
  if bs.any (fun b => beatClass b == .uncorrectable) then 3
  else if bs.any (fun b => beatClass b == .poisoned) then 2
  else if bs.any (fun b => isCorrectable' (beatClass b)) then 1 else 0
where
  /-- The class is correctable. -/
  isCorrectable' : EccClass → Bool
    | .correctable _ => true
    | _ => false

/-! ### Requests -/

/-- What a request comes to: a response with data, or no response because the device has halted. -/
inductive MemAns where
  | resp (code : Nat) (data : List Byte)
  | halted
  deriving DecidableEq, Repr

/-- The DRAM error response that a request meets before any access (Table 13.2): the state, the key bits, the slot, and the
region (R420, R417; log entry 14). -/
def dramError (s : State) (a byte len : Nat) : Nat :=
  if !domOn s 57 || !(memState s == 3 || memState s == 4) then 3
  else if a / 2 ^ 36 ≠ 0 && !keyIdMode s then 1
  else if (keysFor s a).isNone then 2
  else if 2 ^ 20 * dataTopMib s < byte + len then 1
  else 0

/-- Take the words of a line for a read (R398, R410 to R412): the line's ciphertext; or an error response; or a halt. -/
inductive LineAns where
  | ok (ct : List Byte)
  | err (code : Nat)
  | bad
  deriving DecidableEq, Repr

/-- The tag check of line `i` (R409 to R412). -/
def tagCheck (s : State) (req a i : Nat) (k : KeySet) (ct : List Byte) : State × LineAns :=
  if integOn s then
    let tb := tagOf s i
    let c := lineClass tb
    if 2 ≤ c then (memUe s req (slotOf s a) i 4, .err 5)
    else
      let s1 := if c = 1 then memCe s req i else s
      let t := beatData (atD 0 tb 0) + 2 ^ 32 * beatData (atD 0 tb 1)
      if t = lineTag k i ct then (s1.wrapF R.XTS_CHECKS F.XTS_CHECKS_N 1, .ok ct) else (integrityHalt s1 req a, .bad)
  else (s, .ok ct)

/-- Read the line of address `a` under `k`. -/
def readLine (s : State) (req a i : Nat) (k : KeySet) : State × LineAns :=
  let bs := lineBeats s i
  let ct := beatBytes bs
  match lineClass bs with
  | 3 => (memUe s req (slotOf s a) i 1, .err 4)
  | 2 => (memUe s req (slotOf s a) i 3, .err 4)
  | 1 => tagCheck (memCe s req i) req a i k ct
  | _ => tagCheck s req a i k ct

/-- Inkwell words of a read, from word `w`: the data bytes and whether any was flagged (R303, R311). -/
def inkWords : Nat → Nat → List (Fin 18 × BitVec 72) → Nat → State → State × List Byte × Bool
  | 0, _, _, _, s => (s, [], false)
  | n + 1, w, flips, j, s =>
    let f := ((firstWhere (fun e => e.1.val == j) flips).map (fun e => e.2.toNat)).getD 0
    let (s1, d, bad) := inkFetch s w f
    let (s2, rest, bad2) := inkWords n (w + 1) flips (j + 1) s1
    (s2, natLE 8 d ++ rest, bad || bad2)

/-- An error response. -/
def answerError (s : State) (code : Nat) : State × MemAns := (memError s, .resp code [])

/-- Perform a read of `len` bytes at `a` for requester `req` (0 DMA, 1 spill, 2 controller): MEMORY_READ (R410). -/
def memRead (s : State) (req a len : Nat) (flips : List (Fin 18 × BitVec 72)) (filled : Bool) : State × MemAns :=
  match decodeAddr a with
  | .none => answerError s 1
  | .inkwell b =>
    if !domOn s 49 then answerError s 1
    else
      let (s1, d, bad) := inkWords ((b % 8 + len + 7) / 8) (b / 8) flips 0 s
      if bad then answerError s1 4 else (s1, .resp 0 ((d.drop (b % 8)).take len))
  | .tdc c b =>
    if len ≠ 16 ∨ b % 16 ≠ 0 ∨ tdcDomOn s (c / 16) = false then answerError s 1
    else
      let (s1, d) := tdcDmaRead s c
      (s1, .resp 0 d)
  | .dram byte =>
    let e := dramError s a byte len
    if e ≠ 0 then answerError s e
    else match keysFor s a with
      | none => answerError s 2
      | some k =>
        let i := byte / 64
        let s1 := upsetLine (if filled then fillReaches s i else s) i flips
        match readLine s1 req a i k with
        | (t, .ok ct) => (t, .resp 0 (((xtsDecLine k.k1 k.k2 i ct).drop (byte % 64)).take len))
        | (t, .err c) => answerError t c
        | (t, .bad) => (t, .halted)

/-- Bytes `new` placed at `off` within a line. -/
def patch (old new : List Byte) (off : Nat) : List Byte := old.take off ++ new ++ old.drop (off + new.length)

/-- The read half and the merge of a partial write (R399): a poisoned or uncorrectable line is stored poisoned, the
bytes kept being those of the line as it decrypts. -/
def partialWrite (s : State) (req a i off : Nat) (k : KeySet) (d : List Byte) : State × MemAns :=
  let bs := lineBeats s i
  let old := xtsDecLine k.k1 k.k2 i (beatBytes bs)
  let c := lineClass bs
  if 2 ≤ c then
    let s1 := if c = 3 then memUe s req (slotOf s a) i 2 else s
    (putLine s1 k i (lineEnc k i (patch old d off)) true, .resp 0 [])
  else match tagCheck (if c = 1 then memCe s req i else s) req a i k (beatBytes bs) with
    | (t, .ok _) => (putLine t k i (lineEnc k i (patch old d off)) false, .resp 0 [])
    | (t, .err e) => answerError t e
    | (t, .bad) => (t, .halted)

/-- Perform a write of bytes `d` at `a` (R399, R409, R420): MEMORY_WRITE. -/
def memWrite (s : State) (req a : Nat) (d : List Byte) (poison : Bool) (flips : List (Fin 18 × BitVec 72))
    (filled : Bool) : State × MemAns :=
  match decodeAddr a with
  | .dram byte =>
    let e := dramError s a byte d.length
    if e ≠ 0 then answerError s e
    else match keysFor s a with
      | none => answerError s 2
      | some k =>
        let i := byte / 64
        let s1 := upsetLine (if filled then fillReaches s i else s) i flips
        if d.length = 64 then (putLine s1 k i (lineEnc k i d) poison, .resp 0 [])
        else partialWrite s1 req a i (byte % 64) k d
  | _ => answerError s 1

/-! ### Tags in flight (R413 to R415) -/

def dmaOut (s : State) : Nat := (s.dma.ch.map (fun e => e.2.fl.length)).foldl (· + ·) 0
def spillOut (s : State) : Nat := s.cap.spOut.length
/-- The controller's own tags in use, of its 1,024 (R413): some while it fills; those of its integrity-tag traffic, while
accesses to integrity-checked memory are in flight. Each a free number, drawn when a request is issued or a fill begins. -/
def ctlOut (s : State) : Nat :=
  if memState s = 2 ∨ memState s = 4 then 1 + s.mem.ctl % 1024
  else if memState s = 3 ∧ integOn s = true ∧ 0 < dmaOut s + spillOut s then s.mem.ctl % 1025
  else 0
def inflight (s : State) : Nat := dmaOut s + spillOut s + ctlOut s

/-- A requester may take one more tag: below its MAX, and not into the other's unused MIN (R414). -/
def tagFree (s : State) (spill : Bool) : Bool :=
  let mine := if spill then spillOut s else dmaOut s
  let other := if spill then dmaOut s else spillOut s
  let myMax := if spill then s.getF R.MEMC_BUD_SPILL F.MEMC_BUD_SPILL_MAX else s.getF R.MEMC_BUD_DMA F.MEMC_BUD_DMA_MAX
  let otherMin := if spill then s.getF R.MEMC_BUD_DMA F.MEMC_BUD_DMA_MIN else s.getF R.MEMC_BUD_SPILL F.MEMC_BUD_SPILL_MIN
  decide (mine < myMax) && decide (mine + 1 + max other otherMin ≤ 31744)

/-- INFLIGHT.PEAK follows the tags in use. -/
def notePeak (s : State) : State :=
  s.setF R.MEMC_INFLIGHT F.MEMC_INFLIGHT_PEAK (max (s.getF R.MEMC_INFLIGHT F.MEMC_INFLIGHT_PEAK) (inflight s))

/-- The controller takes tags of its own, for a fill or for the integrity tags of an access (R413, R418). -/
def ctlTags (s : State) : State :=
  let (n, t) := s.free 1025
  notePeak { t with mem := { t.mem with ctl := n } }

/-- A request is in flight (R413). -/
def noteIssue (s : State) : State := if memState s = 3 ∧ integOn s = true then ctlTags s else notePeak s

/-- The memory system takes a request (R415, R515): its arbiter has edges, and neither the controller nor the engines behind it
are under test or about to be switched off. With MEMC off every DRAM request is answered NOT_READY. -/
def memTakes (s : State) : Bool :=
  !s.bist.isol.contains 57 && !s.bist.isol.contains 58 && !prepOff s 57 && !prepOff s 58 && (domSt s 57 != 0 || genRuns s 60)

/-- The unit behind an on-chip window answers (R515): one under test does not. -/
def windowAnswers (s : State) (a : Nat) : Bool :=
  match decodeAddr a with
  | .inkwell _ => !s.bist.isol.contains 49
  | .tdc c _ => !s.bist.isol.contains (51 + c / 16)
  | _ => true

/-! ### Arbitration (R415) -/

/-- The requester whose turn it is: a turn used up passes to the other. -/
def turnOf (s : State) : Bool := if s.mem.left = 0 then !s.mem.spillTurn else s.mem.spillTurn

/-- Lines that a turn is worth. -/
def weightOf (s : State) (spill : Bool) : Nat :=
  s.getF R.MEMC_ARB (if spill then F.MEMC_ARB_W_SPILL else F.MEMC_ARB_W_DMA)

/-- A line of `spill`, or of the DMA engine, is granted: in its turn, or out of it as the start of a turn of its own, the other
having nothing to ask. -/
def noteGrant (s : State) (spill : Bool) : State :=
  let left := if s.mem.left ≠ 0 ∧ s.mem.spillTurn = spill then s.mem.left - 1 else weightOf s spill - 1
  { s with mem := { s.mem with spillTurn := spill, left := left } }

/-! ### Spill (R304 to R306) -/

/-- Address of line write `n` since ARM. -/
def spillAddr (s : State) (n : Nat) : Nat :=
  (s.regN R.INK_SPILL_BASE_LO + 2 ^ 32 * s.regN R.INK_SPILL_BASE_HI + n / 64 % spillSize s * 4096 + n % 64 * 64) % 2 ^ 40

/-- A spill line write can be issued: a block to spill, a tag, and a place in the region, which under WRAP its oldest block gives
up (Table 9.6). -/
def spillReady (s : State) : Bool :=
  live s && domOn s 49 && genRuns s 56 && !prepOff s 49 && spillBusy s && decide (s.cap.spBlk < spillTotal s) && tagFree s true &&
    (!regionBlocked s || (inkPolicy s == 2 && (s.cap.ring || capState s == 3)))

/-- Spill has strict priority (R415). -/
def spillUrgent (s : State) : Bool :=
  spillReady s && decide (s.getF R.MEMC_ARB F.MEMC_ARB_URG_BLK ≤ s.cap.blocks - s.cap.freed)

/-- The eight words of a line of the block being spilled: data, and whether one is flagged (R311). In the partial block
the words not written are zero (R306). -/
def spillWords : Nat → Nat → Nat → State → State × List Byte × Bool
  | 0, _, _, s => (s, [], false)
  | n + 1, w, len, s =>
    if len ≤ w % 512 then
      let (s2, rest, bad2) := spillWords n (w + 1) len s
      (s2, natLE 8 0 ++ rest, bad2)
    else
      let v := tabGet (fun _ => 0) s.cap.ink w
      let s1 := if isCorrectable v then (s.satF R.INK_CE_CNT F.INK_CE_CNT_N 1).irqBit 0x031 3 else s
      let (s2, rest, bad2) := spillWords n (w + 1) len s1
      (s2, natLE 8 (eccData v) ++ rest, !eccUsable v || bad2)

/-- Issue and perform the next spill line write (R304, R311, R420). Under WRAP a full region gives up its oldest block. -/
def spillIssue (s : State) (flips : List (Fin 18 × BitVec 72)) (filled : Bool) : State :=
  let s0 := if regionBlocked s then { s with cap := { s.cap with spFreed := s.cap.spFreed + 1 } } else s
  let n := s0.cap.spIss
  let len := if s0.cap.spBlk < s0.cap.blocks then 512 else inkWr s0 % 512
  let (s1, d, bad) := spillWords 8 (s0.cap.spBlk % 512 * 512 + 8 * (n % 64)) len s0
  match memWrite s1 1 (spillAddr s0 n) d bad flips filled with
  | (t, _) =>
    inkSync (noteIssue { t with cap := { t.cap with
      spIss := n + 1
      spBlk := if n % 64 = 63 then t.cap.spBlk + 1 else t.cap.spBlk
      spOut := t.cap.spOut ++ [n] } })

/-- SPILL_LINE_ACK (R304, R306, R420): an error response counts as an acknowledgement; a block whose lines are all
acknowledged is freed. -/
def execSpillLineAck (n : Nat) (s : State) : Out :=
  let s1 := { s with cap := { s.cap with spOut := s.cap.spOut.erase n } }
  let done := s1.cap.spBlk - (s1.cap.spIss / 64 - spillDone s1)
  let freed := max s1.cap.freed (min done s1.cap.blocks)
  let s2 := { s1 with cap := { s1.cap with freed := freed, rate := s1.cap.rate && freed == s1.cap.freed } }
  whenCan s (live s && s.cap.spOut.contains n) (inkSync (spillEnd s2))

/-! ### Controller -/

/-- The generator clocked from `g`'s own settings, through a followed one (R168). -/
def genSource (s : State) (g : Nat) : Nat := genRoot s g

/-- Generator `g` gives output `q` of PLL `p` divided by 4, from its source or from its fallback (R167, R172). -/
def quarterOf (s : State) (g p q : Nat) : Bool :=
  let a := R.ISL_GEN_CFG g
  let b := R.ISL_GEN_FB g
  match genActive s g with
  | 1 => genKind s g == 2 && s.getF a F.ISL_GEN_CFG_SRC_PLL == p && s.getF a F.ISL_GEN_CFG_SRC_OUT == q &&
      s.getF a F.ISL_GEN_CFG_D == 4
  | 2 => s.getF b F.ISL_GEN_FB_FB_KIND == 2 && s.getF b F.ISL_GEN_FB_FB_PLL == p && s.getF b F.ISL_GEN_FB_FB_OUT == q &&
      s.getF b F.ISL_GEN_FB_FB_D == 4
  | _ => false

/-- Generator 60 runs at DDR_CK ÷ 4 from the output that makes DDR_CK, and DDR_CK runs (R395, Table 13.3). -/
def ddrClockOk (s : State) : Bool :=
  let p := s.getF R.MEMC_CFG F.MEMC_CFG_CK_PLL
  let q := s.getF R.MEMC_CFG F.MEMC_CFG_CK_OUT
  outRuns s p q && genRuns s 60 && quarterOf s (genSource s 60) p q

/-- A key set drawn from the random generator (R405, R406). -/
def drawKeys (s : State) : KeySet × State :=
  let (bs, s1) := s.freeBytes 96
  (⟨bs.take 32, (bs.drop 32).take 32, bs.drop 64⟩, s1)

def setMemState (s : State) (st : Nat) : State := s.setF R.MEMC_STAT F.MEMC_STAT_STATE st

/-- FAIL (R417). -/
def memFail (s : State) (err : Nat) : State :=
  let s1 := ((setMemState s 5).setF R.MEMC_STAT F.MEMC_STAT_TRAIN_ERR err).irqBit 0x060 1
  { s1 with mem := { s1.mem with fill := none, reached := [], alerts := 0 } }

/-- DRAM contents are lost, and DDR_RESET_N is asserted (R419). -/
def loseDram (s : State) : State :=
  { s with mem := { s.mem with
    beat := [], tag := [], fills := [], fill := none, reached := [], epoch := s.mem.epoch + 1, alerts := 0, resetN := false } }

/-- What the controller loses with its domain (R51): DRAM contents, its tags and the arbiter's turn. -/
def loseMemc (s : State) : State :=
  let t := loseDram s
  { t with mem := { t.mem with ctl := 0, spillTurn := true, left := 0 } }

/-- INIT (Table 13.3, R402, R405). It releases DDR_RESET_N (log entry 32). -/
def memcInitOp (s : State) : WOut :=
  if memState s ≠ 0 then .refuse 0x02
  else if !ddrClockOk s then .refuse 0x03
  else
    let c := capacityMib s
    let s0 := { s with mem := { s.mem with resetN := true } }
    let s1 := (s0.setN R.MEMC_STAT 1).setN R.MEMC_DATA_TOP (if integOn s then c * 7 / 8 else c)
    .done (if keyIdMode s then s1.setF R.XTS_STAT F.XTS_STAT_EPH_KEY 0
      else
        let (k, s2) := drawKeys s1
        { (s2.setF R.XTS_STAT F.XTS_STAT_EPH_KEY 1) with mem := { s2.mem with eph := some k } })

/-- STOP (R419). -/
def memcStopOp (s : State) : WOut :=
  if inflight s ≠ 0 then .refuse 0x05
  else if memState s = 0 then .done s
  else .done (loseDram (setMemState s 0))

/-- FILL (R418, Table 13.3). -/
def memcFillOp (s : State) : WOut :=
  let lo := s.getF R.MEMC_FILL_BASE F.MEMC_FILL_BASE_LINE
  let k := s.getF R.MEMC_FILL_BASE F.MEMC_FILL_BASE_SLOT
  let n := s.getF R.MEMC_FILL_LEN F.MEMC_FILL_LEN_LINES
  if memState s ≠ 3 ∨ 16384 * dataTopMib s < lo + n ∨ (keyIdMode s = true ∧ slotKeys s k = none) then .refuse 0x04
  else .done (ctlTags { (setMemState s 4) with mem := { s.mem with fill := some (lo, n, k), reached := [] } })

/-- A performed write of MEMC.CMD. -/
def memcCmd (s : State) (w : Word) : WOut :=
  if bitOf w.toNat 0 then memcInitOp s
  else if bitOf w.toNat 1 then memcStopOp s
  else if bitOf w.toNat 2 then memcFillOp s
  else .done s

/-- The controller and the engines behind it work (R515). -/
def memLive (s : State) : Bool := live s && domOn s 57 && !s.bist.isol.contains 58

/-- MEMC_TRAIN_DONE (Table 13.1). -/
def execMemcTrainDone (fail : Fin 6) (s : State) : Out :=
  whenCan s (memLive s && memState s == 1)
    (if fail.val ≠ 0 then memFail s fail
     else if !keyIdMode s && integOn s then ctlTags (setMemState s 2)
     else (setMemState s 3).irqBit 0x060 0)

/-- MEMC_TRAIN_TIMEOUT (Table 13.1). -/
def execMemcTrainTimeout (step : Fin 6) (s : State) : Out :=
  whenCan s (memLive s && memState s == 1 && step.val != 0) (memFail s step)

/-- A range is filled: its lines hold zero plaintext, but for those that accesses found filled and may have written. -/
def finishFill (s : State) (lo n : Nat) (k : KeySet) : State :=
  let keep (i : Nat) : Bool := s.mem.reached.contains i
  let within (i : Nat) : Bool := decide (lo ≤ i) && decide (i < lo + n)
  { s with mem := { s.mem with
    beat := tabDrop (fun b => within (b / 16) && !keep (b / 16)) s.mem.beat
    tag := tabDrop (fun b => within (b / 2) && !keep (b / 2)) s.mem.tag
    fills := (lo, n, k) :: s.mem.fills
    fill := none
    reached := [] } }

/-- MEMC_FILL_DONE (R418). -/
def execMemcFillDone (s : State) : Out :=
  if memState s = 2 then
    match s.mem.eph with
    | some k => whenCan s (memLive s)
        ((setMemState (finishFill { s with mem := { s.mem with reached := [] } } 0 (16384 * dataTopMib s) (sized s k)) 3).irqBit
          0x060 0)
    | none => .next s
  else match s.mem.fill, fillKeys s with
    | some (lo, n, _), some k => whenCan s (memLive s && memState s == 4)
        ((setMemState (finishFill s lo n k) 3).irqBit 0x060 2)
    | _, _ => .next s

/-- DDR_ALERT (R396, R417): a command meets a parity error, `again`: the re-issue of the one that met the last. It is issued
again up to three times; the fourth failure fails the controller. -/
def execDdrAlert (again : Bool) (s : State) : Out :=
  let n := if again then s.mem.alerts + 1 else 1
  whenCan s (memLive s && (memState s == 3 || memState s == 4))
    (if 4 ≤ n then memFail s 6 else { s with mem := { s.mem with alerts := n } })

/-! ### MEMC, XTS and KEYS pages -/

/-- Reserved values of Table 13.5. -/
def memcReserved (off w : Nat) : Bool :=
  match off with
  | 0x040 => decide (7 ≤ bitsOf w 0 4) || bitsOf w 5 2 == 3
  | 0x04C => decide (1 < popCount w 3)
  | 0x05C => bitsOf w 0 28 == 0
  | 0x060 => bitsOf w 0 4 == 0 || bitsOf w 4 4 == 0 || bitsOf w 16 9 == 0
  | 0x064 => decide (31744 < bitsOf w 0 15) || decide (31744 < bitsOf w 16 15)
  | 0x068 => decide (31744 < bitsOf w 0 15) || decide (31744 < bitsOf w 16 15)
  | _ => false

/-- A budget write that Table 13.3 refuses: MIN above MAX, or the MINs above 31,744 in sum. -/
def budgetBad (w otherMin : Nat) : Bool :=
  decide (bitsOf w 16 15 < bitsOf w 0 15) || decide (31744 < bitsOf w 0 15 + otherMin)

/-- Registers 0x070 to 0x08C of the MEMC page clear (Table 13.4, ECC_CLR). -/
def memcClear (s : State) : State :=
  [R.MEMC_CE_CNT, R.MEMC_UE_CNT, R.MEMC_POISON_CNT, R.MEMC_TAG_UE_CNT, R.MEMC_ERR_CNT, R.MEMC_CE_LAST, R.MEMC_UE_LAST,
    R.MEMC_LAST_REQ].foldl (fun t a => t.setN a 0) s

/-- What a performed write of the MEMC page does (Table 13.3). -/
def memcWrite (s : State) (off : Nat) (w : Word) : WOut :=
  match off with
  | 0x040 => if memState s ≠ 0 then .refuse 0x01 else .done (s.setReg R.MEMC_CFG w)
  | 0x044 => if memState s ≠ 0 then .refuse 0x01 else .done (s.setReg R.MEMC_TIM0 w)
  | 0x048 => if memState s ≠ 0 then .refuse 0x01 else .done (s.setReg R.MEMC_TIM1 w)
  | 0x04C => memcCmd s w
  | 0x064 => if budgetBad w.toNat (s.getF R.MEMC_BUD_SPILL F.MEMC_BUD_SPILL_MIN) then .refuse 0x06
      else .done (s.setReg R.MEMC_BUD_DMA w)
  | 0x068 => if budgetBad w.toNat (s.getF R.MEMC_BUD_DMA F.MEMC_BUD_DMA_MIN) then .refuse 0x06
      else .done (s.setReg R.MEMC_BUD_SPILL w)
  | 0x090 => .done (if bitOf w.toNat 0 then memcClear s else s)
  | _ => .done (s.setReg (0x60000 + off) w)

/-- What a performed write of the XTS page does (R423). -/
def xtsWrite (s : State) (off : Nat) (w : Word) : WOut :=
  if off = 0x040 then
    if memState s ≠ 0 && domSt s 57 == 0 then .refuse 0x01 else .done (s.setReg R.XTS_CTRL w)
  else .done (s.setReg (0x61000 + off) w)

/-- A transaction under slot `k` is in flight, or a FILL names it (R422). -/
def slotBusy (s : State) (k : Nat) : Bool :=
  let under (a : Nat) : Bool := keyIdMode s && decide (a % 2 ^ 36 < 2 ^ 34) && a / 2 ^ 36 % 16 == k
  s.dma.ch.any (fun e => e.2.fl.any (fun r => under r.addr)) || s.cap.spOut.any (fun n => under (spillAddr s n)) ||
    (match s.mem.fill with
      | some (_, _, j) => keyIdMode s && j == k
      | none => false)

/-- Slot `k` holds a key set, or none (Table 13.8, LOADED). -/
def setSlot (s : State) (k : Nat) (v : Option KeySet) : State :=
  { (s.setF R.KEYS_LOADED ⟨k, 1⟩ (b2n v.isSome)) with
    mem := { s.mem with slot := tabSet (fun _ => none) s.mem.slot k v } }

def kwGet (s : State) (p : Option Path) (i : Nat) : Word := tabGet (fun _ => 0#32) s.mem.kw (24 * pathIx p + i)

/-- `n` words of a path's key words from word `i`, as bytes (Table 13.8: little-endian within the key). -/
def kwBytes (s : State) (p : Option Path) (i n : Nat) : List Byte :=
  ((List.range n).map (fun j => natLE 4 (kwGet s p (i + j)).toNat)).flatten

/-- The key set that a path's words make (R424). With KSIZE 0 the words give 128 bits of each key; what the others would be
under another KSIZE is free. -/
def loadKeys (s : State) (p : Option Path) : KeySet × State :=
  if s.flag R.XTS_CTRL F.XTS_CTRL_KSIZE then (⟨kwBytes s p 0 8, kwBytes s p 8 8, kwBytes s p 16 8⟩, s)
  else
    let (bs, t) := s.freeBytes 48
    (⟨kwBytes s p 0 4 ++ bs.take 16, kwBytes s p 8 4 ++ (bs.drop 16).take 16, kwBytes s p 16 4 ++ bs.drop 32⟩, t)

/-- A performed write of KEYS.CMD (R422, R424). -/
def keysCmd (s : State) (p : Option Path) (w : Word) : WOut :=
  let k := s.getF R.KEYS_SEL F.KEYS_SEL_SLOT
  if w.toNat % 8 = 0 then .done s
  else if slotBusy s k then .refuse 0x01
  else if bitOf w.toNat 0 then
    let (ks, t) := loadKeys s p
    let s1 := setSlot t k (some ks)
    .done { s1 with mem := { s1.mem with kw := tabDrop (fun j => j / 24 == pathIx p) s1.mem.kw } }
  else if bitOf w.toNat 1 then
    if !s.flag R.XTS_STAT F.XTS_STAT_RNG_OK then .refuse 0x02
    else
      let (ks, s1) := drawKeys s
      .done (setSlot s1 k (some ks))
  else .done (setSlot s k none)

/-- Reserved values of Table 13.9. -/
def keysReserved (off w : Nat) : Bool := off == 0x044 && decide (1 < popCount w 3)

/-- What a performed write of the KEYS page does. -/
def keysWrite (s : State) (p : Option Path) (off : Nat) (w : Word) : WOut :=
  if off = 0x044 then keysCmd s p w
  else if 0x100 ≤ off then
    .done { s with mem := { s.mem with kw := tabSet (fun _ => 0#32) s.mem.kw (24 * pathIx p + (off - 0x100) / 4) w } }
  else .done (s.setReg (0x62000 + off) w)

end Sys2Proof.Machine
end

