-- ==== Sys2Proof/Machine/Link.lean ====
section
/-! DEFINITION. The Draught link: packets on a lane, numbering, encryption, replay, routing, completions and capture
streams (15_lanes_draught.md). -/

namespace Sys2Proof.Machine

/-! ### Lanes and their settings -/

/-- A lane carries routed packets: a session is in effect where encryption is enabled (R470). -/
def laneOpen (s : State) (n : Nat) : Bool := laneUp s n && (!laneEnc s n || (laneOf s n).sess.isSome)

/-! ### Packets -/

/-- Words of 32 bits, low byte first. -/
def wordsLE (bs : List Byte) : List Nat := (chunk4 bs).map leNat
def bytesLE (ws : List Nat) : List Byte := (ws.map (natLE 4)).flatten

def pktW (p : Pkt) (i : Nat) : Nat := atD 0 p.w i
/-- LSEQ of a packet (Table 15.4). -/
def pktSeq (p : Pkt) : Nat := bitsOf (pktW p 0) 16 12

/-- A packet to send: TYPE, DST, SRC, TAG, HOPS, ADDR, ARG and payload; LSEQ and ENC come with the sending. -/
def mkPkt (ty dst src tag hops addr arg : Nat) (pay : List Nat) : Pkt :=
  ⟨[ty % 256 + 256 * (pay.length % 256), dst % 256 + 256 * (src % 256) + 2 ^ 16 * (tag % 256) + 2 ^ 24 * (hops % 16),
    addr % 2 ^ 24, arg % 2 ^ 32], pay, []⟩

/-- IV of packet `n` of a session (R472); the 4-byte field is read as big-endian like the count (log entry 70). -/
def sessIv (field n : Nat) : List Byte := natBE 4 field ++ natBE 8 n

/-- A packet as it goes out with LSEQ `q`, encrypted under the session `e` (R470, R472). -/
def sealPkt (q : Nat) (e : Option Sess) (p : Pkt) : Pkt :=
  let w0 := withBits (withBits (pktW p 0) 16 12 q) 28 1 (b2n e.isSome)
  let hdr := w0 :: p.w.drop 1
  match e with
  | none => ⟨hdr, p.pay, []⟩
  | some k =>
    let iv := sessIv k.mine k.tx
    let ct := gcmCrypt k.key iv (bytesLE p.pay)
    ⟨hdr, wordsLE ct, gcmTag k.key iv (bytesLE hdr) ct⟩

/-- The payload that an encrypted packet carries, none when its tag fails (R470, R473). -/
def openPkt (k : Sess) (p : Pkt) : Option (List Nat) :=
  let iv := sessIv (1 - k.mine) k.rx
  let ct := bytesLE p.pay
  if gcmTag k.key iv (bytesLE p.w) ct = p.tag then some (wordsLE (gcmCrypt k.key iv ct)) else none

/-- A packet is numbered, sealed and kept for replay (R460). -/
def sendNow (s : State) (n : Nat) (p : Pkt) (enc : Bool) : State :=
  let l := laneOf s n
  let e := if enc then l.sess else none
  setLane s n { l with
    replay := l.replay ++ [sealPkt l.txSeq e p]
    txSeq := (l.txSeq + 1) % 4096
    sess := match l.sess with
      | some k => some (if enc then { k with tx := k.tx + 1 } else k)
      | none => none }

/-- The AES engines and the random generator work: their domain is not under test (R515). -/
def engines (s : State) : Bool := !s.bist.isol.contains 58

/-- A routed packet can go out on lane `n` (R460, R470). -/
def canSend (s : State) (n : Nat) : Bool :=
  laneOpen s n && decide ((laneOf s n).replay.length < 64) && (engines s || !laneEnc s n)

/-- Packets that wait go out as far as they can. -/
def drainOut : Nat → Nat → State → State
  | 0, _, s => s
  | f + 1, n, s =>
    match (laneOf s n).out with
    | [] => s
    | p :: r =>
      if canSend s n then drainOut f n (sendNow (setLane s n { laneOf s n with out := r }) n p (laneEnc s n)) else s

/-- Hand a routed packet to lane `n`. -/
def routeSend (s : State) (n : Nat) (p : Pkt) : State :=
  let l := laneOf s n
  drainOut (l.out.length + 1) n (setLane s n { l with out := l.out ++ [p] })

/-! ### Routing (R467) -/

def nodeId (s : State) : Nat := s.getF R.DLNK_NODE F.DLNK_NODE_ID

/-- A packet with this DST is addressed to the device (R467). -/
def addressed (s : State) (dst : Nat) : Bool := dst == 0xFF || (dst == nodeId s && nodeId s != 0)

/-- The route entry of a node (Table 15.9). -/
def routeOf (s : State) (node : Nat) : Option Nat :=
  let e := bitsOf (s.regN (R.DLNK_ROUTE (node / 4))) (8 * (node % 4)) 8
  if bitOf e 7 then some (e % 8) else none

/-- A completion (R465, R466) goes toward node `dst`: on the lane of its route entry, or without one on the lane the
request came on (log entry 71); it is discarded where that lane is not in UP (R463). -/
def sendCpl (s : State) (lane dst tag addr status kind word : Nat) (d : List Nat) : State :=
  let n := (routeOf s dst).getD lane
  if laneUp s n then
    routeSend s n (mkPkt 0x03 dst (nodeId s) tag 15 addr (status + 16 * kind + 256 * word) d)
  else s

/-- A packet that cannot be forwarded is dropped and counted; an RD or WR is answered with STATUS 5 (R467). -/
def unreachable (s : State) (lane : Nat) (p : Pkt) : State :=
  let s1 := (s.satF R.DLNK_UNREACH_CNT F.DLNK_UNREACH_CNT_N 1).irqBit 0x088 1
  let ty := bitsOf (pktW p 0) 0 8
  if ty = 0x01 ∨ ty = 0x02 then
    sendCpl s1 lane (bitsOf (pktW p 1) 8 8) (bitsOf (pktW p 1) 16 8) (pktW p 2 % 2 ^ 24) 5 0 0 []
  else s1

/-- A routed packet that is not addressed to the device (R467, R468); its payload is in plain text. -/
def forward (s : State) (lane : Nat) (p : Pkt) : State :=
  let hops := bitsOf (pktW p 1) 24 4
  match routeOf s (bitsOf (pktW p 1) 0 8) with
  | none => unreachable s lane p
  | some n =>
    if 0 < hops ∧ laneUp s n = true then
      routeSend s n ⟨[pktW p 0, withBits (pktW p 1) 24 4 (hops - 1), pktW p 2, pktW p 3], p.pay, []⟩
    else unreachable s lane p

/-! ### Capture streams (R469) -/

def strmOf (s : State) (k : Nat) : Strm := tabGet (fun _ => noStrm) s.dl.str k
def setStrm (s : State) (k : Nat) (x : Strm) : State :=
  { s with dl := { s.dl with str := tabSet (fun _ => noStrm) s.dl.str k x } }

def strLane (s : State) (k : Nat) : Nat := s.getF (R.DLNK_STR_CFG k) F.DLNK_STR_CFG_LANE

/-- Stream `k` is open (R469). -/
def strOpen (s : State) (k : Nat) : Bool := s.flag (R.DLNK_STR_CFG k) F.DLNK_STR_CFG_EN && laneOpen s (strLane s k)

def strCredit (s : State) (k : Nat) : Nat := s.getF (R.DLNK_STR_STAT k) F.DLNK_STR_STAT_CREDIT

/-- A closed packet is sent once the credit covers it and its lane takes it at once. -/
def streamSend (s : State) (k : Nat) : State :=
  let x := strmOf s k
  let n := strLane s k
  if strOpen s k && x.closed && !x.buf.isEmpty && decide (x.buf.length ≤ strCredit s k) && canSend s n &&
      (laneOf s n).out.isEmpty then
    let s1 := s.setF (R.DLNK_STR_STAT k) F.DLNK_STR_STAT_CREDIT (strCredit s k - x.buf.length)
    sendNow (setStrm s1 k noStrm) n
      (mkPkt 0x10 (s.getF (R.DLNK_STR_CFG k) F.DLNK_STR_CFG_DST) (nodeId s) 0 15 k 0 (wordsLE x.buf)) (laneEnc s n)
  else s

/-- Every stream sends what it can. -/
def streamsSend (s : State) : State := (List.range 16).foldl streamSend s

/-- Stream `k` can take an element of `e` bytes (R428). -/
def streamRoom (s : State) (k e : Nat) : Bool :=
  strOpen s k && !(strmOf s k).closed && decide ((strmOf s k).buf.length + e ≤ 256)

/-- An element is packed; a full packet closes (R469). -/
def streamPut (s : State) (k : Nat) (d : List Byte) : State :=
  let b := (strmOf s k).buf ++ d
  streamSend (setStrm s k ⟨b, b.length == 256⟩) k

/-- A packet closes for want of room for an element of `e` bytes. -/
def streamFullFor (s : State) (k e : Nat) : State :=
  if strOpen s k && decide (256 < (strmOf s k).buf.length + e) then
    streamSend (setStrm s k { strmOf s k with closed := true }) k
  else s

/-- STREAM_PACKET_CLOSE: 1 µs after the last element of stream `k` (R469). -/
def execStreamPacketClose (k : Fin 16) (s : State) : Out :=
  whenCan s (live s && strOpen s k && !(strmOf s k).buf.isEmpty && !(strmOf s k).closed)
    (streamSend (setStrm s k { strmOf s k with closed := true }) k)

/-! ### DLNK page -/

/-- Reserved values of Table 15.10. -/
def dlnkReserved (off w : Nat) : Bool := off == 0x040 && bitsOf w 0 8 == 0xFF

end Sys2Proof.Machine
end

