-- ==== Sys2Proof/Machine/Dma.lean ====
section
/-! DEFINITION. The DMA engine (14_dma.md): channels, their requests in flight, completion, chaining, errors, and
their page. A request is issued and performed by one command; its response reaches the channel by another. -/

namespace Sys2Proof.Machine

/-! ### Channels -/

def chanOf (s : State) (c : Nat) : Chan := tabGet (fun _ => noChan) s.dma.ch c
def setChan (s : State) (c : Nat) (h : Chan) : State :=
  { s with dma := { s.dma with ch := tabSet (fun _ => noChan) s.dma.ch c h } }

/-- State of a channel (Table 14.3): 0 IDLE, 1 RUN, 2 PAUSING, 3 PAUSED, 4 ERROR. -/
def chanSt (s : State) (c : Nat) : Nat := s.getF (R.DMA_STAT c) F.DMA_STAT_STATE
def setChanSt (s : State) (c st : Nat) : State := s.setF (R.DMA_STAT c) F.DMA_STAT_STATE st

/-- The channel is in RUN or PAUSING. -/
def chanBusy (s : State) (c : Nat) : Bool := chanSt s c == 1 || chanSt s c == 2

/-- The engine works: no halt, its domain on, its generator running (R425, R432, R442). -/
def dmaLive (s : State) : Bool := live s && domOn s 59 && genRuns s 62

def chanCfg (s : State) (c : Nat) (f : Fld) : Nat := s.getF (R.DMA_CH_CFG c) f
def srcMode (s : State) (c : Nat) : Nat := chanCfg s c F.DMA_CH_CFG_SRC_MODE
def srcKind (s : State) (c : Nat) : Nat := chanCfg s c F.DMA_CH_CFG_SRC_KIND
def dstKind (s : State) (c : Nat) : Nat := chanCfg s c F.DMA_CH_CFG_DST_KIND
def dstMode (s : State) (c : Nat) : Nat := chanCfg s c F.DMA_CH_CFG_DST_MODE
def chanStream (s : State) (c : Nat) : Nat := chanCfg s c F.DMA_CH_CFG_STREAM
/-- Element size in bytes (R426). -/
def chanEsize (s : State) (c : Nat) : Nat := 4 * 2 ^ chanCfg s c F.DMA_CH_CFG_ESIZE
def chanCount (s : State) (c : Nat) : Nat := s.getF (R.DMA_COUNT c) F.DMA_COUNT_N

/-- A 40-bit address held in a LO and HI pair. -/
def addr40 (s : State) (lo hi : Nat) : Nat := s.regN lo + 2 ^ 32 * (s.regN hi % 256)
def setAddr40 (s : State) (lo hi a : Nat) : State := (s.setN lo (a % 2 ^ 32)).setN hi (a / 2 ^ 32 % 256)

def srcAddr (s : State) (c : Nat) : Nat := addr40 s (R.DMA_SRC_LO c) (R.DMA_SRC_HI c)
def dstAddr (s : State) (c : Nat) : Nat := addr40 s (R.DMA_DST_LO c) (R.DMA_DST_HI c)
def setSrc (s : State) (c a : Nat) : State := setAddr40 s (R.DMA_SRC_LO c) (R.DMA_SRC_HI c) a
def setDst (s : State) (c a : Nat) : State := setAddr40 s (R.DMA_DST_LO c) (R.DMA_DST_HI c) a

/-- An address moved back by `k` elements. -/
def backBy (a k e : Nat) : Nat := (a + 2 ^ 40 - k * e % 2 ^ 40) % 2 ^ 40

/-- Set a channel's bit of IRQ_RAW: DONE from bit 0, ERROR from bit 8, PAUSED from bit 16. -/
def dmaIrq (s : State) (c base : Nat) : State := s.irqBit (0x070 + c / 8) (base + c % 8)

/-! ### Errors (R438) -/

/-- A request of element `n` failed; the lowest failing element counts. -/
def noteErr (s : State) (c resp ph addr n : Nat) : State :=
  let h := chanOf s c
  match h.err with
  | some (_, _, _, m) => if m ≤ n then s else setChan s c { h with err := some (resp, ph, addr, n) }
  | none => setChan s c { h with err := some (resp, ph, addr, n) }

/-- No request of element `n` is to be issued: an element before it, or it, has failed. -/
def failedBy (h : Chan) (n : Nat) : Bool :=
  match h.err with
  | some (_, _, _, m) => decide (m ≤ n)
  | none => false

/-- A LINK destination whose stream is closed while the channel holds elements for it (R438, R469). -/
def linkCheck (s : State) (c : Nat) : State :=
  let h := chanOf s c
  if chanBusy s c && dstKind s c == 2 && !strOpen s (chanStream s c) && !h.got.isEmpty then
    noteErr s c 6 3 0 h.nw
  else s

/-- ERROR: the registers name the failing element as the next (R434, R438). -/
def enterError (s : State) (c resp ph addr n : Nat) : State :=
  let h := chanOf s c
  let e := chanEsize s c
  let s1 := if srcMode s c = 0 then setSrc s c (backBy (srcAddr s c) (h.nr - n) e) else s
  let s2 := if dstMode s c = 0 then setDst s1 c (backBy (dstAddr s c) (h.nw - n) e) else s1
  let s3 := if srcMode s c = 2 then s2.setF (R.DMA_IDX_CUR c) F.DMA_IDX_CUR_N (h.i0 + n) else s2
  let s4 := ((setChanSt s3 c 4).setF (R.DMA_STAT c) F.DMA_STAT_RESP resp).setF (R.DMA_STAT c) F.DMA_STAT_PHASE ph
  dmaIrq (setChan (setAddr40 s4 (R.DMA_ERR_ADDR_LO c) (R.DMA_ERR_ADDR_HI c) addr) c noChan) c 8

/-- PAUSED: the position is kept for RESUME (R435). -/
def enterPaused (s : State) (c : Nat) : State := dmaIrq (setChanSt s c 3) c 16

/-- Every element read or index entry fetched has been written. -/
def chanDrained (h : Chan) : Bool := h.fl.isEmpty && h.got.isEmpty && h.idx.isEmpty

/-- What follows once nothing more of a channel's present work is under way (Table 14.3, R437, R438, R440). -/
def settle (s : State) (c : Nat) : State :=
  let h := chanOf s c
  if !chanBusy s c || !h.fl.isEmpty then s
  else match h.err with
    | some (resp, ph, addr, n) => if n ≤ h.nw then enterError s c resp ph addr n else s
    | none =>
      if !h.chain && h.nw == h.tot && h.nr == h.tot then
        if chanCfg s c F.DMA_CH_CFG_CHAIN = 0 then dmaIrq (setChan (setChanSt s c 0) c noChan) c 0
        else
          let s1 := setChan s c { h with chain := true }
          if chanSt s c = 2 then enterPaused s1 c else s1
      else if chanSt s c = 2 && chanDrained h then enterPaused s c
      else s

/-- After any event of a channel: its LINK stream, then its state. -/
def chanStep (s : State) (c : Nat) : State := settle (linkCheck s c) c

/-- Streams that were open in `old` and are not in `s` close (R469): credit and packet are discarded, and channels that
hold elements for them end in ERROR. -/
def closeStreams (old s : State) : State :=
  let ks := (List.range 16).filter (fun k => strOpen old k && !strOpen s k)
  let s1 := ks.foldl (fun t k =>
    (setStrm (t.setF (R.DLNK_STR_STAT k) F.DLNK_STR_STAT_CREDIT 0) k noStrm).irqBit 0x088 2) s
  if ks.isEmpty then s else (List.range 32).foldl chanStep s1

/-! ### Requests -/

/-- A request is issued and its answer noted; a request that halts the device stays in flight, without an answer to come
(R411, R414, R442). The choice of the next request begins after the channel (R432). -/
def issued (c ph n addr : Nat) : State × MemAns → State
  | (t, ans) =>
    let h := chanOf t c
    let r : DReq := match ans with
      | .resp code d => ⟨ph, n, addr, code, d⟩
      | .halted => ⟨ph, n, addr, 0, []⟩
    let s1 := noteIssue (setChan t c { h with fl := h.fl ++ [r] })
    noteGrant { s1 with dma := { s1.dma with next := (c + 1) % 32 } } false

/-- The descriptor at NEXT is to be read (R437). -/
def descReady (s : State) (c : Nat) : Bool :=
  chanSt s c == 1 && (chanOf s c).chain && (chanOf s c).fl.isEmpty && (chanOf s c).err.isNone

/-- The next index entry is to be read (R429 to R431, R435). -/
def idxReady (s : State) (c : Nat) : Bool :=
  let h := chanOf s c
  chanSt s c == 1 && srcMode s c == 2 && !h.chain && h.err.isNone && decide (h.ni < h.tot) &&
    decide (h.ni - (h.nr - (h.fl.filter (fun r => r.ph == 2)).length) < 16)

/-- OFFSET of element `n`, once its entry has been fetched. -/
def offsetOf (h : Chan) (n : Nat) : Option Nat := (firstWhere (fun e => e.1 == n) h.idx).map (fun e => e.2)

/-- The next element is to be read; one whose entry has been fetched even after PAUSE (R431, R436, R438). -/
def elemReady (s : State) (c : Nat) : Bool :=
  let h := chanOf s c
  !h.chain && decide (h.nr < h.tot) && !failedBy h h.nr &&
    (if srcMode s c = 2 then chanBusy s c && (offsetOf h h.nr).isSome else chanSt s c == 1 && h.err.isNone)

/-- The next element is to be written: it has been read, no element up to it has failed, and no write that failed is
still in flight (R431, R438). -/
def writeReady (s : State) (c : Nat) : Bool :=
  let h := chanOf s c
  chanBusy s c && !(tabGet (fun _ => []) h.got h.nw).isEmpty && !failedBy h h.nw &&
    !h.fl.any (fun r => r.ph == 3 && r.resp != 0)

/-- A channel has a memory request ready (R431). -/
def memReady (s : State) (c : Nat) : Bool :=
  decide ((chanOf s c).fl.length < 64) &&
    (descReady s c || idxReady s c || (elemReady s c && srcKind s c == 0) || (writeReady s c && dstKind s c == 0))

/-- The channel whose request the engine offers next: the first with one ready, round from the one after the last (R432). -/
def nextChan (s : State) : Option Nat :=
  firstWhere (memReady s) ((List.range 32).map (fun i => (s.dma.next + i) % 32))

/-- The engine offers a request that finds a tag (R414, R432). -/
def dmaOffers (s : State) : Bool := dmaLive s && !prepOff s 59 && tagFree s false && (nextChan s).isSome

/-- The arbiter grants channel `c` the request that the engine offers, in the engine's turn or when spill asks for nothing
(R415, R432). -/
def canGrant (s : State) (c : Nat) : Bool :=
  dmaOffers s && nextChan s == some c && memTakes s && !spillUrgent s && (!spillReady s || !turnOf s)

/-- The arbiter grants spill a line: with priority, in its turn, or when the DMA engine asks for nothing (R415). -/
def spillGrant (s : State) : Bool :=
  spillReady s && memTakes s && (spillUrgent s || turnOf s || !dmaOffers s)

/-- Address of the next element (Table 14.2, R429). -/
def elemAddr (s : State) (c : Nat) : Nat :=
  let h := chanOf s c
  if srcMode s c = 2 then srcAddr s c + (offsetOf h h.nr).getD 0 * chanEsize s c else srcAddr s c

/-- The channel moves past the element whose read it issues. -/
def passElem (s : State) (c : Nat) : State :=
  let h := chanOf s c
  let s1 := if srcMode s c = 0 then setSrc s c ((srcAddr s c + chanEsize s c) % 2 ^ 40) else s
  setChan s1 c { h with nr := h.nr + 1, idx := h.idx.filter (fun e => e.1 != h.nr) }

/-- A read request of channel `c` is granted and performed (R410, R429, R431, R437, R439). -/
def readOnce (c : Fin 32) (k : DmaRead) (flips : List (Fin 18 × BitVec 72)) (filled : Bool) (s : State) : Out :=
  let h := chanOf s c
  match k with
  | .desc =>
    let a := addr40 s (R.DMA_NEXT_LO c) (R.DMA_NEXT_HI c)
    whenCan s (canGrant s c && descReady s c && windowAnswers s a) (issued c 0 h.nw a (memRead s 0 a 64 flips filled))
  | .idx =>
    let a := (addr40 s (R.DMA_IDX_LO c) (R.DMA_IDX_HI c) + 4 * ((h.i0 + h.ni) % 2 ^ 28)) % 2 ^ 40
    let s1 := setChan (s.setF (R.DMA_IDX_CUR c) F.DMA_IDX_CUR_N (h.i0 + h.ni + 1)) c { h with ni := h.ni + 1 }
    whenCan s (canGrant s c && idxReady s c && windowAnswers s a) (issued c 1 h.ni a (memRead s1 0 a 4 flips filled))
  | .elem =>
    let a := elemAddr s c
    let s1 := passElem s c
    whenCan s (canGrant s c && elemReady s c && srcKind s c == 0 && windowAnswers s a)
      (issued c 2 h.nr a (if 2 ^ 40 ≤ a then answerError s1 1 else memRead s1 0 a (chanEsize s c) flips filled))

/-- MEMORY_READ: also as a further halt cause (R411, R564). -/
def execMemoryRead (c : Fin 32) (k : DmaRead) (flips : List (Fin 18 × BitVec 72)) (filled : Bool) (s : State) : Out :=
  orAlso (readOnce c k flips filled) s

/-- The channel moves past the element whose write it issues. -/
def passWrite (s : State) (c : Nat) : State :=
  let h := chanOf s c
  let s1 := if dstMode s c = 0 then setDst s c ((dstAddr s c + chanEsize s c) % 2 ^ 40) else s
  setChan s1 c { h with nw := h.nw + 1, got := tabSet (fun _ => []) h.got h.nw [] }

/-- An element write of a channel, or a line of spill, is granted and performed (R304, R399, R431). -/
def writeOnce (r : MemWriter) (flips : List (Fin 18 × BitVec 72)) (filled : Bool) (s : State) : Out :=
  match r with
  | .spill => whenCan s (spillGrant s)
      (if spillUrgent s then spillIssue s flips filled else noteGrant (spillIssue s flips filled) true)
  | .dma c =>
    let h := chanOf s c
    let a := dstAddr s c
    whenCan s (canGrant s c && writeReady s c && dstKind s c == 0)
      (issued c 3 h.nw a (memWrite (passWrite s c) 0 a (tabGet (fun _ => []) h.got h.nw) false flips filled))

/-- MEMORY_WRITE: also as a further halt cause (R411, R564). -/
def execMemoryWrite (r : MemWriter) (flips : List (Fin 18 × BitVec 72)) (filled : Bool) (s : State) : Out :=
  orAlso (writeOnce r flips filled) s

/-! ### Responses -/

/-- Request `i` leaves the requests in flight. -/
def answered (s : State) (c i : Nat) : State :=
  let h := chanOf s c
  setChan s c { h with fl := h.fl.take i ++ h.fl.drop (i + 1) }

/-- Word `j` of the buffer of channel `c`. -/
def bufReg (c j : Nat) : Nat := R.DMA_BUF (c / 8) (64 * (c % 8) + j)

/-- Bytes of a channel's buffer. -/
def bufRead (s : State) (c a n : Nat) : List Byte :=
  ((List.range (n / 4)).map (fun j => natLE 4 (s.regN (bufReg c ((a / 4 + j) % 64))))).flatten

/-- Words written into a channel's buffer. -/
def bufWrite (c : Nat) : Nat → List Nat → State → State
  | _, [], s => s
  | a, w :: ws, s => bufWrite c (a + 1) ws (s.setN (bufReg c (a % 64)) w)

/-- A response to an index or element read. -/
def readAnswer (s : State) (c i : Nat) (r : DReq) : State :=
  let s1 := answered s c i
  let h := chanOf s1 c
  if r.resp ≠ 0 then noteErr s1 c r.resp r.ph r.addr r.n
  else if r.ph = 1 then setChan s1 c { h with idx := h.idx ++ [(r.n, leNat r.data)] }
  else setChan s1 c { h with got := tabSet (fun _ => []) h.got r.n r.data }

/-- The next element of a BUF source is read from the channel's buffer (Table 14.1, R429). -/
def bufElem (s : State) (c : Nat) : State :=
  let h := chanOf s c
  let d := bufRead s c (elemAddr s c % 256) (chanEsize s c)
  let s1 := passElem s c
  setChan s1 c { chanOf s1 c with got := tabSet (fun _ => []) h.got h.nr d }

/-- DMA_READ_RESPONSE (R431, R434 to R436, R438, R440). -/
def execDmaReadResponse (c : Fin 32) (i : Nat) (s : State) : Out :=
  match ((chanOf s c).fl.drop i).head? with
  | some r => whenCan s (dmaLive s && (r.ph == 1 || r.ph == 2)) (chanStep (readAnswer s c i r) c)
  | none => whenCan s (dmaLive s && chanBusy s c && elemReady s c && srcKind s c == 1)
      (chanStep (bufElem s c) c)

/-- An element has been written (R434). -/
def elemWritten (s : State) (c : Nat) : State :=
  (s.setF (R.DMA_COUNT c) F.DMA_COUNT_N (chanCount s c - 1)).wrapF (R.DMA_DONE_CNT c) F.DMA_DONE_CNT_N 1

/-- The next element goes to a BUF or LINK destination at once. -/
def takeElem (s : State) (c : Nat) : State :=
  let h := chanOf s c
  let d := tabGet (fun _ => []) h.got h.nw
  let s1 := elemWritten (passWrite s c) c
  if dstKind s c = 1 then bufWrite c (dstAddr s c % 256 / 4) (wordsLE d) s1
  else streamPut s1 (chanStream s c) d

/-- DMA_WRITE_ACK (R428, R434, R437, R438, R440). -/
def execDmaWriteAck (c : Fin 32) (i : Nat) (s : State) : Out :=
  match ((chanOf s c).fl.drop i).head? with
  | some r =>
    let s1 := answered s c i
    whenCan s (dmaLive s && r.ph == 3)
      (chanStep (if r.resp = 0 then elemWritten s1 c else noteErr s1 c r.resp 3 r.addr r.n) c)
  | none =>
    let k := chanStream s c
    let s0 := if dstKind s c = 2 then streamFullFor s k (chanEsize s c) else s
    let room := dstKind s c == 1 || (dstKind s c == 2 && streamRoom s0 k (chanEsize s c))
    whenCan s (dmaLive s && writeReady s c && room) (chanStep (takeElem s0 c) c)

/-! ### Registers and descriptors -/

/-- Reserved values of the register at offset `o` of a channel block (Table 14.8). -/
def chanReserved (o w : Nat) : Bool :=
  match o with
  | 0x00 => decide (5 ≤ bitsOf w 0 3) || bitsOf w 4 2 == 3 || decide (2 ≤ bitsOf w 8 2) || decide (2 ≤ bitsOf w 12 2) ||
      bitsOf w 16 2 == 3
  | 0x1C => bitsOf w 0 28 == 0
  | 0x30 => decide (1 < popCount w 4)
  | _ => false

def dmaReserved (off w : Nat) : Bool :=
  decide (0x100 ≤ off) && decide (off < 0x300) && chanReserved (off % 0x40) w

/-- The checks of START on a configuration: a refusal code (Table 14.6, orders 3 and 4). -/
def chanStartBad (s : State) (c : Nat) : Option Nat :=
  let e := chanEsize s c
  if srcAddr s c % e ≠ 0 ∨ (dstKind s c ≠ 2 ∧ dstAddr s c % e ≠ 0) ∨
      (srcMode s c = 2 ∧ addr40 s (R.DMA_IDX_LO c) (R.DMA_IDX_HI c) % 4 ≠ 0) ∨
      (chanCfg s c F.DMA_CH_CFG_CHAIN = 1 ∧ addr40 s (R.DMA_NEXT_LO c) (R.DMA_NEXT_HI c) % 64 ≠ 0) then some 0x04
  else if dstKind s c = 2 ∧ strOpen s (chanStream s c) = false then some 0x05
  else none

/-- A transfer begins with the registers as they stand. -/
def beginTransfer (s : State) (c : Nat) : State :=
  setChan (s.setF (R.DMA_DONE_CNT c) F.DMA_DONE_CNT_N 0) c
    { noChan with tot := chanCount s c, i0 := s.getF (R.DMA_IDX_CUR c) F.DMA_IDX_CUR_N }

/-- The registers of channel `c` that the words of a descriptor load (Table 14.4). -/
def descRegs (c : Nat) : List Nat :=
  [R.DMA_CH_CFG c, R.DMA_SRC_LO c, R.DMA_SRC_HI c, R.DMA_DST_LO c, R.DMA_DST_HI c, R.DMA_IDX_LO c, R.DMA_IDX_HI c,
    R.DMA_COUNT c, R.DMA_NEXT_LO c, R.DMA_NEXT_HI c]

/-- A descriptor word fits its register: no bit outside the fields, no reserved value. -/
def descWordOk (a w : Nat) : Bool :=
  Nat.land w (fieldMask (fun _ => true) ((regFields a).getD [])) == w && !chanReserved (a % 0x40) w

/-- The registers with a descriptor's words in them. -/
def loadDesc (c : Nat) (ws : List Nat) (s : State) : State :=
  ((descRegs c).zip ws).foldl (fun t e => t.setN e.1 e.2) s

/-- A descriptor is acceptable (R437). -/
def descOk (s : State) (c : Nat) (ws : List Nat) : Bool :=
  ((descRegs c).zip ws).all (fun e => descWordOk e.1 e.2) && (ws.drop 10).all (· == 0) &&
    (chanStartBad (loadDesc c ws s) c).isNone

/-- DMA_DESCRIPTOR_LOAD (R437): the new transfer starts; after a PAUSE the channel stands before its first element. -/
def execDmaDescriptorLoad (c : Fin 32) (s : State) : Out :=
  match (chanOf s c).fl with
  | [r] =>
    let s1 := answered s c 0
    let ws := wordsLE r.data
    let t :=
      if r.resp ≠ 0 then settle (noteErr s1 c r.resp 0 r.addr r.n) c
      else if !descOk s c ws then settle (noteErr s1 c 7 0 r.addr r.n) c
      else
        let s2 := beginTransfer ((loadDesc c ws s1).setN (R.DMA_IDX_CUR c) 0) c
        if chanSt s c = 2 then enterPaused s2 c else s2
    whenCan s (dmaLive s && r.ph == 0) t
  | _ => .next s

/-! ### Commands (Table 14.6) -/

/-- START. A COUNT of 0 left by an earlier transfer is complete at once (log entry 60). -/
def dmaStartOp (s : State) (c : Nat) : WOut :=
  if chanSt s c ≠ 0 then .refuse 0x02
  else match chanStartBad s c with
    | some e => .refuse e
    | none =>
      let s1 := ((setChanSt s c 1).setF (R.DMA_STAT c) F.DMA_STAT_RESP 0).setF (R.DMA_STAT c) F.DMA_STAT_PHASE 0
      .done (settle (beginTransfer s1 c) c)

def dmaPauseOp (s : State) (c : Nat) : WOut :=
  if chanSt s c ≠ 1 then .refuse 0x03 else .done (settle (setChanSt s c 2) c)

def dmaResumeOp (s : State) (c : Nat) : WOut :=
  if chanSt s c ≠ 3 then .refuse 0x03 else .done (setChanSt s c 1)

def dmaCancelOp (s : State) (c : Nat) : WOut :=
  if chanSt s c ≠ 3 ∧ chanSt s c ≠ 4 then .refuse 0x03 else .done (setChan (setChanSt s c 0) c noChan)

/-- A performed write of CHi_CMD. -/
def dmaCmd (s : State) (c : Nat) (w : Nat) : WOut :=
  if w % 16 = 0 then .done s
  else if s.phase ≠ .run then .refuse 0x07
  else if bitOf w 0 then dmaStartOp s c
  else if bitOf w 1 then dmaPauseOp s c
  else if bitOf w 2 then dmaResumeOp s c
  else dmaCancelOp s c

/-- What a performed write of DMA page `i` does (R441, R443). -/
def dmaWrite (s : State) (i off : Nat) (w : Word) : WOut :=
  let a := 0x70000 + 0x1000 * i + off
  if 0x100 ≤ off ∧ off < 0x300 then
    let c := 8 * i + (off - 0x100) / 0x40
    if off % 0x40 = 0x30 then dmaCmd s c w.toNat
    else if chanSt s c ≠ 0 then .refuse 0x01
    else .done (s.setReg a w)
  else if 0x800 ≤ off then
    let c := 8 * i + (off - 0x800) / 0x100
    if chanBusy s c && (srcKind s c == 1 || dstKind s c == 1) then .refuse 0x06 else .done (s.setReg a w)
  else .done (s.setReg a w)

/-- CHi_STAT as it reads: OUT is the number of requests in flight. -/
def chanStatWord (s : State) (c : Nat) : Nat := withBits (s.regN (R.DMA_STAT c)) 16 7 (chanOf s c).fl.length

/-- ENG_STAT of page `i`. -/
def engStatWord (s : State) (i : Nat) : Nat :=
  (List.range 8).foldl (fun n j => n + b2n (chanBusy s (8 * i + j)) * 2 ^ j + b2n (chanSt s (8 * i + j) == 3) * 2 ^ (8 + j) +
    b2n (chanSt s (8 * i + j) == 4) * 2 ^ (16 + j)) 0

/-- Some channel works, so that the DMA domain cannot be switched off (Table 2.6). -/
def dmaBusy (s : State) : Bool := (List.range 32).any (chanBusy s)

/-- What a performed write of the DLNK page does (R469, Table 15.9). -/
def dlnkWrite (s : State) (off : Nat) (w : Word) : WOut :=
  .done (closeStreams s (s.setReg (0x88000 + off) w))

end Sys2Proof.Machine
end

