-- ==== Sys2Proof/Machine/Lanes.lean ====
section
/-! DEFINITION. Serial lanes: training, equalisation, eye scans, the receive side of the Draught link, key exchange
and replay, and the LANE page (15_lanes_draught.md). -/

namespace Sys2Proof.Machine

/-! ### Leaving UP and restarting -/

/-- What a lane drops when it leaves UP (R463, R471): replay buffer, waiting packets, session, scan. -/
def dropLink (s : State) (n : Nat) : State :=
  let s1 := (s.setF (R.LANE_STAT n) F.LANE_STAT_ENC_UP 0).irqBit (0x080 + n) 1
  setLane s1 n { laneOf s1 n with
    scan := none, txSeq := 0, rxSeq := 0, ackDue := 0, replay := [], replays := 0, resent := [], out := [],
    link := none,
    keyx := none, sess := none }

/-- UP to HUNT at rate 0 (Table 15.3, R450, R462). -/
def leaveUp (s : State) (n : Nat) : State :=
  closeStreams s (newTraining (dropLink (s.satF (R.LANE_RETRAIN_CNT n) F.LANE_RETRAIN_CNT_N 1) n) n)

/-- The lane's training restarts with the registers in `s` (R451): the start-up settings end. -/
def restartLane (old s : State) (n : Nat) : State :=
  let s1 := if laneUp s n then dropLink s n else s
  let s2 := setLane s1 n { laneOf s1 n with su := none }
  closeStreams old (if s.flag (R.LANE_CFG n) F.LANE_CFG_EN then newTraining s2 n
    else setLane (laneOff s2 n) n noLane)

/-- Both lanes of a switched-off domain are DISABLED (Table 15.3, R442's like for lanes). -/
def dropLane (old s : State) (n : Nat) : State := closeStreams old (setLane s n noLane)

/-- LANE_SYNTH_TIMEOUT (R445). -/
def execLaneSynthTimeout (n : Fin 8) (s : State) : Out :=
  whenCan s (laneLive s n && laneSt s n == 1) (s.setF (R.LANE_STAT n) F.LANE_STAT_CAUSE 1)

/-- LANE_HUNT_TIMEOUT (R449): the rate is struck. -/
def execLaneHuntTimeout (n : Fin 8) (s : State) : Out :=
  let l := laneOf s n
  whenCan s (laneLive s n && laneSt s n == 1 && laneRate s n != 0)
    (enterHunt (setLane s n { l with struck := Nat.lor l.struck (2 ^ laneRate s n) }) n 0)

/-- LANE_RATE_CHANGE (R450). -/
def execLaneRateChange (n : Fin 8) (s : State) : Out :=
  whenCan s (laneLive s n && laneSt s n == 3) (enterHunt s n (laneOf s n).target)

/-- LANE_CV_RETRAIN: 16 code violations (Table 15.3). -/
def execLaneCvRetrain (n : Fin 8) (s : State) : Out :=
  whenCan s (laneLive s n && laneUp s n) (leaveUp (s.satF (R.LANE_CV_CNT n) F.LANE_CV_CNT_N 16) n)

/-! ### Training ordered sets (Table 15.2) -/

/-- Symbol `i`, 1 to 15. -/
def sym (v : Vector Byte 15) (i : Nat) : Nat := (atD 0#8 v.toList (i - 1)).toNat

/-- A set is accepted (R447): OSTYPE defined, CHK matches, every unlisted bit zero. -/
def setAccepted (v : Vector Byte 15) : Bool :=
  (sym v 1 == 0x4A || sym v 1 == 0xB5) && sym v 15 == (((v.toList).take 14).foldl (· ^^^ ·) 0#8).toNat &&
  bitsOf (sym v 4) 4 4 == 0 && bitsOf (sym v 5) 4 4 == 0 && !bitOf (sym v 8) 6 && bitsOf (sym v 10) 4 4 == 0 &&
  bitsOf (sym v 11) 6 2 == 0 && bitsOf (sym v 12) 5 3 == 0

/-- The common rate (R449): the highest index in both masks; bit 0 is always common. -/
def commonRate (s : State) (n : Nat) : Nat :=
  let l := laneOf s n
  (List.range 8).foldl (fun m r => if bitOf (laneMask s n) r && !bitOf l.struck r && bitOf l.pmask r then r else m) 0

/-! ### Tap requests of the partner (R452) -/

/-- One tap's step: the new value, and 1 or 2 for a step that would leave the range lo to hi. Code 3, which Table 15.2
does not define, holds (log entry 72). -/
def tapStep (lo hi v step : Nat) : Nat × Nat :=
  match step with
  | 1 => if v = hi then (v, 2) else (v + 1, 0)
  | 2 => if v = lo then (v, 1) else (v - 1, 0)
  | _ => (v, 0)

/-- Judge a request on taps (PRE, MAIN, POST): the taps after it and the TRSP statuses. -/
def judgeReq (treq pre main post : Nat) : (Nat × Nat × Nat) × Nat :=
  let (p, a) := tapStep 0 15 pre (bitsOf treq 0 2)
  let (m, b) := tapStep 16 63 main (bitsOf treq 2 2)
  let (q, c) := tapStep 0 31 post (bitsOf treq 4 2)
  if p + q + 16 ≤ m then ((p, m, q), a + 4 * b + 16 * c) else ((pre, main, post), 3 + 12 + 48)

/-- A set with REQ_VALID and a new REQ_SEQ is answered once (R452). -/
def answerReq (s : State) (n : Nat) (v : Vector Byte 15) : State :=
  let l := laneOf s n
  let q := sym v 7
  let treq := sym v 6
  let seen := match l.ans with
    | some (j, _) => j == q
    | none => false
  if !bitOf treq 7 || seen then s
  else if bitOf treq 6 then
    setLane (s.setReg (R.LANE_TAPS n) (lanePreset s n)) n { l with ans := some (q, 0) }
  else
    let a := R.LANE_TAPS n
    let ((p, m, t), r) := judgeReq treq (s.getF a F.LANE_TAPS_PRE) (s.getF a F.LANE_TAPS_MAIN) (s.getF a F.LANE_TAPS_POST)
    setLane (((s.setF a F.LANE_TAPS_PRE p).setF a F.LANE_TAPS_MAIN m).setF a F.LANE_TAPS_POST t) n { l with ans := some (q, r) }

/-! ### Own tap requests (R454, R455) -/

/-- The receiver has finished requesting. -/
def eqFinish (l : Lane) : Lane := { l with eqDone := true, eq := noEq }

/-- The next request: 1 PRESET, 2 a step, 3 its undoing. -/
def eqRequest (l : Lane) (e : EqS) : Lane := { l with eq := e, reqSeq := (l.reqSeq + 1) % 256 }

/-- The next tap, a further pass, or the end (R454); steps are tried upward first (log entry 72). -/
def eqNextTap (l : Lane) (m : Nat) : Lane :=
  let changed := l.eq.changed || l.eq.net != 0
  if l.eq.tap < 2 then eqRequest l ⟨2, l.eq.tap + 1, 1, false, m, 0, changed⟩
  else if changed then eqRequest l ⟨2, 0, 1, false, m, 0, false⟩
  else eqFinish l

/-- A step that did not raise METRIC is behind: the other direction, or the next tap. -/
def eqTurn (l : Lane) (m : Nat) : Lane :=
  if !l.eq.rose && l.eq.dir == 1 then eqRequest l { l.eq with req := 2, dir := 2, m := m } else eqNextTap l m

/-- Signed step of a direction. -/
def dirStep (dir : Nat) : Int := if dir = 1 then 1 else -1

/-- The answer to the request under way has arrived, with the tap's status and the METRIC measured after it. -/
def eqAnswered (l : Lane) (target status m : Nat) : Lane :=
  if target ≤ m then eqFinish l
  else match l.eq.req with
    | 1 => eqRequest l ⟨2, 0, 1, false, m, 0, false⟩
    | 2 =>
      if status ≠ 0 then eqTurn l m
      else
        let e := { l.eq with net := l.eq.net + dirStep l.eq.dir }
        if l.eq.m < m then eqRequest { l with eq := e } { e with rose := true, m := m }
        else if m < l.eq.m then eqRequest { l with eq := e } { e with req := 3 }
        else eqTurn { l with eq := e } m
    | _ =>
      let e := { l.eq with net := l.eq.net - dirStep l.eq.dir }
      eqTurn { l with eq := e } m

/-- Status of the tap worked on in an answer: TRSP holds PRE, MAIN, POST; the search numbers POST 0, PRE 1, MAIN 2. -/
def trspOf (trsp tap : Nat) : Nat :=
  match tap with
  | 0 => bitsOf trsp 4 2
  | 1 => bitsOf trsp 0 2
  | _ => bitsOf trsp 2 2

/-- DEGRADED (R455). -/
def eqDegrade (s : State) (n : Nat) : State :=
  let s1 := (s.setF (R.LANE_STAT n) F.LANE_STAT_DEGRADED 1).irqBit (0x080 + n) 2
  setLane (s1.setF (R.LANE_EYE n) F.LANE_EYE_REQS 65536) n (eqFinish (laneOf s1 n))

/-- The receiver is requesting. -/
def eqActive (s : State) (n : Nat) : Bool := laneSt s n == 4 && (laneOf s n).eq.req != 0

/-- EQ_REQUEST_LIMIT (R455). -/
def execEqRequestLimit (n : Fin 8) (s : State) : Out :=
  let s1 := eqDegrade s n
  let s2 := if bitOf (laneOf s1 n).pflags 1 then setLaneSt (setLane s1 n { laneOf s1 n with sent := 0, run := 0 }) n 5 else s1
  whenCan s (laneLive s n && eqActive s n) s2

/-- Sets sent while requesting are tap-request sets (R455). -/
def countReqs (s : State) (n sent : Nat) : State :=
  if eqActive s n then
    let k := s.getF (R.LANE_EYE n) F.LANE_EYE_REQS + sent
    if 65536 ≤ k then eqDegrade s n else s.setF (R.LANE_EYE n) F.LANE_EYE_REQS k
  else s

/-- A set that answers the request under way (R454, R455). -/
def takeAnswer (s : State) (n : Nat) (v : Vector Byte 15) (metric : Nat) : State :=
  let l := laneOf s n
  if eqActive s n && bitOf (sym v 8) 7 && sym v 9 == l.reqSeq then
    setLane (s.setF (R.LANE_EYE n) F.LANE_EYE_METRIC metric) n
      (eqAnswered l (laneEqTarget s n) (trspOf (sym v 8) l.eq.tap) metric)
  else s

/-! ### The states of Table 15.3 -/

/-- Entry to EQ (R454). -/
def enterEq (s : State) (n : Nat) : State :=
  let l := laneOf s n
  setLane (setLaneSt s n 4) n
    (if laneRxEq s n then eqRequest { l with run := 0, eqDone := false } { noEq with req := 1 } else eqFinish { l with run := 0 })

/-- The own KEYX packet (R471): a fresh public key, or a fresh random value. -/
def sendKeyx (s : State) (n : Nat) : State :=
  if s.flag (R.LANE_ENC n) F.LANE_ENC_MODE then
    let (r, s1) := s.freeBytes 16
    sendNow (setLane s1 n { laneOf s1 n with keyx := some (r, 0) }) n (mkPkt 0x30 0 0 0 0 0 0 (wordsLE r)) false
  else
    let (k, s1) := s.free (p256n - 1)
    let pub := p256pub (k + 1)
    sendNow (setLane s1 n { laneOf s1 n with keyx := some (pub, k + 1) }) n (mkPkt 0x30 0 0 0 0 0 0 (wordsLE pub)) false

/-- The own KEYX packet is to be sent: both ends show ENC_CAP (R471), and the CRYPTO domain is not under test (R515). -/
def keyxDue (s : State) (n : Nat) : Bool :=
  laneUp s n && laneEnc s n && bitOf (laneOf s n).pflags 2 && (laneOf s n).keyx.isNone && engines s

/-- What waited on lane `n` for the engines under test goes out. -/
def cryptoBackLane (s : State) (n : Nat) : State :=
  let t := if keyxDue s n then sendKeyx s n else s
  drainOut ((laneOf t n).out.length + 1) n t

/-- The test of the CRYPTO domain has ended (R515). -/
def cryptoBack (s : State) : State := streamsSend ((List.range 8).foldl cryptoBackLane s)

/-- Entry to UP (R460, R471). -/
def enterUp (s : State) (n : Nat) : State :=
  let s1 := (setLaneSt s n 6).irqBit (0x080 + n) 0
  let s2 := setLane s1 n { laneOf s1 n with txSeq := 0, rxSeq := 0, ackDue := 0, replay := [], replays := 0, resent := [] }
  if keyxDue s2 n then sendKeyx s2 n else s2

/-- What an accepted set does to the lane's state (Table 15.3). -/
def setAdvances (s : State) (n : Nat) (v : Vector Byte 15) : State :=
  let l := laneOf s n
  match laneSt s n with
  | 1 =>
    if 2 ≤ l.run then
      setLane ((setLaneSt s n 2).setF (R.LANE_STAT n) F.LANE_STAT_PRESENT 1) n { l with run := 0 }
    else setLane s n { l with run := l.run + 1 }
  | 2 =>
    if !bitOf (sym v 5) 0 then setLane s n { l with run := 0 }
    else if l.run < 7 then setLane s n { l with run := l.run + 1 }
    else if laneRate s n < commonRate s n then
      setLane (setLaneSt s n 3) n { l with run := 0, target := commonRate s n }
    else enterEq s n
  | 4 => if l.eqDone && bitOf (sym v 5) 1 then setLane (setLaneSt s n 5) n { l with run := 0, sent := 0 } else s
  | 5 =>
    let k := if sym v 1 = 0xB5 then l.run + 1 else l.run
    let s1 := setLane s n { l with run := k }
    if 8 ≤ k ∧ 16 ≤ l.sent then enterUp s1 n else s1
  | 6 => if sym v 1 = 0x4A then leaveUp s n else s
  | _ => s

/-- What an accepted set says of the partner (Table 15.2, R458). -/
def notePartner (s : State) (n : Nat) (v : Vector Byte 15) : State :=
  let s1 := (s.setF (R.LANE_STAT n) F.LANE_STAT_PTYPE (sym v 2)).setF (R.LANE_STAT n) F.LANE_STAT_PNODE (sym v 14)
  setLane s1 n { laneOf s1 n with pmask := sym v 3, pflags := sym v 5 }

/-- TRAINING_SET_RECEIVED (R447 to R455). A set that is not accepted breaks a run of accepted ones. -/
def execTrainingSetReceived (n : Fin 8) (v : Vector Byte 15) (bad : Bool) (metric : Fin 128) (sent : Nat)
    (s : State) : Out :=
  let s1 := countReqs s n sent
  let l := laneOf s1 n
  let s2 := if laneSt s1 n = 5 then setLane s1 n { l with sent := l.sent + sent } else s1
  let t :=
    if bad || !setAccepted v then
      if laneSt s2 n = 1 ∨ laneSt s2 n = 2 then setLane s2 n { laneOf s2 n with run := 0 } else s2
    else
      let s3 := notePartner s2 n v
      let s4 := if 2 ≤ laneSt s3 n ∧ laneSt s3 n ≤ 5 then takeAnswer (answerReq s3 n v) n v metric else s3
      setAdvances s4 n v
  whenCan s (laneLive s n && laneSt s n != 0 && s.getF (R.LANE_STAT n) F.LANE_STAT_CAUSE != 1) t

/-! ### Eye scan (R456) -/

/-- A scan runs, and `n` mismatches are no more than the bits that it compares. -/
def scanFits (c : Option Scan) (n : Nat) : Bool :=
  match c with
  | some c => decide (n ≤ 2 ^ (16 + c.dwell))
  | none => false

/-- EYE_SCAN_DONE. -/
def execEyeScanDone (n : Fin 8) (errs : Word) (s : State) : Out :=
  whenCan s (laneLive s n && laneUp s n && scanFits (laneOf s n).scan errs.toNat)
    (((setLane s n { laneOf s n with scan := none }).setReg (R.LANE_SCAN_ERR n) errs).irqBit (0x080 + n) 3)

/-! ### Receiving packets -/

/-- Fields of a received packet. -/
def pkTy (k : Packet) : Nat := bitsOf k.w0.toNat 0 8
def pkLen (k : Packet) : Nat := bitsOf k.w0.toNat 8 8
def pkSeq (k : Packet) : Nat := bitsOf k.w0.toNat 16 12
def pkEnc (k : Packet) : Bool := bitOf k.w0.toNat 28
def pkDst (k : Packet) : Nat := bitsOf k.w1.toNat 0 8
def pkSrc (k : Packet) : Nat := bitsOf k.w1.toNat 8 8
def pkDtag (k : Packet) : Nat := bitsOf k.w1.toNat 16 8
def pkAddr (k : Packet) : Nat := bitsOf k.w2.toNat 0 24
def pkPkt (k : Packet) : Pkt := ⟨[k.w0.toNat, k.w1.toNat, k.w2.toNat, k.w3.toNat], k.pay.map BitVec.toNat, k.tag⟩

/-- The packet is framed as its header says: LEN payload words, a tag when ENC = 1. -/
def pkFramed (k : Packet) : Bool := k.pay.length == (pkLen k) && k.tag.length == (if (pkEnc k) then 16 else 0)

/-- Send ACK for the latest delivered LSEQ (R461). -/
def sendAck (s : State) (n : Nat) : State :=
  let l := laneOf s n
  setLane s n { l with link := some (0x20, (l.rxSeq + 4095) % 4096), ackDue := 0 }

/-- Discard, count, and send NAK naming the next LSEQ expected (R461). -/
def discardNak (s : State) (n : Nat) : State :=
  let s1 := s.satF (R.LANE_CRC_CNT n) F.LANE_CRC_CNT_N 1
  setLane s1 n { laneOf s1 n with link := some (0x21, (laneOf s1 n).rxSeq) }

/-- The packet with the expected LSEQ is delivered; ACK at the latest after every 16 (R461). -/
def delivered (s : State) (n : Nat) : State :=
  let l := laneOf s n
  let s1 := setLane s n { l with rxSeq := (l.rxSeq + 1) % 4096, ackDue := l.ackDue + 1 }
  if 16 ≤ l.ackDue + 1 then sendAck s1 n else s1

/-- A packet behind the expected LSEQ by up to half the numbers is a duplicate (log entry 73). -/
def duplicate (s : State) (n q : Nat) : Bool :=
  let d := ((laneOf s n).rxSeq + 4096 - q) % 4096
  decide (1 ≤ d) && decide (d ≤ 2048)

/-- What a numbered packet comes to. -/
inductive Recv where
  | drop (s : State)
  | take (s : State) (pay : List Nat)

/-- Link layer of a routed packet (R461, R470, R473). -/
def receive (s : State) (n : Nat) (k : Packet) : Recv :=
  if (pkSeq k) ≠ (laneOf s n).rxSeq then .drop (if duplicate s n (pkSeq k) then s else discardNak s n)
  else
    let s1 := delivered s n
    if (pkEnc k) != laneEnc s n then .drop (s1.satF (R.LANE_PLAIN_CNT n) F.LANE_PLAIN_CNT_N 1)
    else if (pkEnc k) then
      match (laneOf s1 n).sess with
      | none => .drop s1
      | some e =>
        match openPkt e (pkPkt k) with
        | none => .drop (halt s1 2 (n + 2 ^ 16 * (pkSeq k)) ((pkTy k) + 256 * (pkSrc k)))
        | some pay => .take (setLane s1 n { laneOf s1 n with sess := some { e with rx := e.rx + 1 } }) pay
    else .take s1 (k.pay.map BitVec.toNat)

/-- A routed packet of any type: `own` is what the device does with one addressed to it. -/
def routed (s : State) (n : Nat) (k : Packet) (own : State → List Nat → State) : State :=
  match receive s n k with
  | .drop t => t
  | .take t pay => if addressed t (pkDst k) then own t pay else forward t n ⟨(pkPkt k).w, pay, []⟩

/-- A packet with a good CRC arrives on lane `n`. -/
def arrives (s : State) (n : Nat) (k : Packet) : Bool := laneLive s n && laneUp s n && (pkFramed k)

/-- A routed packet with a good CRC arrives, its TYPE as asked; also as a further halt cause (R470, R564). -/
def routedArrival (ok : Bool) (n : Nat) (k : Packet) (own : State → List Nat → State) (s : State) : Out :=
  orAlso (fun t => whenCan t (arrives t n k && ok && (engines t || !pkEnc k)) (routed t n k own)) s

/-- Enter a request into the queue, or answer STATUS 7 (R464). -/
def queueReq (s : State) (n : Nat) (k : Packet) (pay : List Nat) : State :=
  if 16 ≤ s.dl.rq.length then sendCpl s n (pkSrc k) (pkDtag k) (pkAddr k) 7 0 0 []
  else { s with dl := { s.dl with rq := s.dl.rq ++ [⟨n, (pkTy k), (pkSrc k), (pkDtag k), (pkAddr k), k.w3.toNat, pay⟩] } }

/-- Bits that Table 15.4 does not list are zero. -/
def headerClean (k : Packet) : Bool := bitsOf k.w0.toNat 29 3 == 0 && bitsOf k.w1.toNat 28 4 == 0 && bitsOf k.w2.toNat 24 8 == 0

/-- STATUS 6 (Table 15.6): RD. -/
def rdMalformed (k : Packet) : Bool := !headerClean k || (pkLen k) != 0 || bitsOf k.w3.toNat 5 27 != 0
/-- STATUS 6: WR. -/
def wrMalformed (k : Packet) : Bool := !headerClean k || (pkLen k) == 0 || decide (32 < (pkLen k)) || k.w3 != 0

/-- A request addressed to the device (R464, R466). -/
def takeReq (bad : Bool) (n : Nat) (k : Packet) (s : State) (pay : List Nat) : State :=
  if bad then sendCpl s n (pkSrc k) (pkDtag k) (pkAddr k) 6 0 0 [] else queueReq s n k pay

/-- DRAUGHT_RD (R464, R466, R467). -/
def execDraughtRd (n : Fin 8) (k : Packet) (s : State) : Out :=
  routedArrival (pkTy k == 0x01) n k (takeReq (rdMalformed k) n k) s

/-- DRAUGHT_WR (R464, R466, R467). -/
def execDraughtWr (n : Fin 8) (k : Packet) (s : State) : Out :=
  routedArrival (pkTy k == 0x02) n k (takeReq (wrMalformed k) n k) s

/-- DLNK.BADTYPE_CNT and BADTYPE_LAST (R466). -/
def badType (n : Nat) (k : Packet) (s : State) : State :=
  ((s.satF R.DLNK_BADTYPE_CNT F.DLNK_BADTYPE_CNT_N 1).setN R.DLNK_BADTYPE_LAST ((pkTy k) + 256 * (pkSrc k) + 65536 * n)).irqBit 0x088 0

/-- DRAUGHT_CPL (R466, R467). -/
def execDraughtCpl (n : Fin 8) (k : Packet) (s : State) : Out :=
  routedArrival (pkTy k == 0x03) n k (fun t _ => badType n k t) s

/-- DRAUGHT_STREAM (R466, R467). -/
def execDraughtStream (n : Fin 8) (k : Packet) (s : State) : Out :=
  routedArrival (pkTy k == 0x10) n k (fun t _ => badType n k t) s

/-- Bytes granted to an open stream by its destination (R469); the credit field saturates (log entry 74). -/
def takeCredit (k : Packet) (s : State) : State :=
  let i := (pkAddr k) % 16
  if strOpen s i && s.getF (R.DLNK_STR_CFG i) F.DLNK_STR_CFG_DST == (pkSrc k) then
    streamSend (s.satF (R.DLNK_STR_STAT i) F.DLNK_STR_STAT_CREDIT k.w3.toNat) i
  else s

/-- DRAUGHT_CREDIT (R467, R469). -/
def execDraughtCredit (n : Fin 8) (k : Packet) (s : State) : Out :=
  routedArrival (pkTy k == 0x11) n k (fun t _ => takeCredit k t) s

/-- TYPE is one of Table 15.5. -/
def typeDefined (t : Nat) : Bool := [0x01, 0x02, 0x03, 0x10, 0x11, 0x20, 0x21, 0x30, 0x40].contains t

/-- DRAUGHT_UNDEFINED_TYPE (R466): counted, and answered with STATUS 4. -/
def execDraughtUndefinedType (n : Fin 8) (k : Packet) (s : State) : Out :=
  routedArrival (!typeDefined (pkTy k)) n k
    (fun t _ => sendCpl (badType n k t) n (pkSrc k) (pkDtag k) (pkAddr k) 4 0 0 []) s

/-! ### Link packets -/

/-- Packets up to `q` leave the replay buffer (R460); one not in it acknowledges nothing. -/
def ackThrough (q : Nat) : List Pkt → Option (List Pkt)
  | [] => none
  | p :: l => if pktSeq p = q then some l else ackThrough q l

/-- DRAUGHT_ACK (R460, R462): packets that waited for a place go out. -/
def execDraughtAck (n : Fin 8) (k : Packet) (s : State) : Out :=
  let l := laneOf s n
  let t := match ackThrough (k.w3.toNat % 4096) l.replay with
    | none => s
    | some r =>
      let s1 := setLane s n { l with replay := r, replays := 0 }
      streamsSend (drainOut (l.out.length + 1) n s1)
  whenCan s (arrives s n k && (pkTy k) == 0x20) t

/-- The packets that a replay sends again: from the one with LSEQ `q`, from the oldest where none is named or the one named is
not kept (log entry 33). -/
def replayFrom (buf : List Pkt) (q : Option Nat) : List Pkt :=
  match q with
  | some i => if buf.any (fun p => pktSeq p == i) then buf.dropWhile (fun p => pktSeq p != i) else buf
  | none => buf

/-- A replay is called for (R462). After eight in a row without an acknowledgement the lane leaves UP instead. -/
def replayOnce (s : State) (n : Nat) (q : Option Nat) : State :=
  let l := laneOf s n
  if 8 ≤ l.replays then leaveUp s n
  else setLane (s.satF (R.LANE_REPLAY_CNT n) F.LANE_REPLAY_CNT_N 1) n
    { l with replays := l.replays + 1, resent := replayFrom l.replay q }

/-- DRAUGHT_NAK (R462): replay from the packet named. -/
def execDraughtNak (n : Fin 8) (k : Packet) (s : State) : Out :=
  whenCan s (arrives s n k && (pkTy k) == 0x21) (replayOnce s n (some (bitsOf k.w3.toNat 0 12)))

/-- REPLAY_TIMEOUT (R462). -/
def execReplayTimeout (n : Fin 8) (s : State) : Out :=
  whenCan s (laneLive s n && laneUp s n && !(laneOf s n).replay.isEmpty) (replayOnce s n none)

/-- ACK_TIMER (R461). -/
def execAckTimer (n : Fin 8) (s : State) : Out :=
  whenCan s (laneLive s n && laneUp s n && decide (0 < (laneOf s n).ackDue)) (sendAck s n)

/-- DRAUGHT_BAD_CRC (R461). -/
def execDraughtBadCrc (n : Fin 8) (s : State) : Out :=
  whenCan s (laneLive s n && laneUp s n) (discardNak s n)

/-! ### Key exchange (R471) -/

/-- Z of the exchange. A public key that is no point of the curve, or a slot without keys, gives a value that the manual
does not state: a free one (log entry 75). -/
def keyxZ (s : State) (n : Nat) (priv : Nat) (theirs : List Byte) : List Byte × State :=
  if s.flag (R.LANE_ENC n) F.LANE_ENC_MODE then
    match slotKeys s (s.getF (R.LANE_ENC n) F.LANE_ENC_SLOT) with
    | some k => ((sized s k).k1, s)
    | none => s.freeBytes 32
  else if p256onCurve (beNat (theirs.take 32), beNat (theirs.drop 32)) then (p256shared priv theirs, s)
  else s.freeBytes 32

/-- Session key (R471). -/
def sessKey (ksize : Bool) (z a b : List Byte) : List Byte :=
  let (lo, hi) := if beNat a ≤ beNat b then (a, b) else (b, a)
  (hmacSha256 z ([0x44#8, 0x52#8, 0x47#8, 0x54#8] ++ lo ++ hi)).take (if ksize then 32 else 16)

/-- A KEYX packet meets the own one: the session is in effect, or with the other mode there is none. -/
def takeKeyx (s : State) (n : Nat) (pay : List Nat) : State :=
  let l := laneOf s n
  let theirs := bytesLE pay
  match l.keyx with
  | none => s
  | some (mine, priv) =>
    if theirs.length ≠ mine.length then s.setF (R.LANE_STAT n) F.LANE_STAT_CAUSE 2
    else if l.sess.isSome then s
    else
      let (z, s1) := keyxZ s n priv theirs
      let key := sessKey (s.flag (R.LANE_ENC n) F.LANE_ENC_KSIZE) z mine theirs
      let s2 := (s1.setF (R.LANE_STAT n) F.LANE_STAT_ENC_UP 1).irqBit (0x080 + n) 4
      let s3 := setLane s2 n { laneOf s2 n with sess := some ⟨key, if beNat mine ≤ beNat theirs then 0 else 1, 0, 0⟩ }
      streamsSend (drainOut ((laneOf s3 n).out.length + 1) n s3)

/-- DRAUGHT_KEYX (R460, R461, R471). -/
def execDraughtKeyx (n : Fin 8) (k : Packet) (s : State) : Out :=
  let t := if (pkSeq k) ≠ (laneOf s n).rxSeq then (if duplicate s n (pkSeq k) then s else discardNak s n)
    else takeKeyx (delivered s n) n (k.pay.map BitVec.toNat)
  whenCan s (arrives s n k && (pkTy k) == 0x30 && engines s) t

/-! ### LANE page -/

/-- Reserved values of Table 15.8. -/
def laneReserved (off w : Nat) : Bool :=
  match off with
  | 0x040 => !bitOf w 8
  | 0x048 => decide (bitsOf w 8 6 < 16) || decide (bitsOf w 8 6 < bitsOf w 0 4 + bitsOf w 16 5 + 16)
  | 0x058 => bitsOf w 16 8 == 0x80
  | _ => false

/-- The lane carries a lane item and Steep is running (R459). -/
def laneHeld (s : State) (n : Nat) : Bool := s.phase == .steep && bitOf s.surv.lanes n

/-- The scan that a write of SCAN_CTRL asks for (Table 15.7). -/
def scanOf (w : Nat) : Scan := ⟨(BitVec.ofNat 6 (bitsOf w 8 6)).toInt, (BitVec.ofNat 8 (bitsOf w 16 8)).toInt, bitsOf w 24 4⟩

/-- SCAN_CTRL (R456). -/
def scanOp (s : State) (n : Nat) (w : Nat) : WOut :=
  if !bitOf w 0 then .done s
  else if laneUp s n = false ∨ (laneOf s n).scan.isSome = true then .refuse 0x02
  else .done (setLane s n { laneOf s n with scan := some (scanOf w) })

/-- What a performed write of the LANE page does (R451, R459, Table 15.8); `host`: not a record of the image. -/
def laneWrite (s : State) (host : Bool) (n off : Nat) (w : Word) : WOut :=
  let a := 0x80000 + 0x1000 * n + off
  if host && laneHeld s n then .refuse 0x01
  else if off = 0x058 then scanOp s n w.toNat
  else if off = 0x060 && bitOf w.toNat 0 && !domOn s 58 then .refuse 0x03
  else if off = 0x040 ∨ off = 0x044 ∨ off = 0x048 ∨ off = 0x060 then .done (restartLane s (s.setReg a w) n)
  else .done (s.setReg a w)

/-! ### Steep (R458) -/

/-- Result of a lane item as the lane stands (R78, R79, R458): the current rate and the last accepted partner type, whether or
not a partner is present. -/
def laneResult (s : State) (n : Nat) (it : SurvItem) : SurvRes :=
  let a := R.LANE_STAT n
  let ty := s.getF a F.LANE_STAT_PTYPE
  let want := bitsOf it.param 16 8
  let rate := rateMbs (laneRate s n)
  if !s.flag a F.LANE_STAT_PRESENT then ⟨0, 6, rate, ty⟩
  else if want ≠ 0 ∧ want ≠ ty then ⟨0, 9, rate, ty⟩
  else if s.flag a F.LANE_STAT_DEGRADED ∧ bitOf it.param 1 = false then ⟨0, 8, rate, ty⟩
  else ⟨0, limitOutcome it rate, rate, ty⟩

/-- STEEP_LANE_RESULT (R78, R458): training has finished, or 50 ms have passed. -/
def execSteepLaneResult (n : Fin 8) (s : State) : Out :=
  match findItem s 5 n with
  | none => .next s
  | some (i, it) => whenCan s (s.phase == .steep && stepDone s 1 && !itemFixed s i)
      (setRes s i (laneResult s n it))

end Sys2Proof.Machine
end

