-- ==== Sys2Proof/Machine/Uart.lean ====
section
/-! DEFINITION. Asynchronous serial ports: the bit-decision rule, characters, SC mode, frame mode, queues and their
pages (16_uarts.md). -/

namespace Sys2Proof.Machine

def uartOf (s : State) (n : Nat) : Uart := tabGet (fun _ => noUart) s.uart.port n
def setUart (s : State) (n : Nat) (u : Uart) : State :=
  { s with uart := { s.uart with port := tabSet (fun _ => noUart) s.uart.port n u } }

/-- MODE: 0 character, 1 SC, 2 frame. -/
def uartMode (s : State) (n : Nat) : Nat := s.getF (R.UART_CFG n) F.UART_CFG_MODE
def uartEn (s : State) (n : Nat) : Bool := s.flag (R.UART_CFG n) F.UART_CFG_EN

/-- The port works: UART0 in every phase and during a halt (R477, R531), the others with their domain and generator 63
(R476, R512). -/
def uartLive (s : State) (n : Nat) : Bool :=
  if n = 0 then s.phase != .reset else live s && domOn s 60 && genRuns s 63 && uartEn s n

/-- Bit period in sixteenths of a cycle (R481, R500, R511). -/
def uartN (s : State) (n : Nat) : Nat :=
  if n = 0 then s.uart.baud0 else ((uartOf s n).n).getD (s.getF (R.UART_BAUD n) F.UART_BAUD_N)

/-- The synchronised receive line is high (R478). -/
def lineHigh (s : State) (n : Nat) : Bool := s.flag (R.UART_STAT n) F.UART_STAT_LINE

/-- An event on the receive line leaves it at `b`. The line of UART1 to UART7 is that of their nib (R478); that of UART0 is known
from the events themselves. -/
def setLine (s : State) (n : Nat) (b : Bool) : State := if n = 0 then setRxLine s 0 b else s

/-- An event of the receive line that leaves it at `b` can be. -/
def lineAt (s : State) (n : Nat) (b : Bool) : Bool := n == 0 || lineHigh s n == b

/-! ### Characters on the line -/

def uartDbits (s : State) (n : Nat) : Nat := s.getF (R.UART_CFG n) F.UART_CFG_DBITS
def uartParity (s : State) (n : Nat) : Nat := s.getF (R.UART_CFG n) F.UART_CFG_PARITY
def uartInv (s : State) (n : Nat) : Bool := s.flag (R.UART_CFG n) F.UART_CFG_INV

/-- Bits that the receiver decides: start, data, parity, and the stop bits but for a half one (R487, R488). -/
def uartBits (s : State) (n : Nat) : Nat :=
  1 + uartDbits s n + (if uartParity s n = 0 then 0 else 1) + (if s.getF (R.UART_CFG n) F.UART_CFG_STOP = 2 then 2 else 1)

/-- Number of ones among the data bits is odd. -/
def oddOnes (v w : Nat) : Bool := popCount v w % 2 == 1

/-- Data bit `i` of a character stands at line position `i + 1`, or in reverse order with INV (R490). -/
def dataPos (inv : Bool) (w i : Nat) : Nat := if inv then w - i else i + 1

/-- Line level of position `k` of a character with value `v` (R488, R490): start 0, data, parity, stops 1. -/
def lineBit (inv : Bool) (w par v k : Nat) : Bool :=
  if k = 0 then false
  else if k ≤ w then (if inv then !bitOf v (w - k) else bitOf v (k - 1))
  else if k = w + 1 ∧ par ≠ 0 then (oddOnes v w != (par == 2)) != inv
  else true

/-- The value that decided line bits carry; a position not decided counts as a 0 in the value. -/
def charData (inv : Bool) (w : Nat) (bits : List Bool) : Nat :=
  (List.range w).foldl (fun v i =>
    let p := dataPos inv w i
    if decide (p < bits.length) && (atD false bits p != inv) then v + 2 ^ i else v) 0

/-! ### The bit-decision rule (R483 to R486) -/

/-- Centre of bit `k` (R484). -/
def bitCentre (n : Nat) (r : URx) (k : Nat) : Nat := r.ref + (2 * (k - r.b) * n + n) / 32

/-- Majority of three samples, and whether they differ. -/
def majority : List Bool → Bool × Bool
  | [a, b, c] => ((a && b) || (a && c) || (b && c), !(a == b && b == c))
  | _ => (false, false)

/-- Take the samples that fall before cycle `t` while the line stands at `lvl`; at most `f` of them. -/
def rxSample (n total t : Nat) (lvl : Bool) : Nat → URx → URx
  | 0, r => r
  | f + 1, r =>
    if total ≤ r.bits.length then r
    else if bitCentre n r r.bits.length + r.part.length < t + 1 then
      let p := r.part ++ [lvl]
      rxSample n total t lvl f
        (if p.length = 3 then { r with part := [], bits := r.bits ++ [majority p] } else { r with part := p })
    else r

/-- The bit whose nominal start lies within the window of an edge at cycle `t` (R486). -/
def resyncBit (n : Nat) (r : URx) (t : Nat) : Option Nat :=
  (firstWhere (fun i => decide (t ≤ r.ref + i * n / 16 + 3 * n / 128) && decide (r.ref + i * n / 16 ≤ t + 3 * n / 128))
    (List.range 16)).map (fun i => r.b + i)

/-- A falling edge within the character (R486). -/
def rxFall (n : Nat) (t : Nat) (r : URx) : URx :=
  let r1 := { r with falls := r.falls + 1, fifth := if r.falls = 4 then some t else r.fifth }
  match resyncBit n r t with
  | some j => { r1 with ref := t, b := j }
  | none => r1

/-- The samples up to a falling edge at cycle `t`, the line having risen at cycle `a`. -/
def rxUpTo (n total a t : Nat) (r : URx) : URx := rxSample n total t true 64 (rxSample n total a false 64 r)

/-- The rest of the character: the line rises at `rise`, or stays low. -/
def rxRest (n total : Nat) (rise : Option Nat) (r : URx) : URx :=
  let far := r.ref + 2 * n
  match rise with
  | some a => rxSample n total far true 64 (rxSample n total (min a far) false 64 r)
  | none => rxSample n total far false 64 r

/-- A character starts with a falling edge at `cycle` (R483). -/
def rxStart (cycle : Nat) : URx := ⟨cycle, 0, cycle, 1, none, [], []⟩

/-- The receiver takes a falling edge as the start of a character. -/
def startRx (s : State) (n cycle : Nat) : State :=
  setLine (setUart s n { uartOf s n with rx := some (rxStart cycle), low := n != 0 }) n false

/-- UART_START_EDGE (R483): a falling edge at `cycle` in hunt. -/
def execUartStartEdge (n : Fin 8) (cycle : Nat) (s : State) : Out :=
  whenCan s (uartLive s n && (uartOf s n).rx.isNone && lineAt s n false && !(uartOf s n).low) (startRx s n cycle)

/-! ### Receive queue (R505) -/

/-- Entry flags of Table 16.1. -/
def ePE : Nat := 2 ^ 9
def eFE : Nat := 2 ^ 10
def eNOISE : Nat := 2 ^ 11
def eBREAK : Nat := 2 ^ 12
def eOVR : Nat := 2 ^ 13
def eBITERR : Nat := 2 ^ 14
def eFIELD : Nat := 2 ^ 19
def ePIDERR : Nat := 2 ^ 22
def eCKSERR : Nat := 2 ^ 23
def eTMO : Nat := 2 ^ 24
def eOWN : Nat := 2 ^ 25
def eTXUNDER : Nat := 2 ^ 26
def eSYNCERR : Nat := 2 ^ 27
def eVALID : Nat := 2 ^ 31

/-- IRQ_RAW bits of a UART page. -/
def uartIrq (s : State) (n i : Nat) : State := s.irqBit (0x090 + n) i

/-- The entry has one of the flags of RXERR. -/
def entryBad (e : Nat) : Bool :=
  [9, 10, 11, 14, 22, 23, 24, 27].any (bitOf e)

/-- Store an entry, or lose it (R505). -/
def rxPut (s : State) (n e : Nat) : State :=
  let u := uartOf s n
  if 64 ≤ u.q.length then
    uartIrq (setUart (s.satF (R.UART_RX_LOST n) F.UART_RX_LOST_N 1) n { u with ovr := true }) n 2
  else
    let e1 := e + eVALID + (if u.ovr then eOVR else 0)
    let s1 := setUart s n { u with q := u.q ++ [e1], ovr := false }
    let s2 := if entryBad e then uartIrq s1 n 1 else s1
    if s.getF (R.UART_WM n) F.UART_WM_N ≤ u.q.length + 1 then uartIrq s2 n 0 else s2

/-- RXQ_READ (R505): what a read of RXQ does and returns. -/
def rxqRead (s : State) (n : Nat) : State × Word :=
  let u := uartOf s n
  match u.q with
  | [] => (s, 0)
  | e :: q => (setUart s n { u with q := q }, BitVec.ofNat 32 e)

/-! ### Transmitter -/

/-- The head of TXQ is taken; an emptied queue sets TXEMPTY (log entry 80). -/
def txTake (s : State) (n : Nat) : State × Nat :=
  let u := uartOf s n
  match u.txq with
  | [] => (s, 0)
  | c :: q =>
    let s1 := setUart s n { u with txq := q }
    (if q.isEmpty then uartIrq s1 n 3 else s1, c)

/-- Bits of the frame field being sent: a break with its delimiter, or a character of ten (R498). -/
def fieldBits (s : State) (n : Nat) : Nat :=
  match (uartOf s n).txf with
  | 1 :: _ => 14 + s.getF (R.UART_FCFG n) F.UART_FCFG_BRK + s.getF (R.UART_FCFG n) F.UART_FCFG_DELIM
  | _ => 10

/-- Half bit periods from the start edge of a character or field to the next one: a frame field has its bits (R498); the
monitor's characters ten (R477); in SC mode 12 + EGT (R492); in character mode start, data, parity, 1, 1.5 or 2 stop bits
and EGT idle ones (R488, R489). -/
def sendHalves (s : State) (n : Nat) : Nat :=
  let egt := s.getF (R.UART_CFG n) F.UART_CFG_EGT
  if n = 0 then 20
  else if uartMode s n = 2 then 2 * fieldBits s n
  else if uartMode s n = 1 then 2 * (12 + egt)
  else 2 * (1 + uartDbits s n + (if uartParity s n = 0 then 0 else 1) + egt) + 2 + s.getF (R.UART_CFG n) F.UART_CFG_STOP

/-- The same in cycles (R482). -/
def sendCycles (s : State) (n : Nat) : Nat := sendHalves s n * uartN s n / 32

/-- Cycles since the start edge of what was last started. -/
def sinceStart (s : State) (n : Nat) : Nat := clkCount s n (uartOf s n).age - (uartOf s n).lead

/-- Cycles left until the next character may start: none before the first. -/
def leadFor (s : State) (n : Nat) : Nat := if (uartOf s n).prev then sendCycles s n - sinceStart s n else 0

/-- In character and SC modes an idle transmitter starts the next character, once the one before has had its time (R482, R489,
R492). -/
def txStart (s : State) (n : Nat) : State :=
  let u := uartOf s n
  if uartEn s n && uartMode s n != 2 && u.tx.isNone && !u.txq.isEmpty then
    let (s1, c) := txTake s n
    setUart s1 n { uartOf s1 n with tx := some (c, 0), age := clkFrom s1 n 0, lead := leadFor s n, prev := true }
  else s

/-- The next frame field is being sent, from its start edge on, and its value (R498, R501). -/
def frameField (s0 : State) (n : Nat) : State :=
  let s := setUart s0 n { uartOf s0 n with age := clkFrom s0 n 0, lead := 0, back := false }
  let u := uartOf s n
  match u.txf with
  | 2 :: _ => setUart s n { u with txv := 0x55 }
  | 3 :: _ => setUart s n { u with txv := u.pid }
  | 4 :: _ =>
    let (s1, c) := txTake s n
    setUart s1 n { uartOf s1 n with txv := c % 256 }
  | 5 :: _ => setUart s n { u with txv := u.cks }
  | _ => s

/-- The effective rate of UART0 follows BAUD once the receiver hunts and the transmitter is idle (R511); the reply to a
command being performed still goes out at the old rate. -/
def baudSync (s : State) : State :=
  if (uartOf s 0).rx.isNone && s.mon.out.isEmpty && s.mon.line.isNone then
    { s with uart := { s.uart with baud0 := s.getF (R.UART_BAUD 0) F.UART_BAUD_N } }
  else s

/-! ### Characters of the monitor's lines (R532 to R535) -/

/-- A line of `b` that holds no token is ignored (R532). -/
def blankLine (b : List Byte) : Bool := b.all (· == 0x20)

/-- A character is taken into the line being assembled (R532); a terminator ends it. A line holds at most 96. `lost`: the
character had been discarded, and its line is answered err 03 (R534); `cut`: the LF of its CR LF had been, which counts as a character of
the line that its CR ends (DEDUCED, log entry 45). -/
def monTake (m : Mon) (c : Byte) (lost cut : Bool) : Mon :=
  if c = 0x0A ∧ m.cr = true then { m with cr := false }
  else if c = 0x0D ∨ c = 0x0A then
    let bad := m.bad || lost || (c == 0x0D && cut)
    { m with
      cur := [], bad := false, cr := c == 0x0D
      line := if blankLine m.cur && !bad then none else some (m.cur, bad) }
  else if !lost && decide (m.cur.length < 96) then { m with cur := m.cur ++ [c], cr := false }
  else { m with bad := true, cr := false }

/-- How many characters the monitor holds of those that came while its command runs (R534). -/
def monStored (m : Mon) : Nat := (m.store.filter (fun e => !e.2)).length

/-- Once no command runs, the characters that came meanwhile are taken until the next line is complete (R534). -/
def monDrain : List (Byte × Bool) → Mon → Mon
  | [], m => { m with store := [] }
  | (c, l) :: r, m => if m.line.isNone then monDrain r (monTake m c l (r.head? == some (0x0A, true))) else { m with store := (c, l) :: r }

/-- One character of the output has left U0_TXD; with the last of a reply its command is over (R534). -/
def monSent (m : Mon) : Mon :=
  let m1 := { m with out := m.out.drop 1, reply := m.reply - 1 }
  if m.reply = 1 ∧ m.resetReq = false then monDrain m.store m1 else m1

/-! ### What the transmitter puts on the line (R480, R482, R488, R490, R493, R498) -/

/-- The bit that is on the line `c` cycles after the start edge: the last k with floor(k × N / 16) at most `c` (R482). -/
def bitAt (n c : Nat) : Nat := (16 * (c + 1) - 1) / n

/-- Level of position `k` of what port `n` sends: a frame field, whose break is 13 + BRK dominant bits followed by a delimiter of
1 + DELIM recessive ones, or a character; UART0 sends the monitor's output (R477, R488, R490, R498). -/
def sentBit (s : State) (n k : Nat) : Bool :=
  let u := uartOf s n
  match u.txf, u.tx with
  | 1 :: _, _ => decide (13 + s.getF (R.UART_FCFG n) F.UART_FCFG_BRK ≤ k)
  | _ :: _, _ => lineBit (uartInv s n) 8 0 u.txv k
  | [], some (v, _) => lineBit (uartInv s n) (uartDbits s n) (uartParity s n) v k
  | [], none => match s.mon.out with
    | c :: _ => if n = 0 then lineBit false 8 0 c.toNat k else true
    | [] => true

/-- The receiver drives the error signal: from 10.5 etu for 1 etu, or 2 with ESL (R493). -/
def signalling (s : State) (n : Nat) : Bool :=
  match (uartOf s n).sig with
  | some c =>
    let t := clkCount s n c
    let e := uartN s n
    decide (21 * e / 32 ≤ t) && decide (t < (21 + 2 * (1 + s.getF (R.UART_CFG n) F.UART_CFG_ESL)) * e / 32)
  | none => false

/-- UTXD of port `n`, and U0_TXD; 1 when idle (R480, R482, R493). -/
def utxd (s : State) (n : Nat) : Bool :=
  let u := uartOf s n
  let c := clkCount s n u.age
  !signalling s n && (decide (c < u.lead) || sentBit s n (bitAt (uartN s n) (c - u.lead)))

/-- UTXOE of port `n` (R480). -/
def utxoe (s : State) (n : Nat) : Bool := uartEn s n && (if uartMode s n = 1 then !utxd s n else true)

/-- What port `n` presents to the design: the island that MAP names, UTXD and UTXOE; two to three edges of the island's clock
pass before they arrive (R479). -/
def uartSignals (s : State) (n : Nat) : Option (Nat × Bool × Bool) :=
  let x := s.getF (R.UART_MAP n) F.UART_MAP_ISL
  if x < 48 then some (x, utxd s n, utxoe s n) else none

/-- What is being sent has had all its time. -/
def sentAll (s : State) (n : Nat) : Bool := decide (sendCycles s n ≤ sinceStart s n)

/-- UART_CHAR_SENT (R482, R488, R489, R492, R498, R503): the character, with its guard time, or the frame field, which has been read
back, has been sent; on UART0 the next character of the monitor's output. -/
def execUartCharSent (n : Fin 8) (s : State) : Out :=
  if n.val = 0 then
    whenCan s (uartLive s 0 && !s.mon.out.isEmpty && sentAll s 0)
      (baudSync (setUart { s with mon := monSent s.mon } 0 { uartOf s 0 with age := clkFrom s 0 0 }))
  else
    let u := uartOf s n
    match u.tx, u.txf with
    | some _, _ => whenCan s (uartLive s n && sentAll s n) (txStart (setUart s n { u with tx := none }) n)
    | none, _ :: l => whenCan s (uartLive s n && u.back && sentAll s n) (frameField (setUart s n { u with txf := l }) n)
    | none, [] => .next s

/-- UART_SC_REPEAT (R494): the line reads low at 11 etu; the repeat starts at 13 etu, and after the last one the next character
12 + EGT etu after the failed attempt (R492). -/
def execUartScRepeat (n : Fin 8) (s : State) : Out :=
  let u := uartOf s n
  match u.tx with
  | none => .next s
  | some (c, k) =>
    let t := if k < s.getF (R.UART_CFG n) F.UART_CFG_RETRY then
        setUart s n { u with tx := some (c, k + 1), age := clkFrom s n 0, lead := 13 * uartN s n / 16 - sinceStart s n }
      else
        let s1 := uartIrq (s.satF (R.UART_TXFAIL_CNT n) F.UART_TXFAIL_CNT_N 1) n 4
        txStart (setUart s1 n { uartOf s1 n with tx := none }) n
    whenCan s (n.val != 0 && uartLive s n && uartMode s n == 1 && !lineHigh s n && decide (11 * uartN s n / 16 ≤ sinceStart s n)) t

/-! ### Frame mode -/

/-- Protected identifier (R498). -/
def pidOf (id : Nat) : Nat :=
  let b (i : Nat) : Bool := bitOf id i
  let p0 := ((b 0 != b 1) != b 2) != b 4
  let p1 := !(((b 1 != b 3) != b 4) != b 5)
  id % 64 + 64 * b2n p0 + 128 * b2n p1

/-- Sum with end-around carry, inverted (R502). -/
def checksum (bs : List Nat) : Nat :=
  255 - bs.foldl (fun a b => if a + b < 256 then a + b else a + b - 255) 0

/-- Checksum of a response (R502): classic, or enhanced over the PID too. -/
def frameCks (enhanced : Bool) (pid : Nat) (dat : List Nat) : Nat := checksum (if enhanced then pid :: dat else dat)

/-- The port is sending a field of its own (OWN). -/
def sendingOwn (u : Uart) : Bool := !u.txf.isEmpty

/-- After a correct PID (R501, R509): the flags of its entry and the state that follows. The measured bit period is that of the
rest of the frame (R500): it is over when no response is to come, at a break, and when the port starts a frame of its own. -/
def answerPid (s : State) (n pid : Nat) : State × Nat :=
  let a := R.UART_IDTAB n (pid % 64)
  let u := { uartOf s n with enh := s.flag a F.UART_IDTAB_CKS }
  let len := s.getF a F.UART_IDTAB_LEN
  let dir := s.getF a F.UART_IDTAB_DIR
  if len = 0 then (setUart s n { u with fr := 0, n := none }, 0)
  else if dir = 0 then (setUart s n { u with fr := 0 }, 0)
  else if dir = 1 then (setUart s n { u with fr := 3, pid := pid, left := len, dat := [] }, 0)
  else if u.txq.length < len then (setUart s n { u with fr := 0, n := none }, eTXUNDER)
  else
    let d := (u.txq.take len).map (· % 256)
    let s1 := setUart s n { u with
      fr := 3, pid := pid, left := len, dat := []
      txf := u.txf ++ List.replicate len 4 ++ [5]
      cks := frameCks u.enh pid d }
    (if u.txf.isEmpty then frameField s1 n else s1, 0)

/-- The bit period measured on a synchronisation byte, when it lies within 15 % of N (R500). -/
def autobaud (n : Nat) (r : URx) : Option Nat :=
  match r.fifth with
  | some t =>
    let m := 2 * (t - r.first)
    if m * 100 ≤ n * 115 ∧ n * 85 ≤ m * 100 then some m else none
  | none => none

/-- A character in frame mode with value `v` and flags `e` (R497, R499 to R502). -/
def frameChar (s : State) (n : Nat) (r : URx) (v e : Nat) : State :=
  let u := uartOf s n
  let own := if sendingOwn u then eOWN else 0
  match u.fr with
  | 1 =>
    let base := v + e + own + 2 * eFIELD
    if s.flag (R.UART_FCFG n) F.UART_FCFG_AUTOBAUD then
      match autobaud (s.getF (R.UART_BAUD n) F.UART_BAUD_N) r with
      | some m => rxPut (setUart s n { u with fr := 2, n := some m }) n base
      | none => rxPut (setUart s n { u with fr := 5 }) n (base + eSYNCERR)
    else rxPut (setUart s n { u with fr := 2 }) n base
  | 2 =>
    let base := v + e + own + 3 * eFIELD
    if v % 256 = pidOf v then
      let (s1, f) := answerPid s n v
      rxPut s1 n (base + f)
    else rxPut (setUart s n { u with fr := 5 }) n (base + ePIDERR)
  | 3 =>
    rxPut (setUart s n { u with fr := if u.left ≤ 1 then 4 else 3, left := u.left - 1, dat := u.dat ++ [v] }) n
      (v + e + own + 4 * eFIELD)
  | 4 =>
    let ok := v == frameCks u.enh u.pid u.dat
    uartIrq (rxPut (setUart s n { u with fr := 0, n := none }) n (v + e + own + 5 * eFIELD + (if ok then 0 else eCKSERR))) n 5
  | 5 => s
  | _ => rxPut s n (v + e + own)

/-- What a completed character comes to (R485, R487, R490, R493, R495, R497, R507). -/
def charDone (s : State) (n : Nat) (r : URx) : State :=
  let bits := r.bits.map Prod.fst
  let w := uartDbits s n
  let par := uartParity s n
  let inv := uartInv s n
  let v := charData inv w bits
  let noise := if r.bits.any Prod.snd then eNOISE else 0
  let fe := if (bits.drop (1 + w + (if par = 0 then 0 else 1))).any (! ·) then eFE else 0
  let pe := par != 0 && atD false bits (w + 1) != lineBit inv w par v (w + 1)
  if atD false bits 0 then s
  else if uartMode s n = 2 then frameChar s n r v (noise + fe)
  else if uartMode s n = 1 && (uartOf s n).tx.isSome then s
  else if bits.all (! ·) then rxPut s n (eBREAK + eFE + noise)
  else if uartMode s n = 1 && pe && s.flag (R.UART_CFG n) F.UART_CFG_SIG then
    setUart (s.satF (R.UART_ERR_CNT n) F.UART_ERR_CNT_N 1) n
      { uartOf s n with sig := some (clkFrom s n (bitCentre (uartN s n) r 10 + 1 - r.first)) }
  else rxPut s n (v + noise + fe + (if pe then ePE else 0))

/-! ### Read-back (R503) -/

/-- The first decided bit that differs from the one sent. -/
def mismatch (s : State) (n : Nat) (bits : List Bool) : Option Nat :=
  firstWhere (fun k => atD false bits k != sentBit s n k) (List.range bits.length)

/-- Characters of TXQ that are left of the frame when field `f` fails, `l` being what would follow: the data not yet sent; in a
header the response that would have followed it. -/
def frameRest (s : State) (n f : Nat) (l : List Nat) : Nat :=
  let u := uartOf s n
  let a := R.UART_IDTAB n (u.pid % 64)
  let k := (l.filter (· == 4)).length
  let len := s.getF a F.UART_IDTAB_LEN
  if k = 0 ∧ f ≤ 3 ∧ s.getF a F.UART_IDTAB_DIR = 2 ∧ len ≤ u.txq.length then len else k

/-- Read-back fails at bit `k` of the field being sent, `bits` being what was decided up to it: UTXD is 1 from here on, since
nothing is sent any more. BITIDX has no value for the bits of a break beyond 12: a free one below 13 (log entry 34). -/
def bitError (s : State) (n k : Nat) (bits : List Bool) : State :=
  let u := uartOf s n
  match u.txf with
  | [] => s
  | f :: l =>
    let (i, s0) := if k ≤ 12 then (k, s) else s.free 13
    let v := if f = 1 then 0 else charData (uartInv s n) 8 (bits.take (k + 1))
    let rest := frameRest s n f l
    let u1 := { u with txf := [], fr := 0, n := none, rx := none, back := false, txq := u.txq.drop rest }
    let s1 := setUart s0 n u1
    let s2 := if 0 < rest ∧ u1.txq = [] then uartIrq s1 n 3 else s1
    uartIrq (rxPut s2 n (v + eBITERR + 2 ^ 15 * i + f * eFIELD + eOWN)) n 6

/-- Every bit of a character has been decided. On UART0 the monitor gets it (R477); a field of the port's own is compared with what
was sent (R503). -/
def charEnd (s0 : State) (n : Nat) (r : URx) : State :=
  let s := setUart s0 n { uartOf s0 n with rx := none }
  let bits := r.bits.map Prod.fst
  if n = 0 then
    baudSync (if atD false bits 0 then s
      else { s with mon := { s.mon with got := s.mon.got ++ [BitVec.ofNat 8 (charData false 8 bits)] } })
  else if uartMode s n = 2 && sendingOwn (uartOf s n) then
    match mismatch s n bits with
    | some k => bitError s n k bits
    | none => charDone (setUart s n { uartOf s n with back := true }) n r
  else charDone s n r

/-- UART_RESYNC_EDGE (R486): the line rises at cycle `rise` and falls at cycle `fall`. After a false start (R485), or after the last
stop bit (R487), the fall starts the next character. -/
def execUartResyncEdge (n : Fin 8) (rise fall : Nat) (s : State) : Out :=
  match (uartOf s n).rx with
  | none => .next s
  | some r =>
    let r1 := rxUpTo (uartN s n) (uartBits s n) rise fall r
    let bits := r1.bits.map Prod.fst
    let own := uartMode s n = 2 && sendingOwn (uartOf s n)
    let t := match (if own then mismatch s n bits else none) with
      | some k => bitError s n k bits
      | none =>
        if atD false bits 0 then startRx s n fall
        else if uartBits s n ≤ bits.length then startRx (charEnd s n r1) n fall
        else setLine (setUart s n { uartOf s n with rx := some (rxFall (uartN s n) fall r1), low := n.val != 0 }) n false
    whenCan s (uartLive s n && decide (r.ref < rise) && decide (rise < fall) && lineAt s n false) t

/-- UART_CHAR_RECEIVED (R487): the line's last rise of the character, or none. In frame mode a line that stays low is a
break in the making (R499). -/
def execUartCharReceived (n : Fin 8) (rise : Option Nat) (s : State) : Out :=
  match (uartOf s n).rx with
  | none => .next s
  | some r =>
    let r1 := rxRest (uartN s n) (uartBits s n) rise r
    let low := r1.bits.all (fun b => !b.1)
    whenCan s (uartLive s n && lineAt s n rise.isSome && !(uartMode s n == 2 && low && rise.isNone))
      (charEnd (setLine s n rise.isSome) n r1)

/-- UART_BREAK (R499): the line has stayed low for 11 bit periods. A character in which it had been high has ended before. -/
def execUartBreak (n : Fin 8) (s : State) : Out :=
  let t := match (uartOf s n).rx with
    | none => s
    | some r =>
      let r1 := rxRest (uartN s n) (uartBits s n) none r
      if r1.bits.all (fun b => !b.1) then s else charEnd s n r1
  let u := uartOf t n
  let own := sendingOwn u
  whenCan s (n.val != 0 && uartLive s n && uartMode s n == 2 && !lineHigh s n)
    (rxPut (setUart t n { u with rx := none, fr := 1, n := none, dat := [], left := 0, low := true, back := u.back || own }) n
      (eBREAK + eFIELD + (if own then eOWN else 0)))

/-- UART_RESPONSE_TIMEOUT (R501): a character in progress goes on. -/
def execUartResponseTimeout (n : Fin 8) (s : State) : Out :=
  let u := uartOf s n
  whenCan s (n.val != 0 && uartLive s n && (u.fr == 3 || u.fr == 4) && !sendingOwn u)
    (rxPut (setUart s n { u with fr := 0, n := none }) n (eTMO + 5 * eFIELD))

/-- Bit `k` of the field being sent is on the line, at or past its centre (R482, R484). -/
def bitHere (s : State) (n k : Nat) : Bool :=
  bitAt (uartN s n) (sinceStart s n) == k && decide ((2 * k + 1) * uartN s n / 32 ≤ sinceStart s n) && decide (k < fieldBits s n)

/-- UART_BIT_ERROR (R503): bit `k` of the field being sent is decided otherwise than it was sent, the line having risen last at
`rise`, or standing low. Of a break and its delimiter the line differs from the bit now sent; so it does of a field that the
receiver takes for no character because the line has stood still, high or low, since it began. -/
def execUartBitError (n : Fin 8) (k : Fin 32) (rise : Option Nat) (s : State) : Out :=
  let u := uartOf s n
  let still := List.replicate (k.val + 1) (lineHigh s n)
  let bits : List Bool := match u.txf, u.rx with
    | 1 :: _, _ => []
    | _, some r => (rxRest (uartN s n) (uartBits s n) rise r).bits.map Prod.fst
    | _, none => still
  let here := match u.txf, u.rx with
    | [], _ => false
    | 1 :: _, _ => bitHere s n k && sentBit s n k != lineHigh s n
    | _, some _ => mismatch s n bits == some k.val
    | _, none => bitHere s n k && mismatch s n still == some k.val
  whenCan s (n.val != 0 && uartLive s n && uartMode s n == 2 && here && lineAt s n rise.isSome) (bitError s n k bits)

/-! ### UART pages -/

/-- Reserved values of Table 16.5. -/
def uartReserved (off w : Nat) : Bool :=
  match off with
  | 0x040 => bitsOf w 1 2 == 3 || decide (bitsOf w 4 4 < 5) || decide (9 < bitsOf w 4 4) || bitsOf w 8 2 == 3 ||
      bitsOf w 10 2 == 3 || bitsOf w 24 8 == 255
  | 0x044 => decide (bitsOf w 0 20 < 256)
  | 0x05C => bitsOf w 0 7 == 0 || decide (64 < bitsOf w 0 7)
  | _ => decide (0x100 ≤ off) && (decide (8 < bitsOf w 0 4) || bitsOf w 5 2 == 3)

/-- The settings of a CFG value are inconsistent (R510). -/
def cfgInconsistent (s : State) (n w : Nat) : Bool :=
  let mode := bitsOf w 1 2
  s.getF (R.UART_MAP n) F.UART_MAP_RX_NIB == 0x1FF || s.getF (R.UART_MAP n) F.UART_MAP_ISL == 0x3F ||
  (mode == 1 && !(bitsOf w 4 4 == 8 && bitsOf w 8 2 == 1)) ||
  (mode == 2 && !(bitsOf w 4 4 == 8 && bitsOf w 8 2 == 0 && bitsOf w 10 2 == 0))

/-- A performed write of CFG (R509, R510). -/
def uartCfgOp (s : State) (n : Nat) (w : Word) : WOut :=
  let a := R.UART_CFG n
  if uartEn s n then
    if bitOf w.toNat 0 then .refuse 0x01
    else .done (setUart (s.setReg a w) n
      { uartOf s n with rx := none, tx := none, txf := [], fr := 0, n := none, lead := 0, sig := none, back := false })
  else if !bitOf w.toNat 0 then .done (s.setReg a w)
  else if s.phase ≠ .run then .refuse 0x07
  else if cfgInconsistent s n w.toNat then .refuse 0x03
  else .done (setUart (s.setReg a w) n { noUart with low := !lineHigh s n })

/-- The line is at rest and the port idle, so that a header may start (R508); `quiet`: it has been high for the last bit
period. -/
def frameIdle (s : State) (n : Nat) (quiet : Bool) : Bool :=
  let u := uartOf s n
  uartEn s n && uartMode s n == 2 && u.txf.isEmpty && u.rx.isNone && (u.fr == 0 || u.fr == 5) &&
    lineHigh s n && quiet

/-- A performed write of FCMD (R498, R508). -/
def uartFcmdOp (s : State) (n : Nat) (w : Word) (quiet : Bool) : WOut :=
  if !bitOf w.toNat 31 then .done s
  else if !frameIdle s n quiet then .refuse 0x04
  else .done (setUart s n { uartOf s n with
    txf := [1, 2, 3], txv := 0, pid := pidOf (w.toNat % 64), age := clkFrom s n 0, lead := 0, back := false, n := none })

/-- A performed write of TXQ (R506). -/
def uartTxqOp (s : State) (n : Nat) (w : Word) : WOut :=
  let u := uartOf s n
  if 64 ≤ u.txq.length then .refuse 0x02
  else .done (txStart (setUart s n { u with txq := u.txq ++ [w.toNat % 512] }) n)

/-- What a performed write of a UART page does (R509, R511). -/
def uartWrite (s : State) (n off : Nat) (w : Word) (quiet : Bool) : WOut :=
  let a := 0x90000 + 0x1000 * n + off
  if n = 0 then .done (if off = 0x044 then baudSync (s.setReg a w) else s.setReg a w)
  else match off with
    | 0x040 => uartCfgOp s n w
    | 0x044 => if uartEn s n then .refuse 0x01 else .done (s.setReg a w)
    | 0x060 => if uartEn s n then .refuse 0x01 else .done (s.setReg a w)
    | 0x054 => uartTxqOp s n w
    | 0x058 => uartFcmdOp s n w quiet
    | _ => .done (s.setReg a w)

/-- UARTn.STAT as it reads (Table 16.2); the queues of UART0 are the monitor's store and output (R477; log entry 97). -/
def uartStatWord (s : State) (n : Nat) : Nat :=
  let u := uartOf s n
  let rxc := if n = 0 then min 127 (monStored s.mon) else u.q.length
  let txc := if n = 0 then min 127 (s.mon.out.length - 1) else u.txq.length
  let tx := if n = 0 then !s.mon.out.isEmpty else u.tx.isSome || !u.txf.isEmpty
  rxc + 2 ^ 8 * txc + 2 ^ 16 * b2n u.rx.isSome + 2 ^ 17 * b2n tx +
    2 ^ 18 * s.getF (R.UART_STAT n) F.UART_STAT_LINE

/-- UART1 to UART7 are disabled (Table 2.6). -/
def uartsOff (s : State) : Bool := (List.range 7).all (fun i => !uartEn s (i + 1))

/-- The UART domain loses its state (R512). -/
def dropUarts (s : State) : State :=
  { s with uart := { s.uart with port := tabDrop (fun n => n != 0) s.uart.port } }

end Sys2Proof.Machine
end

