-- ==== Sys2Proof/Machine/Domains.lean ====
section
/-! DEFINITION. Switched power domains: when one may be switched off, what each requires, what a switch-off loses and
what a power-up restores (R45 to R53, R255, Tables 2.5 and 2.6). -/

namespace Sys2Proof.Machine

def setDom (s : State) (d st : Nat) : State :=
  { s with pwr := { s.pwr with dom := tabSet (fun _ => 0) s.pwr.dom d st } }

/-- A generator, as source or fallback, selects a PLL output, generator 58 for the survey too (R77, R385), or the memory
controller takes DDR_CK (Table 2.6). -/
def pllInUse (s : State) : Bool :=
  (s.phase == .steep && s.surv.usePll) ||
  (List.range 66).any (fun g => genKind s g == 2 || s.getF (R.ISL_GEN_FB g) F.ISL_GEN_FB_FB_KIND == 2) || memState s != 0

/-- A partial reconfiguration or a Blotter reload of island `x` is in progress (R278). -/
def islandRewritten (s : State) (x : Nat) : Bool :=
  (match s.cfg.pr with
    | some e => e.1 == x
    | none => false) || (s.cfg.reload && s.getF R.BLOT_STAT F.BLOT_STAT_ISL == x)

/-- Memory transactions, or the engine operations they need, are in flight. -/
def memoryBusy (s : State) : Bool := inflight s != 0 || memState s == 2 || memState s == 4

/-- Why domain `d` refuses a switch-off: 0 it accepts, 1 busy, 3 a PLL output is in use (Table 2.6, Table 2.13). -/
def domBusy (s : State) (d : Nat) : Nat :=
  if d < 48 then b2n (!(fenced s d && drained s d) || islandRewritten s d)
  else match d with
    | 48 => b2n (capActive s || trcRun s)
    | 49 => b2n (spillBusy s || !s.cap.spOut.isEmpty)
    | 50 => b2n ((List.range 8).any (fun x => ctxState s x != 0))
    | 51 => b2n ((tdcHalf 0).any (chEn s) || (List.range 4).any (fun t => s.flag (R.TIN_TIN_CFG t) F.TIN_TIN_CFG_EN))
    | 52 => b2n ((tdcHalf 1).any (chEn s))
    | 57 => b2n (memoryBusy s)
    | 58 => b2n (memoryBusy s)
    | 59 => b2n (dmaBusy s)
    | 60 => b2n (!uartsOff s)
    | 61 => b2n s.bist.pass.isSome
    | 62 => b2n (blotRunning s)
    | 63 => if pllInUse s then 3 else 0
    | _ => b2n (laneSt s (2 * (d - 53)) != 0 || laneSt s (2 * (d - 53) + 1) != 0)

/-- The domains that domain `d` requires while it is on (Table 2.5). -/
def domNeeds (s : State) (d : Nat) : List Nat :=
  if d < 48 then [63]
  else match d with
    | 48 => [49]
    | 50 => [48]
    | 57 => [58, 63]
    | 59 => [57]
    | 53 => if s.flag (R.LANE_ENC 0) F.LANE_ENC_EN || s.flag (R.LANE_ENC 1) F.LANE_ENC_EN then [58] else []
    | 54 => if s.flag (R.LANE_ENC 2) F.LANE_ENC_EN || s.flag (R.LANE_ENC 3) F.LANE_ENC_EN then [58] else []
    | 55 => if s.flag (R.LANE_ENC 4) F.LANE_ENC_EN || s.flag (R.LANE_ENC 5) F.LANE_ENC_EN then [58] else []
    | 56 => if s.flag (R.LANE_ENC 6) F.LANE_ENC_EN || s.flag (R.LANE_ENC 7) F.LANE_ENC_EN then [58] else []
    | _ => []

/-- A domain's bit in DOM_EN0 and DOM_EN1 in effect. -/
def domEn (s : State) (d : Nat) : Bool := s.mapBit R.PWR_DOM_EN0 4 d

/-- In the staged domain states a powered domain lacks what it requires (R49). -/
def lacks (s : State) (d : Nat) : Bool := domStaged s d && (domNeeds s d).any (fun r => !domStaged s r)

/-- Domain `d`, whose state the commit changes, refuses for R49: it is switched on without what it requires, or it is
switched off while another requires it; a lack that concerns no changing domain is refused by every one. DESIGN CHOICE:
the specification does not say which domain counts as refusing (log entry 21). -/
def needRefused (s : State) (d : Nat) : Bool :=
  lacks s d ||
  (!domStaged s d && (List.range 64).any (fun e => domStaged s e && (domNeeds s e).contains d)) ||
  (List.range 64).any (fun e => lacks s e && domEn s e && (domNeeds s e).all (fun r => domStaged s r || !domEn s r))

/-- Why the unit of domain `d` refuses the PWR commit: 0 it accepts (R48, R49, Table 2.13). -/
def domRefusal (s : State) (d : Nat) : Nat :=
  let busy := if domStaged s d then 0 else domBusy s d
  if busy != 0 then busy else if needRefused s d then 2 else 0

/-! ### What a switch-off loses (R51) -/

/-- The pages whose access a domain governs (Table 2.5; an FI page lies in the AON domain, R46). -/
def domPages (d : Nat) : List Nat :=
  allPages.filter (fun p => match pageOf p with
    | some (k, i) => pageDomain k i == some d
    | none => false)

/-- What a page keeps through a switch-off of its domain: self-test results (R524) and a UART's MAP, which is held until
the next full reset (Table 16.2). -/
def keptOff (a : Nat) : Bool :=
  a == R.BIST_STAT || a == R.BIST_FLOG_CNT || a == R.BIST_ELAPSED || (0xA0100 ≤ a && a < 0xA0400) ||
  (0x91000 ≤ a && a < 0x98000 && a % 0x1000 == 0x048)

/-- A page's registers take their reset values, the halves latched of its counters with them; WEDGED stands until the next full
reset (R122). -/
def losePage (s : State) (p : Nat) : State :=
  let w := pageWedged s p
  let t := { s with
    regs := s.regs.filter (fun e => e.1 / 0x1000 != p || keptOff e.1)
    root := { s.root with latches := s.root.latches.filter (fun e => e.1 / 0x4000 != p) }
    pend := s.pend.filter (fun e => e.1 / 0x1000 != p) }
  if w then t.setF (R.PAGE_STAT p) F.PAGE_STAT_WEDGED 1 else t

/-- Drop the entries of an island from tables keyed island by island. -/
def dropIsland {β : Type} (size x : Nat) (m : Tab β) : Tab β := tabDrop (fun k => k / size == x) m

/-- An island loses its cells, memories, configuration frames and receive queues; it is fenced and drained (R51, R270). DESIGN
CHOICE (log entry 10): its block memories then hold 0, and their ports read 0 without error. -/
def loseIsland (s : State) (x : Nat) : State :=
  let s1 := discardQueues s x
  let s2 := { s1 with
    fab := { s1.fab with
      ff := dropIsland 1 x s1.fab.ff
      bram := dropIsland 12288 x s1.fab.bram
      bramOut := dropIsland 48 x s1.fab.bramOut
      slP := dropIsland 32 x s1.fab.slP
      slOv := dropIsland 32 x s1.fab.slOv
      port := dropIsland 64 x s1.fab.port }
    cfg := { s1.cfg with mem := dropIsland 20480 x s1.cfg.mem } }
  setIslSrc (setVerified s2 x false) x 0

/-- The capture front end: timestamp, samples and the engine beside its registers. The Inkwell's contents and counts lie
in CAPS. -/
def loseCapf (s : State) : State :=
  { s with
    cap := { noCap with
      ink := s.cap.ink, bpos := s.cap.bpos, ring := s.cap.ring, rate := s.cap.rate, wrap := s.cap.wrap
      blocks := s.cap.blocks, freed := s.cap.freed
      spIss := s.cap.spIss, spBlk := s.cap.spBlk, spOut := s.cap.spOut, spFreed := s.cap.spFreed }
    trc := noTrc }

/-- The Inkwell. -/
def loseCaps (s : State) : State :=
  { s with cap := { s.cap with
      ink := [], bpos := 0, ring := false, rate := false, wrap := false, blocks := 0, freed := 0, spIss := 0, spBlk := 0, spOut := [], spFreed := 0 } }

/-- Half `h` of the time-interval unit; half A holds the TIN receivers. -/
def loseTdc (s : State) (h : Nat) : State :=
  let mine (c : Nat) : Bool := c / 16 == h
  { s with tdc := {
      tb := tabDrop (· == h) s.tdc.tb
      last := tabDrop mine s.tdc.last
      q := tabDrop mine s.tdc.q
      due := tabDrop mine s.tdc.due
      presc := if h = 0 then [] else s.tdc.presc
      hz := if h = 0 then [] else s.tdc.hz
      late := tabDrop mine s.tdc.late
      cmp := if h = 0 then [] else s.tdc.cmp
      latch := tabDrop (fun k => mine (k / 4)) s.tdc.latch } }

/-- The Blotter's place in its cycle. -/
def loseBlot (s : State) : State := { s with cfg := { s.cfg with reload := false, pause := false, skip := false } }

/-- Keys, ephemeral and in slots. -/
def loseKeys (s : State) : State := { s with mem := { s.mem with eph := none, slot := [], kw := [] } }

/-- The state a domain has beside its registers is lost; `old`: before its registers were. -/
def loseHidden (old s : State) (d : Nat) : State :=
  if d < 48 then loseIsland s d
  else match d with
    | 48 => loseCapf s
    | 49 => loseCaps s
    | 50 => { s with quill := noQuill }
    | 51 => loseTdc s 0
    | 52 => loseTdc s 1
    | 57 => loseMemc s
    | 58 => loseKeys s
    | 59 => { s with dma := ⟨[], 0⟩ }
    | 60 => dropUarts s
    | 61 => s
    | 62 => loseBlot s
    | 63 => { s with clk := ⟨[], [], 0, 0, s.clk.restarts⟩ }
    | _ => dropLane old (dropLane old s (2 * (d - 53))) (2 * (d - 53) + 1)

/-- A switched-off domain loses all its state (R51). -/
def loseDomain (s : State) (d : Nat) : State := loseHidden s ((domPages d).foldl losePage s) d

/-- The FI page of an island that is switched on (R255): the counters take their reset values; it comes back fenced. -/
def freshFi (s : State) (x : Nat) : State :=
  let s1 := [R.FI_CE_CNT x, R.FI_UE_CNT x, R.FI_POISON_CNT x, R.FI_CE_LAST x, R.FI_UE_LAST x, R.FI_WEDGE_INFO x].foldl
    (fun t a => t.setN a 0) s
  (setDrained (s1.setF (R.FI_FENCE x) F.FI_FENCE_FENCE 1) x true).irqBit (fiPage x) 6

/-- A domain takes its committed state (R47, R52): it begins to power up or down. One that was still powering down has
lost its state before it powers up again; one that was still powering up keeps PD_OFF and is off at once (R56). The ports
of an island that goes off present their hold values (R230). -/
def applyDom (s : State) (d : Nat) : State :=
  let on := domStaged s d
  let s1 := s.setMapBit R.PWR_DOM_EN0 4 d on
  if on then
    let s2 := setDom (if domSt s d = 3 then loseDomain s1 d else s1) d 2
    if d < 48 then freshFi s2 d else s2
  else
    let s2 := setDom s1 d (if domSt s d = 2 then 1 else 3)
    if d < 48 then reloadPorts s2 d else s2

/-- DOMAIN_POWER_UP_DONE (R52): PD_OFF clears and READY sets. In a halt every page holds what it held (R560). -/
def execDomainPowerUpDone (d : Fin 64) (s : State) : Out :=
  let s1 := setDom s d 0
  whenCan s (live s && domSt s d == 2) (if d.val = 58 then rngOk s1 else if d.val = 60 then refreshLines s1 else s1)

/-- DOMAIN_POWER_DOWN_DONE (R51, R52): PD_OFF sets and the domain's state is lost. In a halt every page holds what it held
(R560). -/
def execDomainPowerDownDone (d : Fin 64) (s : State) : Out :=
  whenCan s (live s && domSt s d == 3) (setDom (loseDomain s d) d 1)

end Sys2Proof.Machine
end

