-- ==== Sys2Proof/Machine/Commit.lean ====
section
/-! DEFINITION. Staged registers and the two-phase commit (R128 to R145, R47 to R49, R177, R215, R256, R362). -/

namespace Sys2Proof.Machine

/-! ### Pending banks -/

/-- A row of the register tables holds staged fields. -/
def rowStaged (r : RegRow) : Bool := r.fields.any (fun f => f.ty == .rws)

/-- Addresses of the staged registers of a page. -/
def rwsAddrs (p : Nat) : List Nat :=
  match pageOf p with
  | none => []
  | some (k, _) =>
    (((rowsOf k).filter rowStaged).map (fun r => (List.range r.n).map (fun j => 0x1000 * p + r.off + r.stride * j))).flatten

/-- The register at an address is staged. -/
def isRws (a : Nat) : Bool :=
  match regFields a with
  | some fs => fs.any (fun f => f.ty == .rws)
  | none => false

/-- STAGE_EN from 0 to 1: the pending bank takes the values in effect (R128). -/
def openBank (s : State) (p : Nat) : State := (rwsAddrs p).foldl (fun t a => t.setPend a (some (t.reg a))) s

/-- STAGE_EN from 1 to 0: the pending bank is discarded (R128). -/
def closeBank (s : State) (p : Nat) : State :=
  { s with pend := s.pend.filter (fun e => e.1 / 0x1000 != p) }.setF (R.PAGE_STAT p) F.PAGE_STAT_COMMIT_PENDING 0

def stageEn (s : State) (p : Nat) : Bool := s.flag (R.PAGE_CTRL p) F.PAGE_CTRL_STAGE_EN
def commitPending (s : State) (p : Nat) : Bool := s.flag (R.PAGE_STAT p) F.PAGE_STAT_COMMIT_PENDING

/-- The page is in a commit that has not ended (R143). -/
def inCommit (s : State) (p : Nat) : Bool := s.root.cPhase != .idle && s.root.cPages.contains p

/-! ### Units -/

/-- The page whose commit a unit takes part in. -/
def unitPage : CUnit → Nat
  | .dom _ => 0x002
  | .gen _ => 0x005
  | .bank k => 0x008 + k
  | .fence x => fiPage x
  | .trc => 0x040

/-- The units that a commit of page `p` involves, its pending bank holding writes (R47, R177, R215, R256, R362). -/
def unitsOf (s : State) (p : Nat) : List CUnit :=
  if !commitPending s p then []
  else match pageOf p with
    | some (.pwr, _) => ((List.range 64).filter (fun d => domStaged s d != domEn s d)).map .dom
    | some (.isl, _) => ((List.range 66).filter (fun g => s.staged (R.ISL_GEN_CFG g) != s.reg (R.ISL_GEN_CFG g) ||
        s.staged (R.ISL_GEN_FB g) != s.reg (R.ISL_GEN_FB g))).map .gen
    | some (.nib, k) => [.bank k]
    | some (.fi, x) => [.fence x]
    | some (.trc, _) => [.trc]
    | _ => []

/-- The self-test target in which a unit lies. -/
def unitTarget : CUnit → Option Nat
  | .dom d => some d
  | .fence x => some x
  | .trc => some 48
  | .gen _ => none
  | .bank _ => none

/-- A unit whose target is under test reaches no safe boundary (R516). -/
def unitHeld (s : State) (u : CUnit) : Bool := (unitTarget u).any (fun t => s.bist.isol.contains t)

/-- A unit of target `t` has accepted a PREPARE, so no test of it begins (R136, R516). -/
def testWaits (s : State) (t : Nat) : Bool := s.root.cApply.any (fun u => prepared s u && unitTarget u == some t)

/-! ### Refusals -/

/-- Why nib `j` of bank `k` makes the bank unit refuse; 0 for none (R217). -/
def nibRefusal (s : State) (k j : Nat) : Nat :=
  let old := s.getF (R.NIB_NIB_GRP k j) F.NIB_NIB_GRP_CGRP
  let new := s.stagedF (R.NIB_NIB_GRP k j) F.NIB_NIB_GRP_CGRP
  let active (g : Nat) : Bool := decide (g < 32) && groupActive s g
  if new != old && (active old || active new) then 1
  else if new != 0x3F && !isOutput s (48 * k + j) then 2
  else if s.stagedF (R.NIB_NIB_CFG k j) F.NIB_NIB_CFG_DRIVE == 3 && s.getF (R.NIB_BANK_STAT k) F.NIB_BANK_STAT_VCCIO != 2 then 3
  else 0

/-- The lowest-numbered refusing nib of a bank with its reason. -/
def bankRefusal (s : State) (k : Nat) : Option (Nat × Nat) :=
  (firstWhere (fun j => nibRefusal s k j != 0) (List.range 48)).map (fun j => (j, nibRefusal s k j))

/-- A nib bound to a port of island `x` belongs to a group that waits or switches (R254). -/
def fenceInCutover (s : State) (x : Nat) : Bool :=
  (List.range 64).any (fun j => match portNib s x j with
    | some n =>
      let g := s.getF (R.NIB_NIB_GRP (n / 48) (n % 48)) F.NIB_NIB_GRP_CGRP
      decide (g < 32) && groupActive s g
    | none => false)

def fenceStaged (s : State) (x : Nat) : Bool := s.stagedF (R.FI_FENCE x) F.FI_FENCE_FENCE == 1

/-- Why the fence unit of island `x` refuses; 0 it accepts (R254, R275, log entry 92). -/
def fenceRefusal (s : State) (x : Nat) : Nat :=
  if fenced s x && !fenceStaged s x && !domOn s x then 2
  else if fenced s x && !fenceStaged s x && !verified s x then 1
  else if fenceStaged s x != fenced s x && fenceInCutover s x then 3
  else 0

/-- The unit refuses. -/
def unitRefuses (s : State) : CUnit → Bool
  | .dom d => domRefusal s d != 0
  | .gen g => genRefusal s g != 0
  | .bank k => (bankRefusal s k).isSome
  | .fence x => fenceRefusal s x != 0
  | .trc => (traceRefusal s).isSome

def domOf : CUnit → Option Nat
  | .dom d => some d
  | _ => none

def genOf : CUnit → Option Nat
  | .gen g => some g
  | _ => none

/-- A refusing unit of a page with one unit records its reason in the page (R140). -/
def recordOne (s : State) : CUnit → State
  | .bank k => match bankRefusal s k with
    | some (j, r) => s.setN (R.NIB_COMMIT_INFO k) (j + 256 * r)
    | none => s
  | .fence x => s.setN (R.FI_COMMIT_INFO x) (fenceRefusal s x)
  | .trc => match traceRefusal s with
    | some (n, r) => s.setN R.TRC_COMMIT_INFO (n + 65536 * r)
    | none => s
  | _ => s

/-- The refusing units `us` record their reasons; PWR and ISL name the lowest-numbered one (R57, R140, R178). -/
def recordReasons (s : State) (us : List CUnit) : State :=
  let s1 := match minOf (us.filterMap domOf) with
    | some d => s.setN R.PWR_COMMIT_INFO (d + 256 * domRefusal s d)
    | none => s
  let s2 := match minOf (us.filterMap genOf) with
    | some g => s1.setN R.ISL_COMMIT_INFO (g + 256 * genRefusal s g)
    | none => s1
  us.foldl recordOne s2

/-! ### The root (Table 4.6) -/

/-- The root is idle again. -/
def rootIdle (s : State) : State :=
  { s with root := { s.root with cPhase := .idle, cPages := [], cWait := [], cApply := [] } }

/-- COMMIT_DONE (0) or COMMIT_REFUSED (1) in IRQ_RAW of a page that holds staged registers (R141). -/
def commitIrq (i : Nat) (s : State) (p : Nat) : State :=
  match pageOf p with
  | some (k, _) => if pageHasRws k then s.irqBit p i else s
  | none => s

/-- A commit of `ps` ends as refused (R137, R140, R141). -/
def endRefused (s : State) (ps : List Nat) (reason page : Nat) : State :=
  let s1 := ps.foldl (fun t p => commitIrq 1 (t.setF (R.PAGE_STAT p) F.PAGE_STAT_COMMIT_REFUSED 1) p) (rootIdle s)
  (s1.setN R.SYS_COMMIT_STAT (4 + 16 * reason + 65536 * page)).irqBit 0x000 1

/-- After a successful commit of the ISL page every generator away from a primary that runs returns to it (R174). -/
def returnGens (s : State) : State :=
  ((List.range 66).filter (fun g => awayFromPrimary s g && primaryRuns s g)).foldl returnGen s

/-- A commit of `ps` ends as applied (R138, R141). -/
def endDone (s : State) (ps : List Nat) (wedged : Bool) : State :=
  let s1 := ps.foldl (fun t p => commitIrq 0
    ((t.setF (R.PAGE_STAT p) F.PAGE_STAT_COMMIT_PENDING 0).setF (R.PAGE_STAT p) F.PAGE_STAT_COMMIT_REFUSED 0) p) (rootIdle s)
  let s2 := if ps.contains 0x005 then returnGens s1 else s1
  (s2.setN R.SYS_COMMIT_STAT (2 + 8 * b2n wedged)).irqBit 0x000 0

/-! ### Apply -/

/-- Registers that take their pending values. -/
def takePending (s : State) (as : List Nat) : State := as.foldl (fun t a => t.setReg a (t.staged a)) s

/-- The registers of a unit, but for a domain's bit. -/
def unitRegs : CUnit → List Nat
  | .dom _ => []
  | .gen g => [R.ISL_GEN_CFG g, R.ISL_GEN_FB g]
  | u => rwsAddrs (unitPage u)

/-- The settings of a source that are in use: kind, PLL, output, generator followed, divisor (Table 5.8). -/
def srcUsed (kind pll out fol d : Nat) : Nat × Nat × Nat × Nat × Nat :=
  match kind with
  | 0 => (0, 0, 0, 0, 0) | 1 => (1, 0, 0, 0, d) | 2 => (2, pll, out, 0, d) | k => (k, 0, 0, fol, 0)

/-- A generator takes up new settings (R139, R171, R174): a change of its source, or a change of the fallback of one that
does not run from its primary. In Steep the sequencer owns generator 58 (R385). -/
def genTakes (old s : State) (g : Nat) : State :=
  let a := genSetOf old.getF g
  let b := genSetOf s.getF g
  let prim (x : GenSet) := srcUsed x.kind x.pll x.out x.fol x.d
  let fb (x : GenSet) := srcUsed x.fbKind x.fbPll x.fbOut 0 x.fbD
  if surveyOwns s g then s
  else if prim a != prim b then applyGen s g
  else if genKind s g == 2 && genActive s g != 1 && fb a != fb b && !primaryRuns s g then applyGen s g
  else s

/-- A fence unit takes up new values (R230, R256, R268, R276, R284). -/
def fenceTakes (old s : State) (x : Nat) : State :=
  if fenced s x && !fenced old x then blotFence old (fenceApply s x) x
  else if !fenced s x && fenced old x then fenceLift s x
  else reloadPorts s x

/-- What new values in the registers of a unit bring about. -/
def unitTakes (old s : State) : CUnit → State
  | .dom d => applyDom s d
  | .gen g => genTakes old s g
  | .bank k => resenseBank s k
  | .fence x => fenceTakes old s x
  | .trc => traceApply old s

/-- The units take the new values on one edge (R137, R139). -/
def applyUnits (s : State) (us : List CUnit) : State :=
  let s0 := if us.any (fun u => (genOf u).isSome) then portsTurn s else s
  us.foldl (unitTakes s) (takePending s0 ((us.map unitRegs).flatten))

/-- The units have acknowledged; with the last of them the commit ends (Table 4.6). -/
def acknowledge (s : State) (us : List CUnit) : State :=
  let left := s.root.cApply.filter (fun u => !us.contains u)
  if left.isEmpty then endDone s s.root.cPages false
  else { s with root := { s.root with cApply := left } }

/-! ### Clocks of the units -/

/-- The generator on whose edges a unit works; a domain's unit lies in the AON domain (R177, R215, R256, R362). -/
def unitGen : CUnit → Option Nat
  | .dom _ => none
  | .gen g => some g
  | .bank k => some (48 + k)
  | .fence x => some x
  | .trc => some 55

/-- The unit is at its safe boundary at once: its clock does not run (R604), or a fence's island is off (R256). -/
def unitStopped (s : State) (u : CUnit) : Bool :=
  (unitGen u).any (fun g => !genRuns s g) || (match u with
    | .fence x => !domOn s x
    | _ => false)

/-- Two units are clocked from the same island clock (R139, R168). -/
def unitsTogether (s : State) (u v : CUnit) : Bool :=
  match unitGen u, unitGen v with
  | some g, some h => oneClock s g h
  | _, _ => u == v

/-- APPLY goes to every unit; one whose clock does not run takes its new values at once (R139, R604). -/
def sendApply (s : State) : State :=
  let t := { s with root := { s.root with cPhase := .apply } }
  let now := t.root.cApply.filter (unitStopped t)
  if now.isEmpty then t else acknowledge (applyUnits t now) now

/-- The units `us` decide (R134, R137, R140, Table 4.7). A refusal aborts the commit at once; with the last ACCEPT the
root sends APPLY. -/
def unitsDecide (s : State) (us : List CUnit) : State :=
  let bad := us.filter (unitRefuses s)
  let left := s.root.cWait.filter (fun u => !us.contains u)
  let t := { s with root := { s.root with cWait := left } }
  if bad.isEmpty then (if left.isEmpty then sendApply t else t)
  else endRefused (recordReasons s bad) s.root.cPages 1 ((minOf (bad.map unitPage)).getD 0)

/-- PREPARE goes to the units `us` of the pages `ps`; one whose clock does not run is at its safe boundary and decides at
once (R134, R604). -/
def sendPrepare (s : State) (ps : List Nat) (us : List CUnit) : State :=
  let t := { s.setN R.SYS_COMMIT_STAT 1 with root := { s.root with cPhase := .prepare, cPages := ps, cWait := us, cApply := us } }
  let now := us.filter (fun u => unitStopped s u && !unitHeld s u)
  if now.isEmpty then t else unitsDecide t now

/-! ### The commit request -/

/-- A page whose own domain the commit switches off (R145). -/
def ownDomainOff (s : State) (ps : List Nat) (p : Nat) : Bool :=
  ps.contains 0x002 && commitPending s 0x002 && (match pageOf p with
    | some (k, i) => match pageDomain k i with
      | some d => domEn s d && !domStaged s d
      | none => false
    | none => false)

/-- An accepted commit of the pages `ps` (R132, R133, R135, R145, Table 4.6). -/
def startCommit (s : State) (ps : List Nat) : State :=
  match firstWhere (pageWedged s) ps with
  | some p => endRefused s ps 3 p
  | none => match firstWhere (ownDomainOff s ps) ps with
    | some p => endRefused s ps 4 p
    | none =>
      let us := (ps.map (unitsOf s)).flatten
      if us.isEmpty then endDone s ps false
      else sendPrepare s ps us

/-- What a performed write of SYS.COMMIT does (R132, R133). -/
def commitOp (s : State) (w : Word) : WOut :=
  let p := bitsOf w.toNat 0 12
  if !bitOf w.toNat 31 then .done s
  else if s.root.cPhase != .idle then .refuse 0x82
  else if bitOf w.toNat 16 then .done (startCommit s (allPages.filter (fun q => stageEn s q && commitPending s q)))
  else if !stageEn s p then .refuse 0x82
  else .done (startCommit s [p])

/-- COMMIT_UNIT_DECIDE (R134): the units `us` reach their safe boundary. A unit under test reaches none (R516). -/
def unitDecideOp (us : List CUnit) (s : State) : State :=
  if live s && s.root.cPhase == .prepare && !us.isEmpty && us.all (fun u => s.root.cWait.contains u && !unitHeld s u) then
    unitsDecide s us
  else s

/-- COMMIT_PREPARE_TIMEOUT (R135): 4,096 oscillator cycles passed without every answer. -/
def prepareTimeoutOp (s : State) : State :=
  if live s && s.root.cPhase == .prepare && !s.root.cWait.isEmpty then
    endRefused s s.root.cPages 2 ((minOf (s.root.cWait.map unitPage)).getD 0)
  else s

/-- COMMIT_UNIT_APPLY (R138, R139): the units `us` apply, and with each the other units on its island clock. -/
def unitApplyOp (us : List CUnit) (s : State) : State :=
  if live s && s.root.cPhase == .apply && !us.isEmpty && us.all (fun u => s.root.cApply.contains u) then
    let all := s.root.cApply.filter (fun v => us.any (fun u => unitsTogether s u v))
    acknowledge (applyUnits s all) all
  else s

/-- COMMIT_APPLY_TIMEOUT (R122, R137, Table 4.6): `u` fails to acknowledge within 2^20 of its cycles. Its page is wedged,
and the commit ends with DONE and WEDGED; the new values take effect in every unit, in `u` as well. -/
def applyTimeoutOp (u : CUnit) (s : State) : State :=
  if live s && s.root.cPhase == .apply && s.root.cApply.contains u then
    endDone (wedgePage (applyUnits s s.root.cApply) (unitPage u)) s.root.cPages true
  else s

/-! ### Prepared units -/

/-- The fence of island `x` is prepared: it accepts nothing that the fence will stop (R136, R248). -/
def fencePrepared (s : State) (x : Nat) : Bool :=
  prepared s (.fence x) && fenceStaged s x

/-- Unit `u` could not apply its new values in `s`: it would refuse them, or its target is under test. -/
def cannotApply (s : State) (u : CUnit) : Bool := unitRefuses s u || unitHeld s u

/-- The write that takes `s` to `t` starts an operation that would straddle the safe boundary of a unit that has accepted a
PREPARE: the unit could apply its new values before it and could not after it (R136). -/
def straddles (s t : State) : Bool := s.root.cApply.any (fun u => prepared s u && !cannotApply s u && cannotApply t u)

end Sys2Proof.Machine
end

