-- ==== Sys2Proof/Machine/Bist.lean ====
section
/-! DEFINITION. Built-in self-test (17_bist.md). -/

namespace Sys2Proof.Machine

/-! ### Targets (Table 17.1) -/

/-- Scan chain length L of a target. -/
def tgtL (t : Nat) : Nat :=
  if t < 48 then 320
  else match t with
    | 48 => 256 | 49 => 96 | 50 => 192 | 51 => 128 | 52 => 128 | 57 => 224 | 58 => 256 | 59 => 160 | 60 => 64
    | 62 => 64 | 63 => 48 | _ => 160

/-- Cycles M of the memory test: isolate-and-reinitialise, save-and-restore. -/
def tgtM (t : Nat) (destr : Bool) : Nat :=
  let m : Nat × Nat :=
    if t < 48 then (5120, 8192)
    else match t with
      | 48 => (10240, 16384) | 49 => (81920, 131072) | 50 => (40960, 65536) | 51 => (10240, 16384)
      | 52 => (10240, 16384) | 57 => (5120, 8192) | 58 => (2560, 4096) | 59 => (10240, 16384) | 60 => (640, 1024)
      | 62 => (2560, 4096) | 63 => (0, 0) | _ => (20480, 32768)
  if destr then m.1 else m.2

/-- Duration of a target's test in cycles of generator 65, without a retest (R518). -/
def testCycles (o : BPass) (t : Nat) : Nat :=
  let p := if o.long then 65536 else 8192
  1000 + (if o.destr then 0 else 2 * tgtL t) + (if o.lbist then p * (tgtL t + 4) else 0) +
    (if o.mbist then tgtM t o.destr else 0)

/-- Spare rows of each memory of a target (R521): block memories 2, Inkwell banks and the Quill store 4, others 1; the PLL
domain has no memory (M is 0). -/
def sparesOf (t : Nat) : Nat :=
  if t < 48 then 2 else if t = 49 ∨ t = 50 then 4 else if t = 63 then 0 else 1

/-- A failing word can be one of the target: memory, word, bit (R300, R314, R519, Table 17.3). -/
def faultOk (t mem word bit : Nat) : Bool :=
  if t < 48 then decide (mem < 24) && decide (word < 512) && decide (bit < 72)
  else if t = 49 then decide (mem < 32) && decide (word < 8192) && decide (bit < 72)
  else if t = 50 then mem == 0 && decide (word < 4096) && decide (bit < 99)
  else t != 63

/-- Spare rows that soft repairs have taken in a memory. -/
def spareUsed (s : State) (t mem : Nat) : Nat := (s.bist.repairs.filter (fun e => e.1 == t && e.2.1 == mem)).length

/-- Fewest free spare rows in any memory of the target (Table 17.3). -/
def sparesFree (s : State) (t : Nat) : Nat :=
  sparesOf t - ((s.bist.repairs.filter (fun e => e.1 == t)).map (fun e => spareUsed s t e.2.1)).foldl max 0

/-- Targets that a pair of map registers selects; target 61 never. -/
def selTargets (s : State) (a : Nat) : List Nat := (List.range 64).filter (fun t => t != 61 && s.mapBit a 4 t)

def bistState (s : State) : Nat := s.getF R.BIST_STAT F.BIST_STAT_STATE

/-! ### Scheduling (R523, R526) -/

/-- Results of a target. -/
def setResult (s : State) (t lres mres : Nat) (rep : Bool) (spares : Nat) : State :=
  s.setN (R.BIST_RES t) (lres + 4 * mres + 16 * b2n rep + 256 * spares)

/-- A target whose domain is not on is not tested (R20); SKIPPED for it is the model's choice (log entry 40). At Kiln a target
other than an island is skipped when its switch-off condition does not hold (R526). -/
def skipped (s : State) (t : Nat) : Bool :=
  domSt s t != 0 || (s.phase == .kiln && decide (48 ≤ t) && domBusy s t != 0)

/-- Targets start in ascending number while there is room (R523); a started target is isolated (R515). One with a unit that has
accepted a PREPARE waits for the end of the commit (R136, R516). -/
def startTargets (o : BPass) : Nat → State → State
  | 0, s => s
  | n + 1, s =>
    match s.bist.todo with
    | [] => s
    | t :: ts =>
      let s1 := { s with bist := { s.bist with todo := ts } }
      if skipped s t then
        startTargets o n (setResult s1 t (3 * b2n o.lbist) (3 * b2n o.mbist) false 0)
      else if s.bist.run.length < o.par && !testWaits s t then
        startTargets o n ({ s1 with bist := { s1.bist with
          run := s1.bist.run ++ [(t, s1.bist.now)]
          isol := s1.bist.isol ++ [t] } }.setF R.BIST_STAT F.BIST_STAT_CUR t)
      else s

/-- The pass ends when no target is under test and none is to start (Table 17.3). -/
def endPass (s : State) : State :=
  if s.bist.run.isEmpty && s.bist.todo.isEmpty then
    let s1 := (s.setF R.BIST_STAT F.BIST_STAT_STATE 2).setN R.BIST_ELAPSED (s.bist.now / genMhz s 65 % 2 ^ 32)
    { s1 with bist := { s1.bist with pass := none } }.irqBit 0x0A0 0
  else s

/-- A commit has ended: a pass starts the targets that waited for it. -/
def resumePass (s : State) : State :=
  match s.bist.pass with
  | some o => if s.root.cPhase = .idle ∧ s.bist.todo ≠ [] then endPass (startTargets o 65 s) else s
  | none => s

/-- Results are cleared at the start of a pass (R524). -/
def clearResults (s : State) : State :=
  { s with regs := s.regs.filter (fun e => !((0xA0100 ≤ e.1 && e.1 < 0xA0400) || e.1 == R.BIST_FLOG_CNT || e.1 == R.BIST_ELAPSED)) }

/-- A pass starts over the targets `ts` (R523, R524). -/
def startPass (s : State) (host : Bool) (o : BPass) (ts : List Nat) : State :=
  let s1 := (clearResults s).setN R.BIST_STAT (1 + 4 * b2n host)
  endPass (startTargets o 65 { s1 with bist := { s1.bist with run := [], isol := [], todo := ts, now := 0, pass := some o } })

/-- Options in CTRL, and in KCTRL (R525). -/
def hostOptions (s : State) : BPass :=
  let a := R.BIST_CTRL
  ⟨s.flag a F.BIST_CTRL_MODE, s.flag a F.BIST_CTRL_LBIST, s.flag a F.BIST_CTRL_MBIST, s.flag a F.BIST_CTRL_LONG,
    s.flag a F.BIST_CTRL_REPAIR_EN, s.getF a F.BIST_CTRL_PAR + 1⟩
def kilnOptions (s : State) : BPass :=
  let a := R.BIST_KCTRL
  ⟨false, s.flag a F.BIST_KCTRL_LBIST, s.flag a F.BIST_KCTRL_MBIST, s.flag a F.BIST_KCTRL_LONG,
    s.flag a F.BIST_KCTRL_REPAIR_EN, s.getF a F.BIST_KCTRL_PAR + 1⟩

/-- Kiln's pass (R525). -/
def kilnPass (s : State) : State := startPass s false (kilnOptions s) (selTargets s R.BIST_KSEL0)

/-- Kiln's self-test has failed (R527). -/
def kilnFailed (s : State) : Bool :=
  (List.range 64).any (fun t =>
    s.getF (R.BIST_RES t) F.BIST_RES_LRES == 2 || s.getF (R.BIST_RES t) F.BIST_RES_MRES == 2 ||
    (s.flag (R.BIST_RES t) F.BIST_RES_REPAIRED && s.flag R.BIST_KCTRL F.BIST_KCTRL_REPAIR_FAILS))

/-! ### The end of a target's test -/

/-- A failing word in the failure log: the first 16 of a pass are kept, all are counted (R520). -/
def logFault (t : Nat) (mapped : Nat → Nat → Bool) (s : State) (f : Fin 64 × Fin 65536 × Fin 128) : State :=
  let n := s.getF R.BIST_FLOG_CNT F.BIST_FLOG_CNT_N
  let s1 := s.satF R.BIST_FLOG_CNT F.BIST_FLOG_CNT_N 1
  if n < 16 then
    (s1.setN (R.BIST_FLOG_A n) (t + 256 * f.1.val + 65536 * f.2.1.val)).setN (R.BIST_FLOG_B n)
      (f.2.2.val + 256 * b2n (mapped f.1 (f.2.1 / 8)) + 0x80000000)
  else s1

/-- A failing row is mapped to a free spare of its memory (R521). -/
def repairRow (t : Nat) (s : State) (r : Nat × Nat) : State :=
  if spareUsed s t r.1 < sparesOf t then { s with bist := { s.bist with repairs := s.bist.repairs ++ [(t, r.1, r.2)] } } else s

/-- The failing rows, each once, in the order in which they were found. -/
def rowsOfFaults : List (Fin 64 × Fin 65536 × Fin 128) → List (Nat × Nat)
  | [] => []
  | f :: fs => (f.1.val, f.2.1.val / 8) :: (rowsOfFaults fs).filter (· != (f.1.val, f.2.1.val / 8))

/-- Save-and-restore leaves the target's state as it was (R514); a memory test `mbist` leaves the words of the memories that the
model holds corrected where correctable (R519). -/
def restoreTarget (s : State) (mbist : Bool) (t : Nat) : State :=
  let fix (m : Tab Nat) (mine : Nat → Bool) : Tab Nat :=
    m.map (fun e => if mine e.1 && isCorrectable e.2 then (e.1, eccWord (eccData e.2)) else e) |>.filter (fun e => e.2 != 0)
  if !mbist then s
  else if t < 48 then { s with fab := { s.fab with bram := fix s.fab.bram (fun k => k / 12288 == t) } }
  else if t = 49 then { s with cap := { s.cap with ink := fix s.cap.ink (fun _ => true) } }
  else s

/-- Isolate-and-reinitialise leaves the target as if its domain had just been switched on (R514). -/
def reinitTarget (s : State) (t : Nat) : State :=
  let s1 := loseDomain s t
  if t < 48 then freshFi s1 t else if t = 58 then rngOk s1 else if t = 60 then refreshLines s1 else s1

/-- BIST_TARGET_DONE (R514, R517 to R523): the test of target `t` ends. `lfail`: its signature differs; `faults`: the
failing words of the memory test; `again`: those of the retest after repair. Targets end in the order of R518. -/
def execBistTargetDone (t : Fin 64) (lfail : Bool) (faults again : List (Fin 64 × Fin 65536 × Fin 128)) (s : State) : Out :=
  match s.bist.pass, firstWhere (fun e => e.1 == t.val) s.bist.run with
  | some o, some (_, st) =>
    let rows := if o.repair then rowsOfFaults faults else []
    let before := s.bist.repairs
    let s1 := rows.foldl (repairRow t) s
    let new := s1.bist.repairs.drop before.length
    let mapped (m r : Nat) : Bool := new.contains (t.val, m, r)
    let retest := !new.isEmpty
    let fails (m : Nat) : Bool := again.any (fun f => f.1.val == m) ||
      faults.any (fun f => f.1.val == m && !mapped m (f.2.1.val / 8))
    let mems := faults.map (fun f => f.1.val)
    let mfail := o.mbist && mems.any fails
    let rep := new.any (fun e => !fails e.2.1)
    let fin := st + testCycles o t + (if retest then tgtM t o.destr else 0)
    let latest (e : Nat × Nat) : Nat := e.2 + testCycles o e.1 + (if o.mbist && o.repair then tgtM e.1 o.destr else 0)
    let s2 := (faults ++ again).foldl (logFault t mapped) s1
    let s3 := setResult s2 t (if o.lbist then 1 + b2n lfail else 0) (if o.mbist then 1 + b2n mfail else 0) rep (sparesFree s2 t)
    let failed := (o.lbist && lfail) || mfail
    let s4 := if failed then (s3.satF R.BIST_STAT F.BIST_STAT_NFAIL 1).irqBit 0x0A0 1 else s3
    let s5 := if rep then s4.satF R.BIST_STAT F.BIST_STAT_NREP 1 else s4
    let s6 := if o.destr then reinitTarget s5 t else restoreTarget s5 o.mbist t
    let s7 := { s6 with bist := { s6.bist with
      run := s6.bist.run.filter (fun e => e.1 != t.val)
      isol := s6.bist.isol.filter (· != t.val)
      now := fin } }
    let s8 := if t.val = 58 then cryptoBack s7 else s7
    whenCan s (live s && domOn s 61 && genRuns s 65 && (!lfail || o.lbist) &&
        (faults.isEmpty || o.mbist) && (again.isEmpty || retest) &&
        again.all (fun f => mems.contains f.1.val) &&
        (faults ++ again).all (fun f => faultOk t f.1 f.2.1 f.2.2) &&
        decide (s.bist.now ≤ fin) && s.bist.run.all (fun e => e.1 == t.val || decide (fin ≤ latest e)))
      (endPass (startTargets o 65 s8))
  | _, _ => .next s

/-! ### The BIST page -/

def bistReserved (off w : Nat) : Bool := off == 0x04C && w % 4 == 3

/-- The lowest selected target that `p` picks. -/
def lowestTarget (s : State) (p : Nat → Bool) : Option Nat := firstWhere p (selTargets s R.BIST_SEL0)

/-- START by the host (R528, Table 17.2). -/
def bistStart (s : State) : WOut :=
  let ts := selTargets s R.BIST_SEL0
  let o := hostOptions s
  if bistState s = 1 then .refuse 0x01
  else if ts.isEmpty || (!o.lbist && !o.mbist) then .refuse 0x02
  else match lowestTarget s (fun t => domSt s t != 0) with
    | some t => .refuseAs (s.setN R.BIST_REFUSE_TGT t) 0x03
    | none => match lowestTarget s (fun t => domBusy s t != 0) with
      | some t => .refuseAs (s.setN R.BIST_REFUSE_TGT t) 0x04
      | none => .done (startPass s true o ts)

/-- What a performed write of the BIST page does (R528, R530). -/
def bistWrite (s : State) (off : Nat) (w : Word) : WOut :=
  if off = 0x04C then
    if w = 0 then .done s
    else if s.phase ≠ .run then .refuse 0x07
    else if bitOf w.toNat 0 then bistStart s
    else .done (if bistState s = 1 then endPass { s with bist := { s.bist with todo := [] } } else s)
  else if bistState s = 1 then .refuse 0x01
  else .done (s.setReg (0xA0000 + off) w)

end Sys2Proof.Machine
end

