-- ==== Sys2Proof/Machine/Unlock.lean ====
section
/-! DEFINITION. Unlocking a path (R538 to R545): passwords, challenges, responses, failure counts and lockouts, for the
monitor, the HSP (R548) and the Draught path (R549). Results are those of Table 18.4. -/

namespace Sys2Proof.Machine

/-- Failure count of a path, MON.STAT bits 3:0, 7:4 and 11:8. -/
def failsOf (s : State) (p : Path) : Nat := s.getF R.MON_STAT ⟨4 * p.code, 4⟩

/-- The path is locked out, MON.STAT bits 18:16 (R544). -/
def lockedOut (s : State) (p : Path) : Bool := s.flag R.MON_STAT ⟨16 + p.code, 1⟩

def chalOf (s : State) (p : Path) : Option (List Byte) := tabGet (fun _ => none) s.mon.chal p.code
def setChal (s : State) (p : Path) (c : Option (List Byte)) : State :=
  { s with mon := { s.mon with chal := tabSet (fun _ => none) s.mon.chal p.code c } }

/-- A wrong password or response (R543): one more failure; the eighth locks the path out at level 0 (R544). -/
def unlockFailed (s : State) (p : Path) : State :=
  let n := failsOf s p + 1
  let s1 := (s.setF R.MON_STAT ⟨4 * p.code, 4⟩ (min n 8)).irqBit 0x0B0 1
  if 8 ≤ n then (setLevel (s1.setF R.MON_STAT ⟨16 + p.code, 1⟩ 1) p 0).irqBit 0x0B0 2 else s1

/-- An unlock raises a path to level `l`, or leaves a higher one; RAISED is set where the level rises. -/
def raiseTo (s : State) (p : Path) (l : Nat) : State :=
  if levelOf s p < l then (setLevel s p l).irqBit 0x0B0 0 else s

/-- A malformed password (R539). -/
def pwMalformed (s : State) (n : Nat) : Bool :=
  (decide (1 ≤ n) && decide (n ≤ 7)) || decide (32 < n) || (n == 0 && s.mon.pwh.isSome)

/-- A well-formed password is right (R538). -/
def pwRight (s : State) (pw : List Byte) : Bool :=
  match s.mon.pwh with
  | none => pw.isEmpty
  | some h => sha256 pw == h

/-- Password unlock (R538, R539, R543, R544). -/
def unlockPw (s : State) (p : Path) (pw : List Byte) : Nat × State :=
  if lockedOut s p then (3, s)
  else if pwMalformed s pw.length then (6, s)
  else if pwRight s pw then (1, raiseTo s p 1)
  else (2, unlockFailed s p)

/-- Draw a challenge (R540). On a path that is locked out it counts as an unlock attempt and is refused (R544; log entry
93). -/
def unlockChal (s : State) (p : Path) : Nat × State :=
  if lockedOut s p then (3, s)
  else
    let (c, s1) := s.freeBytes 32
    (1, setChal s1 p (some c))

/-- The response that a challenge expects (R541). -/
def expectedResp (s : State) (p : Path) (c : List Byte) : List Byte :=
  hmacSha256 (s.mon.key.getD (List.replicate 32 0#8))
    ([0x53#8, 0x54#8, 0x55#8, 0x50#8] ++ c ++ [BitVec.ofNat 8 p.code])

/-- A response consumes the challenge of its path (R540, R541, R543). -/
def unlockResp (s : State) (p : Path) (r : List Byte) : Nat × State :=
  if lockedOut s p then (3, s)
  else match chalOf s p with
    | none => (4, s)
    | some c =>
      let s1 := setChal s p none
      if r = expectedResp s p c then (1, raiseTo s1 p 2) else (2, unlockFailed s1 p)

/-- Lower a path to level `l`; a level that is not below the present one changes nothing (R545). -/
def unlockLock (s : State) (p : Path) (l : Nat) : Nat × State :=
  (1, if l < levelOf s p then setLevel s p l else s)

/-- CHALLENGE_EXPIRE (R540): 60 s have passed since the challenge of path `p` was drawn. -/
def execChallengeExpire (p : Path) (s : State) : Out :=
  whenCan s ((chalOf s p).isSome) (setChal s p none)

/-! ### From the HSP -/

/-- Bytes of UL_DATA0 to UL_DATA7, byte 0 in bits 7:0 of UL_DATA0 (R548). -/
def ulData (s : State) : List Byte :=
  ((List.range 8).map (fun w => natLE 4 (s.regN (R.MON_UL_DATA w)))).flatten

/-- Reserved values of Table 18.5: an undefined OP with GO = 1, a LEN above 32, a LEVEL above 1. -/
def monReserved (off w : Nat) : Bool :=
  off == 0x080 && ((bitOf w 31 && (bitsOf w 0 3 == 0 || decide (5 ≤ bitsOf w 0 3))) ||
    decide (32 < bitsOf w 8 6) || decide (1 < bitsOf w 16 2))

/-- The operation that UL_CMD or an AUTH packet names: OP, password length, level and data (R548, R549). -/
def unlockOp (s : State) (p : Path) (op len level : Nat) (d : List Byte) : Nat × State :=
  match op with
  | 1 => unlockPw s p (d.take len)
  | 2 => unlockChal s p
  | 3 => unlockResp s p (d.take 32)
  | _ => unlockLock s p level

/-- A write of UL_CMD (R548): every GO clears UL_DATA and reports RESULT. -/
def ulCmd (s : State) (w : Nat) : State :=
  if bitOf w 31 then
    let (r, s1) := unlockOp s .hsp (bitsOf w 0 3) (bitsOf w 8 6) (bitsOf w 16 2) (ulData s)
    (List.range 8).foldl (fun t j => t.setN (R.MON_UL_DATA j) 0) (s1.setN R.MON_UL_STAT r)
  else s

/-- What a performed write of the MON page does. -/
def monWrite (s : State) (off : Nat) (w : Word) : WOut :=
  .done (if off = 0x080 then ulCmd s w.toNat else s.setReg (0xB0000 + off) w)

/-! ### AUTH packets (R549) -/

/-- STATUS 6 (Table 15.6): undefined header or ARG bits, a non-zero ADDR, more than 8 payload words. -/
def authMalformed (k : Packet) : Bool :=
  !headerClean k || pkAddr k != 0 || decide (8 < pkLen k) ||
    bitsOf k.w3.toNat 3 5 != 0 || bitsOf k.w3.toNat 14 2 != 0 || bitsOf k.w3.toNat 18 14 != 0

/-- OP of an AUTH packet's ARG. -/
def authOp (arg : Nat) : Nat := bitsOf arg 0 3

/-- An AUTH request at the head of the request queue is performed and answered. The values that Table 18.5 reserves are
answered as a violation of kind RSVD_VALUE (log entry 94), but for the length of a password, which R539 answers; payload that
is missing counts as zero. -/
def authPerform (s : State) (q : DrReq) (rest : List DrReq) : State :=
  let s1 := { s with dl := { s.dl with rq := rest } }
  let op := authOp q.arg
  let d := bytesLE q.pay ++ List.replicate 63 0#8
  if op = 0 ∨ 5 ≤ op ∨ (op ≠ 1 ∧ 32 < bitsOf q.arg 8 6) ∨ 1 < bitsOf q.arg 16 2 then
    sendCpl s1 q.lane q.src q.tag q.addr 1 4 0 []
  else
    let (r, s2) := unlockOp s1 .dlnk op (bitsOf q.arg 8 6) (bitsOf q.arg 16 2) d
    if r = 1 then
      sendCpl s2 q.lane q.src q.tag q.addr 0 0 0 (if op = 2 then wordsLE ((chalOf s2 .dlnk).getD []) else [])
    else sendCpl s2 q.lane q.src q.tag q.addr 2 (r - 1) 0 []

/-- An AUTH packet with an OP that `mine` takes: `some (n, k)`, its arrival on lane `n` into the request queue (R464);
`none`, its performance once it is the oldest request (R549). -/
def authStep (mine : Nat → Bool) (arr : Option (Fin 8 × Packet)) (s : State) : Out :=
  match arr with
  | some (n, k) =>
    routedArrival (pkTy k == 0x40 && mine (authOp k.w3.toNat)) n k (takeReq (authMalformed k) n k) s
  | none => match s.dl.rq with
    | q :: rest => whenCan s (live s && q.ty == 0x40 && mine (authOp q.arg)) (authPerform s q rest)
    | [] => .next s

/-- AUTH_PASSWORD (R549): OP 1, and the undefined OPs. -/
def execAuthPassword (arr : Option (Fin 8 × Packet)) (s : State) : Out :=
  authStep (fun op => op != 2 && op != 3 && op != 4) arr s

/-- AUTH_CHALLENGE (R549): OP 2. -/
def execAuthChallenge (arr : Option (Fin 8 × Packet)) (s : State) : Out := authStep (· == 2) arr s

/-- AUTH_RESPONSE (R549): OP 3. -/
def execAuthResponse (arr : Option (Fin 8 × Packet)) (s : State) : Out := authStep (· == 3) arr s

/-- AUTH_LOCK (R549): OP 4. -/
def execAuthLock (arr : Option (Fin 8 × Packet)) (s : State) : Out := authStep (· == 4) arr s

end Sys2Proof.Machine
end

