-- ==== Sys2Proof/Machine/Views.lean ====
section
/-! DEFINITION. What a read of a register returns: the values that are computed at the read, the reads that change
state, and for every other register its stored contents without its WO fields (R119). -/

namespace Sys2Proof.Machine

/-- A number made of the bits `p` picks below `n`. -/
def bitWord (n : Nat) (p : Nat → Bool) : Nat := ((List.range n).filter p).foldl (fun v i => v + 2 ^ i) 0

/-- SYS.LEVEL (R100). -/
def levelWord (s : State) : Nat :=
  levelOf s .mon + 4 * levelOf s .hsp + 16 * levelOf s .dlnk + 64 * levelOf s .fab

/-- NIB pages: BANK_STAT with GATED, the level and source maps, NIBn_STAT (Table 6.4). -/
def nibView (s : State) (k off : Nat) : Option Nat :=
  match off with
  | 0x044 => some (withBits (s.regN (R.NIB_BANK_STAT k)) 1 1 (b2n (!bankRuns s k)))
  | 0x048 => some (bankMap k 0 (nibIn s))
  | 0x04C => some (bankMap k 1 (nibIn s))
  | 0x050 => some (bankMap k 0 (fun n => nibSrc s n == 1))
  | 0x054 => some (bankMap k 1 (fun n => nibSrc s n == 1))
  | _ => if 0x100 ≤ off ∧ off % 16 = 12 then some (nibStatWord s (48 * k + (off - 0x100) / 16)) else none

/-- SURV: PHASE and the item that RES_SEL and MIS_SEL select (Tables 3.7, 3.10). -/
def survView (s : State) (off : Nat) : Option Nat :=
  match off with
  | 0x040 => some (survPhaseWord s)
  | 0x058 => some (resKindWord s)
  | 0x05C => some ((survSelected s).2.2.val)
  | 0x060 => some ((survSelected s).2.2.aux)
  | 0x068 => some (misItemWord s)
  | _ => none

/-- ISL: the maps of generators on fallback and gated (Table 5.8). -/
def islView (s : State) (off : Nat) : Option Nat :=
  if 0x044 ≤ off ∧ off < 0x050 then
    some (bitWord 32 (fun i => let g := 8 * (off - 0x044) + i; decide (g < 66) && genActive s g == 2))
  else if 0x050 ≤ off ∧ off < 0x05C then
    some (bitWord 32 (fun i => let g := 8 * (off - 0x050) + i; decide (g < 66) && genActive s g == 0))
  else none

/-- A generator runs, or did when the device halted: a page's registers keep what they held at E0 (R558, R560). -/
def ranAtHalt (s : State) (g : Nat) : Bool := genRuns s g || (s.phase == .halt && genCause s g == 5)

/-- TDC pages: TB_STAT and queue counts (Table 12.2). -/
def tdcView (s : State) (i off : Nat) : Option Nat :=
  let h := i / 2
  if off = 0x040 then
    some (withBits (withBits (s.regN (R.TDC_TB_STAT i)) 0 16 (genMhz s (58 + h))) 16 1 (b2n (ranAtHalt s (58 + h))))
  else if 0x100 ≤ off ∧ off % 64 = 8 then some (tdcQ s (8 * i + (off - 0x100) / 64)).length
  else none

/-- MON: STAT with PW_SET and KEY_SET, the HSP path's challenge (Table 18.3). -/
def monView (s : State) (off : Nat) : Option Nat :=
  if off = 0x044 then some (withBits (withBits (s.regN R.MON_STAT) 24 1 (b2n s.mon.pwh.isSome)) 25 1 (b2n s.mon.key.isSome))
  else if 0x0E0 ≤ off ∧ off < 0x100 then
    some (leNat (((chalOf s .hsp).getD []).drop (off - 0x0E0) |>.take 4))
  else none

/-- Value of a register that is computed at the read, for a read on path `p`; none for a stored one. -/
def viewOf (s : State) (p : Path) (k : PageKind) (i page off : Nat) : Option Nat :=
  if off = 0x00C then some (pageStatWord s page)
  else if off = 0x018 then some (irqPend s page).toNat
  else if off < 0x040 then none
  else match k with
    | .sys => if off = 0x040 then some (levelWord s) else none
    | .pwr => if off = 0x048 then some (domStatWord s 0) else if off = 0x04C then some (domStatWord s 1)
      else if off = 0x050 then some (s.pwr.good % 2 ^ 13) else none
    | .surv => survView s off
    | .isl => islView s off
    | .nib => nibView s i off
    | .cut => if off = 0x044 then some (cutActiveWord s)
      else if 0x100 ≤ off ∧ off % 16 = 4 then some (grpStatWord s ((off - 0x100) / 16)) else none
    | .cfgc => if off = 0x078 then some (islSrcOf s (s.getF R.CFGC_ISLSRC_SEL F.CFGC_ISLSRC_SEL_ISL)) else none
    | .qst => if off = 0x040 then some (qstGet s (some p) 0) else none
    | .trc => if off = 0x048 then some s.trc.q.length
      else if 0x064 ≤ off ∧ off < 0x070 then some (trcLatched s p.code ((off - 0x060) / 4)).toNat else none
    | .tdc =>
      if 0x100 ≤ off ∧ 0x24 ≤ off % 64 ∧ off % 64 < 0x30 then
        some (tdcLatched s p.code (8 * i + (off - 0x100) / 64) ((off % 64 - 0x20) / 4)).toNat
      else tdcView s i off
    | .memc => if off = 0x06C then some (withBits (s.regN R.MEMC_INFLIGHT) 0 16 (inflight s)) else none
    | .dma => if off = 0x040 then some (engStatWord s i)
      else if 0x100 ≤ off ∧ off < 0x300 ∧ off % 64 = 0x34 then some (chanStatWord s (8 * i + (off - 0x100) / 64)) else none
    | .dlnk => if off = 0x044 then some s.dl.rq.length
      else if 0x080 ≤ off ∧ off < 0x100 ∧ off % 8 = 4 then
        some (withBits (s.regN (0x88000 + off)) 0 1 (b2n (strOpen s ((off - 0x080) / 8)))) else none
    | .uart => if off = 0x04C then some (uartStatWord s i) else none
    | .uart0 => if off = 0x04C then some (uartStatWord s 0) else none
    | .mon => monView s off
    | .irq => if 0x200 ≤ off ∧ off < 0x228 then some (irqPendWord s ((off - 0x200) / 4)) else none
    | .fi => if off = 0x044 then some (islStatWord s i) else none
    | _ => none

/-! ### Reads that change state -/

/-- The 48-bit count whose low half is at `a`: SYS.TSTAMP, CAP.TS_NOW, the Quill's counters and timers (R127, R288,
R322). -/
def countAt (s : State) (a : Nat) : Option Nat :=
  let page := a / 0x1000
  let off := a % 0x1000
  if a = R.SYS_TSTAMP_LO then some s.root.ts
  else if a = R.CAP_TS_NOW_LO then some s.cap.ts
  else if 0x34 ≤ page ∧ page ≤ 0x3B ∧ 0x0D0 ≤ off ∧ off < 0x100 ∧ off % 8 = 0 then some (qcxCount s (page - 0x34) off)
  else none

def latchOf (s : State) (p : Path) (lo : Nat) : Nat := tabGet (fun _ => 0) s.root.latches (4 * lo + p.code)
def setLatch (s : State) (p : Path) (lo v : Nat) : State :=
  { s with root := { s.root with latches := tabSet (fun _ => 0) s.root.latches (4 * lo + p.code) v } }

/-- A LO read returns bits 31:0 and latches bits 47:32 for the path (R127). -/
def latchRead (s : State) (p : Path) (a v : Nat) : State × Word :=
  (setLatch s p a (v / 2 ^ 32 % 2 ^ 16), BitVec.ofNat 32 v)

/-- A read of RST_CAUSE (R64): the bits returned as 1 are noted. -/
def causeRead (s : State) : State × Word :=
  let v := s.regN R.SURV_RST_CAUSE
  ({ s with pwr := { s.pwr with causeRead := Nat.lor s.pwr.causeRead v } }, BitVec.ofNat 32 v)

/-- What a register without side effect reads as. -/
def plainRead (s : State) (p : Path) (a : Nat) : Word :=
  match pageOf (a / 0x1000), regFields a with
  | some (k, i), some fs =>
    match viewOf s p k i (a / 0x1000) (a % 0x1000) with
    | some v => BitVec.ofNat 32 v
    | none => s.reg a &&& ~~~ BitVec.ofNat 32 (fieldMask (· == .wo) fs)
  | _, _ => 0

/-- A performed read of the register at `a` on path `p`; `flip`: bits that the word behind WIN_LO or the control store
word behind W0 has had upset since it was written. -/
def readReg (s : State) (p : Path) (a flip : Nat) : State × Word :=
  match countAt s a with
  | some v => latchRead s p a v
  | none =>
    if 4 ≤ a ∧ (countAt s (a - 4)).isSome then (s, BitVec.ofNat 32 (latchOf s p (a - 4)))
    else if a = R.SURV_RST_CAUSE then causeRead s
    else if a = R.INK_WIN_LO then inkWinLo s flip
    else if a = R.INK_WIN_HI then inkWinHi s
    else if a = R.QST_W0 then qstReadOp s (some p) 0 flip
    else if a = R.QST_W1 then qstReadOp s (some p) 1 flip
    else if a = R.QST_W2 then qstReadOp s (some p) 2 flip
    else if a = R.TRC_Q_W 0 then trcReadW0 s p.code
    else if 0x50100 ≤ a ∧ a < 0x54000 ∧ 0x100 ≤ a % 0x1000 ∧ a % 64 = 0x20 then
      tdcReadW0 s p.code (8 * ((a - 0x50000) / 0x1000) + (a % 0x1000 - 0x100) / 64)
    else if 0x91000 ≤ a ∧ a < 0x98000 ∧ a % 0x1000 = 0x050 then rxqRead s ((a - 0x90000) / 0x1000)
    else (s, plainRead s p a)

end Sys2Proof.Machine
end

