-- ==== Sys2Proof/Machine/Access.lean ====
section
/-! DEFINITION. A write of a register of the window, whoever makes it: which fields the word changes (Table 0.3, R118,
R602), reserved fields and values (Tables 2.14 to 19.7), and the effect on the page (R121, R128 to R130, R143). -/

namespace Sys2Proof.Machine

/-- Bits of a register that belong to no field (RSVD_FIELD). -/
def reservedMask (fs : List FieldRow) : Nat := 2 ^ 32 - 1 - fieldMask (fun _ => true) fs

/-- No field of the register can be written (R602). -/
def readOnly (fs : List FieldRow) : Bool := fs.all (fun f => f.ty == .ro || f.ty == .roh)

/-- What a write of `w` leaves in a register that holds `old` (R118, R602): RW, WO and RWS fields take the written bits,
RO fields keep theirs, a 1 clears a W1C bit. -/
def mergeWord (old w : Word) (fs : List FieldRow) : Word :=
  let m (p : FieldTy → Bool) : Word := BitVec.ofNat 32 (fieldMask p fs)
  (old &&& m (fun t => t == .ro || t == .roh)) ||| (w &&& m (fun t => t == .rw || t == .wo || t == .rws)) |||
    (old &&& ~~~ w &&& m (· == .w1c))

/-! ### Reserved values -/

/-- Tables 4.9 and 19.4 (R573). -/
def sysReserved (off w : Nat) : Bool :=
  (off == 0x044 && bitOf w 31 && !bitOf w 16 && (pageOf (bitsOf w 0 12)).isNone) || (off == 0x060 && bitsOf w 0 16 != 0xA55A)

/-- Table 3.11. -/
def survReserved (off w : Nat) : Bool := off == 0x048 && bitsOf w 24 8 != 0x5A

/-- Table 5.9. -/
def islReserved (off w : Nat) : Bool :=
  let badD (d : Nat) : Bool := d == 0 || decide (64 < d)
  decide (0x100 ≤ off) &&
    (if off % 16 = 0 then badD (bitsOf w 16 7) || decide (66 ≤ bitsOf w 8 7) else badD (bitsOf w 16 7) || bitsOf w 0 2 == 3)

/-- Table 6.5; NIBn_DECL is written by records of the image alone. -/
def nibReserved (off w : Nat) : Bool :=
  if off < 0x100 then false
  else match off % 16 with
    | 0 => bitsOf w 16 2 == 3 || bitsOf w 24 2 == 3
    | 4 => decide (0x20 ≤ bitsOf w 0 6) && bitsOf w 0 6 != 0x3F
    | 8 => bitsOf w 0 2 == 3 || bitsOf w 4 2 == 3 || bitsOf w 16 6 == (off - 0x100) / 16 ||
        (decide (48 ≤ bitsOf w 16 6) && bitsOf w 16 6 != 0x3F)
    | _ => false

/-- Table 6.7. DESIGN CHOICE (log entry 41): CANCEL with TARGET, WAIT or FORCE is a violation also where GO is 0. -/
def cutReserved (off w : Nat) : Bool :=
  if off = 0x040 then bitOf w 11 && (bitOf w 8 || bitOf w 9 || bitOf w 10)
  else off % 16 == 0 && bitsOf w 16 16 == 0

/-- Table 19.7: a route enabled for an unimplemented page. -/
def irqReserved (off w : Nat) : Bool :=
  decide (0x100 ≤ off) && (List.range 8).any (fun j => bitOf w (4 * j + 3) && (pageOf (2 * (off - 0x100) + j)).isNone)

/-- The word carries a reserved value of an enumerated field (RSVD_VALUE). -/
def reservedValue (k : PageKind) (off w : Nat) : Bool :=
  decide (0x040 ≤ off) && (match k with
    | .sys => sysReserved off w
    | .surv => survReserved off w
    | .clk => clkReserved off w
    | .isl => islReserved off w
    | .nib => nibReserved off w
    | .cut => cutReserved off w
    | .cfgc => cfgcReserved off w
    | .cap => capReserved off w
    | .ink => inkReserved off w
    | .qcx => qcxReserved off w
    | .trc => trcReserved off w
    | .tdc => tdcReserved off w
    | .tin => tinReserved off w
    | .memc => memcReserved off w
    | .keys => keysReserved off w
    | .dma => dmaReserved off w
    | .lane => laneReserved off w
    | .dlnk => dlnkReserved off w
    | .uart => uartReserved off w
    | .uart0 => uartReserved off w
    | .bist => bistReserved off w
    | .mon => monReserved off w
    | .irq => irqReserved off w
    | .vlog => false | .pwr => false | .blot => false | .qst => false | .xts => false | .fi => false)

/-! ### Effects -/

/-- PAGE_CTRL (R128, R143). -/
def pageCtrlWrite (s : State) (page : Nat) (w : Word) : WOut :=
  let new := bitOf w.toNat 1
  let s1 := s.setReg (R.PAGE_CTRL page) w
  if new = stageEn s page then .done s1
  else if inCommit s page then .refuse 0x81
  else .done (if new then openBank s1 page else closeBank s1 page)

/-- A staged register: the word goes to the pending bank (R129, R130, R143). -/
def stagedWrite (s : State) (page a : Nat) (w : Word) : WOut :=
  if !stageEn s page then .refuse 0x80
  else if inCommit s page then .refuse 0x81
  else .done ((s.setPend a (some w)).setF (R.PAGE_STAT page) F.PAGE_STAT_COMMIT_PENDING 1)

/-- The IRQ page: HALT_CLR clears the halt record (R563). -/
def irqWrite (s : State) (off : Nat) (w : Word) : WOut :=
  if off = 0x044 then .done (if bitOf w.toNat 0 then clearHaltRecord s else s) else .done (s.setReg (0xC0000 + off) w)

/-- Registers of a page but those that Bus.lean adds: what the block does with a performed write of the merged word
`w`; `p`: the path, none for a record of the image; `quiet`: see `frameIdle`. -/
def blockWrite (s : State) (p : Option Path) (k : PageKind) (i off : Nat) (w : Word) (quiet : Bool) : WOut :=
  match k with
  | .clk => clkWrite s off w
  | .cut => if off = 0x040 then cutCmd s p w else .done (s.setReg (0x10000 + off) w)
  | .cfgc => cfgcWrite s off w
  | .blot => blotWrite s off w
  | .cap => capWrite s off w
  | .ink => inkWrite s off w
  | .qcx => qcxWrite s p i off w
  | .qst => qstWrite s p off w
  | .trc => trcWrite s off w
  | .tdc => tdcWrite s i off w
  | .tin => tinWrite s off w
  | .memc => memcWrite s off w
  | .xts => xtsWrite s off w
  | .keys => keysWrite s p off w
  | .dma => dmaWrite s i off w
  | .lane => laneWrite s p.isSome i off w
  | .dlnk => dlnkWrite s off w
  | .uart => uartWrite s i off w quiet
  | .uart0 => uartWrite s 0 off w quiet
  | .bist => bistWrite s off w
  | .mon => monWrite s off w
  | .irq => irqWrite s off w
  | .fi => fiWrite s i off w
  | .sys => .done (s.setReg off w)
  | .vlog => .done (s.setReg (0x1000 + off) w)
  | .pwr => .done (s.setReg (0x2000 + off) w)
  | .surv => .done (s.setReg (0x3000 + off) w)
  | .isl => .done (s.setReg (0x5000 + off) w)
  | .nib => .done (s.setReg (0x8000 + 0x1000 * i + off) w)

/-- Every write of these pages is refused while Steep uses them: TDC0 (R90), a lane with a lane item (R459). -/
def steepHolds (s : State) (p : Option Path) (k : PageKind) (i : Nat) : Bool :=
  p.isSome && ((k == .tdc && i == 0 && s.phase == .steep) || (k == .lane && laneHeld s i))

end Sys2Proof.Machine
end

