-- ==== Sys2Proof/Machine/Germinate.lean ====
section
/-! DEFINITION. From the end of Steep to Run: the end of Steep (R17, R79, R87), the override (R88), Germinate (R264 to
R267, R607) and Kiln (R82 to R84, R525 to R527). -/

namespace Sys2Proof.Machine

/-! ### Records of the device section (R261, R265) -/

/-- Pages that a record may not address (R265). -/
def recordForbidden (page : Nat) : Bool := decide (page ≤ 3) || page == 0x020 || page == 0x0B0 || decide (0x800 ≤ page)

/-- Registers that their chapters declare as set at Germinate: NIBn_DECL, FI ISL_INFO, PROBE and NPORT, UARTn.MAP. -/
def setAtGerminate (k : PageKind) (off : Nat) : Bool :=
  match k with
  | .nib => decide (0x100 ≤ off) && off % 16 == 8
  | .fi => off == 0x040 || off == 0x060 || off == 0x064 || (decide (0x100 ≤ off) && decide (off < 0x200))
  | .uart => off == 0x048
  | _ => false

/-- What a record comes to: the state after it, or the KIND of its refusal (Table 8.3). -/
inductive RecordOut where
  | ok (s : State)
  | refused (kind : Nat)

/-- The fields that a record for a register set at Germinate writes; the place of an island is fixed. -/
def germWord (k : PageKind) (off : Nat) (old w : Word) (fs : List FieldRow) : Word :=
  let m := if k = .fi ∧ off = 0x040 then BitVec.ofNat 32 0xF000 else BitVec.ofNat 32 (fieldMask (fun _ => true) fs)
  (old &&& ~~~ m) ||| (w &&& m)

/-- The write of a record in a page that it may address. -/
def recordDo (s : State) (page : Nat) (k : PageKind) (i a : Nat) (w : Word) (fs : List FieldRow) : RecordOut :=
  let off := a % 0x1000
  let r :=
    if setAtGerminate k off then WOut.done (s.setReg a (germWord k off (s.reg a) w fs))
    else if off = 0x008 then pageCtrlWrite s page (mergeWord (s.reg a) w fs)
    else if off < 0x040 then .done (s.setReg a (mergeWord (s.reg a) w fs))
    else if fs.any (fun f => f.ty == .rws) then .done (s.setReg a (mergeWord (s.reg a) w fs))
    else blockWrite s none k i off (mergeWord (s.reg a) w fs) true
  match r with
  | .done t => .ok t
  | .wait t => .ok t
  | .refuse _ => .refused 6
  | .refuseAs _ _ => .refused 6
  | .bad v => .refused v.code

/-- A record: a level-2 write on no path, with the checks of R265 in the order of R117. -/
def applyRecord (s : State) (aw : Nat) (w : Word) : RecordOut :=
  let a := aw % 2 ^ 24
  let page := a / 0x1000
  if 2 ^ 24 ≤ aw ∨ recordForbidden page = true then .refused 0
  else match pageOf page, regFields a with
    | some (k, i), some fs =>
      let off := a % 0x1000
      if readOnly fs && !setAtGerminate k off then .refused 1
      else if pageOff s page || pageUnderTest s page then .refused 5
      else if w.toNat &&& reservedMask fs ≠ 0 then .refused 3
      else if reservedValue k off w.toNat then .refused 4
      else if pageWedged s page then .refused 6
      else recordDo s page k i a w fs
    | _, _ => .refused 1

/-- The records in order: the state, and the index and KIND of the first one refused. -/
def applyRecords : Nat → List (Nat × Nat) → State → State × Option (Nat × Nat)
  | _, [], s => (s, none)
  | n, (a, v) :: l, s =>
    match applyRecord s a (BitVec.ofNat 32 v) with
    | .ok t => applyRecords (n + 1) l t
    | .refused k => (s, some (n, k))

def devAddr (s : State) : Nat := hdrWord s 5
def devCount (s : State) : Nat := flashWord s (devAddr s + 4)

/-- REASON 1 or 2 of Table 8.4 for the device section, 0 when it passes (R261). -/
def devReason (s : State) : Nat :=
  let a := devAddr s
  if flashWord s a ≠ 0x44530001 ∨ 4096 < devCount s ∨ flashWord s (a + 12) ≠ hdrWord s 2 then 1
  else if (crc32 (flashBytes s (a + 16) (8 * devCount s))).toNat ≠ flashWord s (a + 8) then 2
  else 0

/-- The records: register address and value. -/
def devRecords (s : State) : List (Nat × Nat) :=
  (List.range (devCount s)).map (fun i => let a := devAddr s + 16 + 8 * i; (flashWord s a, flashWord s (a + 4)))

/-! ### R607 -/

/-- Declarations against R608: the nib breaks it. -/
def declBad (s : State) (n : Nat) : Bool :=
  let role := nibRole s n
  let init := nibDecl s n F.NIB_NIB_DECL_INIT
  let pair := nibDecl s n F.NIB_NIB_DECL_PAIR
  let mate := 48 * (n / 48) + pair
  if pair = 0x3F then (if role = 2 then init == 0 else init != 2)
  else !((role == 1 && nibRole s mate == 2) || (role == 2 && nibRole s mate == 1)) ||
    nibDecl s mate F.NIB_NIB_DECL_PAIR != n % 48 || (role != 2 && init != 2)

/-- Nibs whose settings break condition 2 or 3 of R217 in the values in effect: in a group without being an output, or of a
drive strength that the bank's voltage does not allow. -/
def nibBad (s : State) (n : Nat) : Bool :=
  (s.getF (R.NIB_NIB_GRP (n / 48) (n % 48)) F.NIB_NIB_GRP_CGRP != 0x3F && !isOutput s n) ||
  (nibCfg s n F.NIB_NIB_CFG_DRIVE == 3 && s.getF (R.NIB_BANK_STAT (n / 48)) F.NIB_BANK_STAT_VCCIO != 2)

/-- The first check of R607 that fails on the values in effect, 0 when all pass. -/
def r607Fails (s : State) : Nat :=
  let nibs := List.range 336
  if nibs.any (declBad s) then 1
  else if (List.range 66).any (fun g => genFollowBad s.getF g (genSetOf s.getF g) || genSamePll (genSetOf s.getF g)) then 2
  else if nibs.any (nibBad s) then 3
  else if (traceRefusal { s with pend := [] }).isSome then 4
  else 0

/-- Register `a` is one that a check of R607 concerns: every register that the check reads and a record can write, whichever
of them breaks it (DEDUCED, log entry 29). -/
def r607Concerns (check a : Nat) : Bool :=
  let nib := decide (0x8000 ≤ a) && decide (a < 0xF000)
  let decl := nib && decide (0x100 ≤ a % 0x1000) && a % 16 == 8
  match check with
  | 1 => decl
  | 2 => decide (0x5100 ≤ a) && decide (a < 0x5520)
  | 3 => nib && decide (0x100 ≤ a % 0x1000)
  | _ => decl || ((rwsAddrs 0x040).contains a && (decide (a < 0x400C0) || decide (0x40380 ≤ a)))

/-- The last record that wrote a register that the check concerns (R607). -/
def lastRecord (check : Nat) : Nat → List (Nat × Nat) → Nat → Nat
  | _, [], best => best
  | n, (a, _) :: l, best => lastRecord check (n + 1) l (if r607Concerns check a then n else best)

/-! ### Germinate -/

/-- Germinate ends in GERM_FAIL (R265, Table 8.3). -/
def germFail (s : State) (reason record isl kind : Nat) : State :=
  ({ s.setN R.CFGC_GERM_ERR (reason + 16 * record + 2 ^ 16 * isl + 2 ^ 24 * kind) with phase := .germFail }).irqBit 0x003 2

/-- The image fields of the CFGC page (Table 8.3). -/
def imageFields (s : State) : State :=
  let w (i : Nat) : Nat := hdrWord s i
  ((((((s.setN R.CFGC_DESIGN_ID (w 2)).setN R.CFGC_IMG_INFO (w 10)).setN R.CFGC_FILLED0 (w 6)).setN R.CFGC_FILLED1 (w 7)).setN
    R.CFGC_CRIT0 (w 8)).setN R.CFGC_CRIT1 (w 9))

def imgIsland (s : State) (f : Fld) : Nat := s.getF R.CFGC_IMG_INFO f

/-- ISL_INFO of an island as the header declares it (Table 7.4). -/
def islandInfo (s : State) (x : Nat) : State :=
  let a := R.FI_ISL_INFO x
  s.setN a (withBits (s.regN a) 12 4 (b2n (!hdrFilled s x) + 2 * b2n (imgIsland s F.CFGC_IMG_INFO_UW_ISL == x) +
    4 * b2n (imgIsland s F.CFGC_IMG_INFO_MP_ISL == x) + 8 * b2n (hdrCrit s x)))

/-- Steps 5 and 6 of R264: the filled islands are unfenced, an empty island is fenced whatever a record wrote (R50), nibs and
receive lines take up the image's settings (R188, R478), and Kiln begins with its self-test pass (R525). -/
def germEnd (s : State) : State :=
  let s0 := ((List.range 48).filter (fun x => !hdrFilled s x)).foldl (fun t x => t.setN (R.FI_FENCE x) 1) s
  let s1 := ((List.range 48).filter (hdrFilled s)).foldl (fun t x => fenceLift (t.setN (R.FI_FENCE x) 0) x) s0
  let s2 := refreshLines ((List.range 7).foldl resenseBank s1)
  kilnPass { s2 with
    phase := .kiln
    surv := { s2.surv with durGerm := phaseUs s2, t0 := s2.root.ts } }

/-- A generator takes up the image's settings (R170). Generator 58, which the survey owned, takes up those in effect
(R386). -/
def genGerminates (old s : State) (g : Nat) : State :=
  let t := genTakes old s g
  let u := applyGen s g
  if g = 58 ∧ t.reg (R.ISL_GEN_STAT g) = s.reg (R.ISL_GEN_STAT g) then
    (if u.reg (R.ISL_GEN_STAT g) = s.reg (R.ISL_GEN_STAT g) then s else u)
  else t

/-- Germinate begins: steps 1 to 3 of R264; with no filled island it is over at once. -/
def germinate (s : State) : State :=
  let s0 := readFlash (imageFields { s with phase := .germinate, surv := { s.surv with t0 := s.root.ts } }) (devAddr s)
    (16 + 8 * devCount s)
  let why := devReason s0
  if why ≠ 0 then germFail s0 why 0 0x3F 0
  else
    let recs := devRecords s0
    match applyRecords 0 recs s0 with
    | (t, some (n, k)) => germFail t 3 n 0x3F k
    | (t, none) =>
      if r607Fails t ≠ 0 then germFail t 3 (lastRecord (r607Fails t) 0 recs 0) 0x3F 7
      else
        let t1 := (List.range 66).foldl (genGerminates s0) ((List.range 48).foldl islandInfo t)
        let todo := (List.range 48).filter (hdrFilled t1)
        if todo.isEmpty then germEnd t1 else { t1 with surv := { t1.surv with toLoad := todo } }

/-- GERMINATE_ISLAND_LOAD (R264 step 4, R267). DESIGN CHOICE (log entry 44): frames of an island whose domain is off cannot be
verified, REASON 6. -/
def execGerminateIslandLoad (x : Fin 48) (bad : Option (Fin 1024)) (s : State) : Out :=
  let (why, s1) := if domOn s x then loadIsland s x (hdrWord s (16 + x)) bad else (6, s)
  let rest := s.surv.toLoad.drop 1
  let s2 := { s1 with surv := { s1.surv with toLoad := rest } }
  whenCan s (s.phase == .germinate && s.surv.toLoad.head? == some x.val)
    (if why ≠ 0 then germFail s2 why 0 x 0 else if rest.isEmpty then germEnd s2 else s2)

/-- Every measurement that Steep waits for is there (Table 3.3, R81). -/
def steepDone (s : State) : Bool :=
  stepDone s 1 && stepDone s 2 && stepDone s 3 && stepDone s 4 &&
    (checkFailed s || (kindDone s 3 && kindDone s 4 && kindDone s 5))

/-- STEEP_END (R17, R79, R81, R87, R386): the results stand; with every item matching Germinate begins. -/
def execSteepEnd (s : State) : Out :=
  let m := (mismatches s).length
  let s1 := steepClocksBack { s with surv := { s.surv with durSteep := phaseUs s } }
  let s2 := ((s1.setF R.SURV_STATUS F.SURV_STATUS_DONE 1).irqBit 0x003 0).setN R.SURV_MISMATCH_CNT m
  let s3 := if m = 0 then s2 else (s2.setF R.SURV_STATUS F.SURV_STATUS_MISMATCH 1).irqBit 0x003 1
  whenCan s (s.phase == .steep && steepDone s)
    (if checkFailed s || m != 0 then { s3 with phase := .steepHold } else germinate s3)

/-- A performed write of SURV.OVERRIDE (R88, Table 3.11). DESIGN CHOICE (log entry 28): with GO = 0 it is performed in every
phase and has no effect. -/
def overrideOp (s : State) (w : Word) : WOut :=
  if !bitOf w.toNat 0 then .done s
  else if s.phase ≠ .steepHold then .refuse 0x01
  else if checkFailed s || !s.flag R.SURV_STATUS F.SURV_STATUS_MISMATCH then .refuse 0x02
  else .done (germinate (s.setF R.SURV_STATUS F.SURV_STATUS_OVERRIDDEN 1))

/-! ### Kiln -/

/-- Kiln ends in KILN_FAIL (Table 3.2). -/
def kilnFail (s : State) : State := ({ s with phase := .kilnFail }).irqBit 0x003 2

/-- KILN_SELFTEST_RESULT (R82, R527). -/
def execKilnSelftestResult (s : State) : Out :=
  whenCan s (s.phase == .kiln && bistState s != 1 && !s.surv.selfTestOk)
    (if kilnFailed s then kilnFail s else { s with surv := { s.surv with selfTestOk := true } })

/-- PLLs that feed a bank clock (R82). -/
def bankPlls (s : State) : List Nat :=
  (List.range 7).filterMap (fun k =>
    let g := genRoot s (bankGen k)
    if genKind s g = 2 then some (s.getF (R.ISL_GEN_CFG g) F.ISL_GEN_CFG_SRC_PLL) else none)

def bankPllsLocked (s : State) : Bool := (bankPlls s).all (fun p => pllSt s p == 2)

/-- Entry to Run: the durations (R84; DESIGN CHOICE, log entry 28: written at this moment), the level of the fabric path (R102), the Blotter (R280). -/
def enterRun (s : State) : State :=
  let s1 := ((s.setN R.SURV_DUR_STEEP s.surv.durSteep).setN R.SURV_DUR_GERM s.surv.durGerm).setN R.SURV_DUR_KILN (phaseUs s)
  let s2 := setLevel { s1 with phase := .run } .fab (imgIsland s F.CFGC_IMG_INFO_FAB_LEVEL)
  let s3 := s2.irqBit 0x003 3
  if s.flag R.BLOT_CTRL F.BLOT_CTRL_RUN && domSt s 62 == 0 then blotStart s3 else s3

/-- The banks left to arm; after the last of them the device enters Run (Table 3.2). -/
def toArm (s : State) (ks : List Nat) : State :=
  if ks.isEmpty then enterRun { s with surv := { s.surv with toArm := some [] } }
  else { s with surv := { s.surv with toArm := some ks } }

/-- KILN_ARM (R82, R197): the bank PLLs are locked; the halt states are latched, and the banks that hold an output are armed
next. Generators go to primaries that have come to run as R174 says. -/
def execKilnArm (s : State) : Out :=
  whenCan s (s.phase == .kiln && s.surv.selfTestOk && s.surv.toArm.isNone && bankPllsLocked s)
    (toArm { s with nib := { s.nib with latched := true } } ((List.range 7).filter (bankHasOutput s)))

/-- KILN_LOCK_TIMEOUT (R82): 100 ms without the locks. -/
def execKilnLockTimeout (s : State) : Out :=
  whenCan s (s.phase == .kiln && s.surv.selfTestOk && s.surv.toArm.isNone && !bankPllsLocked s) (kilnFail s)

/-- An output nib takes its initial source (R83, R185). -/
def armNib (s : State) (n : Nat) : State :=
  if isOutput s n then
    readBack (loadOut { s with nib := { s.nib with src := tabSet (fun _ => 2) s.nib.src n (nibDecl s n F.NIB_NIB_DECL_INIT) } } n) n
  else s

/-- BANK_ARM (R82, R83): one edge of the bank's clock. -/
def execBankArm (k : Fin 7) (s : State) : Out :=
  match s.surv.toArm with
  | some (j :: ks) =>
    whenCan s (s.phase == .kiln && j == k.val && bankRuns s k)
      (toArm ((bankNibs k).foldl armNib (s.setF (R.NIB_BANK_STAT k) F.NIB_BANK_STAT_ARMED 1)) ks)
  | _ => .next s

end Sys2Proof.Machine
end

