-- ==== Sys2Proof/Machine/Bus.lean ====
section
/-! DEFINITION. The register fabric root as requesters see it: the checks of an access in their order (R93 to R105,
R116 to R124, R602), its performance, HSP transactions (R106 to R111), the fabric master port (R246 to R248), the user
window (R249 to R251), Draught requests (R465), and SYS.RESET (R568 to R573). -/

namespace Sys2Proof.Machine

/-! ### Which requests are served -/

/-- The root serves the path: not in a reset; in a halt the monitor alone (R124). -/
def served (s : State) (p : Path) : Bool := s.phase != .reset && (s.phase != .halt || p == .mon)

/-- Level at which a path is served: in a halt at most 1 (R124, R550). -/
def effLevel (s : State) (p : Path) : Nat := if s.phase = .halt then min 1 (levelOf s p) else levelOf s p

/-- The device is in Run, or was when it halted. -/
def inRun (s : State) : Bool := s.phase == .run || (s.phase == .halt && s.surv.toArm == some [])

/-- The registers that serve the HSP alone, at every level (R548). -/
def ulReg (k : PageKind) (off : Nat) : Bool :=
  k == .mon && (off == 0x080 || off == 0x084 || (decide (0x0C0 ≤ off) && decide (off < 0x100)))

/-- PAGE_ID, PAGE_VER and, for R54 and R122, PAGE_STAT. -/
def identity (off : Nat) : Bool := off == 0x000 || off == 0x004 || off == 0x00C

/-- Level that an access needs (R92, R103, R104, R146, R548). -/
def needLevel (k : PageKind) (off : Nat) (write : Bool) : Nat :=
  if ulReg k off then 0
  else if write then (if k = .surv ∧ (off = 0x054 ∨ off = 0x064) then 1 else 2)
  else if off = 0x000 ∨ off = 0x004 ∨ (k = .sys ∧ off = 0x040) then 0 else 1

/-- The violation of an access to a device page: the first kind that applies (R116, R117, Table 4.5). With the BIST domain off
the self-test results are read through the service floor: the monitor path and the HSP (R19, R55, R524). -/
def devViolation (s : State) (p : Path) (a : Nat) (w : Option Word) : Option VKind :=
  let page := a / 0x1000
  let off := a % 0x1000
  match pageOf page, regFields a with
  | some (k, _), some fs =>
    if w.isSome && readOnly fs then some .unimpl
    else if p == .fab && !inRun s then some .unimpl
    else if ulReg k off && p != .hsp then some .unimpl
    else if effLevel s p < needLevel k off w.isSome then some .level
    else if (pageOff s page || pageUnderTest s page) && !(w.isNone && (identity off || (k == .bist && keptOff a && (p == .mon || p == .hsp)))) then
      some .pdOff
    else match w with
      | none => none
      | some v =>
        if v.toNat &&& reservedMask fs ≠ 0 then some .rsvdField
        else if reservedValue k off v.toNat then some .rsvdValue
        else none
  | _, _ => some .unimpl

/-- The user window (R96). -/
def inWindow (a : Nat) : Bool := decide (0x800000 ≤ a)

/-- Island that decodes the user window, 0x3F for none (R249). -/
def uwIsland (s : State) : Nat := imgIsland s F.CFGC_IMG_INFO_UW_ISL

/-- The violation of an access to the user window before it is forwarded (R94, R96, R105, R116, R123). -/
def uwViolation (s : State) (p : Path) (a : Nat) (write : Bool) : Option VKind :=
  if a % 4 ≠ 0 ∨ p = .fab ∨ inRun s = false ∨ 48 ≤ uwIsland s then some .unimpl
  else if effLevel s p < 1 + b2n write then some .level
  else if domPdOff s (uwIsland s) then some .pdOff
  else none

/-- The decoding island is fenced, or has prepared its fence (R123, R248). -/
def uwFenced (s : State) : Bool := fenced s (uwIsland s) || fencePrepared s (uwIsland s)

/-- A path has an access outstanding at the design (R112, R249). -/
def outstanding (s : State) (p : Path) : Bool := s.fab.uw.any (fun u => u.path == p)

/-- A user-window access that would be forwarded to an island whose clock is gated waits without limit (R176): it does not
complete now. -/
def uwStuck (s : State) (p : Path) (a : Nat) (write : Bool) : Bool :=
  inWindow a && (uwViolation s p a write).isNone && !uwFenced s && !genRuns s (uwIsland s)

/-! ### SYS.RESET -/

def disarm (s : State) (p : Path) : State :=
  { s with root := { s.root with arm := tabSet (fun _ => none) s.root.arm p.code none } }

/-- A write of 0xA55A within 50,000 oscillator cycles of the arming write qualifies; any other arms (R568). -/
def resetKey (s : State) (p : Path) : State :=
  match tabGet (fun _ => none) s.root.arm p.code with
  | some t =>
    if (s.root.ts + 2 ^ 48 - t) % 2 ^ 48 ≤ 50000 then { disarm s p with root := { (disarm s p).root with resetReq := some p } }
    else { s with root := { s.root with arm := tabSet (fun _ => none) s.root.arm p.code (some s.root.ts) } }
  | none => { s with root := { s.root with arm := tabSet (fun _ => none) s.root.arm p.code (some s.root.ts) } }

/-- A completion of the device's own waits in a lane to be sent (R462, R464). -/
def cplWaits (s : State) : Bool :=
  (List.range 8).any (fun n => (laneOf s n).out.any (fun k => bitsOf (pktW k 0) 0 8 == 0x03 && bitsOf (pktW k 1) 8 8 == nodeId s))

/-- The response to the qualifying write on path `p` has been given (R569): the monitor's line has left U0_TXD, the Draught
completion has been sent. -/
def responseGiven (s : State) : Path → Bool
  | .mon => s.mon.line.isNone && s.mon.reply == 0
  | .dlnk => !cplWaits s
  | .hsp => true
  | .fab => true

/-- SYS_RESET_ASSERT (R569, R570). -/
def execSysResetAssert (s : State) : Out :=
  match s.root.resetReq with
  | some p => whenCan s (s.phase != .reset && responseGiven s p) (fullReset s 8)
  | none => .next s

/-- A violating write of SYS.RESET with a key other than 0xA55A disarms the path (R573). -/
def badKey (s : State) (p : Path) (a : Nat) (w : Option Word) (v : VKind) : State :=
  if a = R.SYS_RESET ∧ (v = .rsvdField ∨ v = .rsvdValue) ∧ (w.any (fun x => x.toNat % 2 ^ 16 != 0xA55A)) = true then disarm s p else s

/-! ### Performing one access -/

/-- FCMD where the command does not say whether the line has rested: an unstated value (log entry 2). -/
def quietOf (s : State) (quiet : Option Bool) : Bool × State :=
  match quiet with
  | some q => (q, s)
  | none => let (v, t) := s.free 2
            (v == 1, t)

/-- Registers of SYS and SURV that act at the root. -/
def rootWrite (s : State) (p : Path) (k : PageKind) (off : Nat) (w : Word) : Option WOut :=
  if k = .sys ∧ off = 0x044 then some (commitOp s w)
  else if k = .sys ∧ off = 0x060 then some (.done (resetKey s p))
  else if k = .surv ∧ off = 0x048 then some (overrideOp s w)
  else none

/-- A block whose unit has accepted a PREPARE takes a command that would straddle the unit's safe boundary and begins it
when the commit ends (R136; log entry 23). -/
def holdCmd (s : State) (p : Path) (a : Nat) (m : Word) : State :=
  { s with root := { s.root with held := s.root.held ++ [⟨p, a, m⟩] } }

/-- A held command begins; one that the block cannot perform now is recorded as a refusal. -/
def beginHeld (s : State) (h : HeldCmd) : State :=
  match pageOf (h.addr / 0x1000) with
  | some (k, i) =>
    match blockWrite s (some h.path) k i (h.addr % 0x1000) h.word true with
    | .done t => t
    | .wait t => t
    | .refuse c => recordRefusal s (h.addr / 0x1000) h.path h.addr true c
    | .refuseAs t c => recordRefusal t (h.addr / 0x1000) h.path h.addr true c
    | .bad _ => s
  | none => s

/-- Once no commit is in progress the held commands begin, oldest first, but for those of a block that is off. -/
def releaseHeld (s : State) : State :=
  if s.root.cPhase != .idle || s.root.held.isEmpty then s
  else s.root.held.foldl (fun t h => if pageOff t (h.addr / 0x1000) || !live t then t else beginHeld t h)
    { s with root := { s.root with held := [] } }

/-- What waited for the end of a commit goes on: held commands, and a pass of the self-test (R136, R516). -/
def afterCommit (s : State) : State := resumePass (releaseHeld s)

/-- COMMIT_UNIT_DECIDE (R134, R137, R140, R604). -/
def execCommitUnitDecide (us : List CUnit) (s : State) : Out := .next (afterCommit (unitDecideOp us s))

/-- COMMIT_PREPARE_TIMEOUT (R135). -/
def execCommitPrepareTimeout (s : State) : Out := .next (afterCommit (prepareTimeoutOp s))

/-- COMMIT_UNIT_APPLY (R138, R139, R604). -/
def execCommitUnitApply (us : List CUnit) (s : State) : Out := .next (afterCommit (unitApplyOp us s))

/-- COMMIT_APPLY_TIMEOUT (R122, R137, Table 4.6). -/
def execCommitApplyTimeout (u : CUnit) (s : State) : Out := .next (afterCommit (applyTimeoutOp u s))

/-- The block's answer to a write is for the commit's end where it starts what a prepared unit may not begin; a refusal is never
deferred (R121, R136). -/
def orHeld (s : State) (p : Path) (a : Nat) (m : Word) (o : WOut) : WOut :=
  match o with
  | .done t => if straddles s t then .done (holdCmd s p a m) else .done t
  | o => o

/-- A write that is no violation, on a page that is not wedged. -/
def performWrite (s : State) (p : Path) (page : Nat) (k : PageKind) (i a : Nat) (w : Word) (fs : List FieldRow)
    (quiet : Option Bool) : WOut :=
  let off := a % 0x1000
  if steepHolds s (some p) k i then .refuse 0x01
  else if off = 0x008 then pageCtrlWrite s page (mergeWord (s.reg a) w fs)
  else if off < 0x040 then .done (s.setReg a (mergeWord (s.reg a) w fs))
  else if fs.any (fun f => f.ty == .rws) then stagedWrite s page a (mergeWord (s.staged a) w fs)
  else match rootWrite s p k off w with
    | some o => o
    | none =>
      let m := mergeWord (s.reg a) w fs
      if k = .uart ∧ off = 0x058 ∧ quiet = none ∧ bitOf w.toNat 31 = true then
        let (q, t) := quietOf s none
        blockWrite t (some p) k i off m q
      else if k = .uart ∧ off = 0x058 then blockWrite s (some p) k i off m (quiet.getD true)
      else orHeld s p a m (blockWrite s (some p) k i off m true)

/-- A write to a device page: its effect and response (R113, R115, R116, R121, R122). -/
def devWrite (s : State) (p : Path) (a : Nat) (w : Word) (quiet : Option Bool) : State × Resp :=
  match devViolation s p a (some w) with
  | some v => (badKey (logViolation s p a true v) p a (some w) v, .violation v)
  | none =>
    if pageWedged s (a / 0x1000) then (s, .wedged)
    else match pageOf (a / 0x1000), regFields a with
      | some (k, i), some fs =>
        match performWrite s p (a / 0x1000) k i a w fs quiet with
        | .done t => (noteWrite t p a, .ok)
        | .wait t => (noteWrite t p a, .ok)
        | .refuse c => (recordRefusal s (a / 0x1000) p a true c, .refused)
        | .refuseAs t c => (recordRefusal t (a / 0x1000) p a true c, .refused)
        | .bad v => (logViolation s p a true v, .violation v)
      | _, _ => (s, .none)

/-- A read of a device page: its effect, response and data. -/
def devRead (s : State) (p : Path) (a flip : Nat) : State × Resp × Word :=
  match devViolation s p a none with
  | some v => (logViolation s p a false v, .violation v, 0)
  | none =>
    if pageWedged s (a / 0x1000) && !identity (a % 0x1000) then (s, .wedged, 0)
    else
      let (t, d) := readReg s p a flip
      (t, .ok, d)

/-- The access as the design gets it, with the requester's path and level (R105, R249). -/
def uwAccOf (s : State) (p : Path) (a : Nat) (w : Option Word) : UwAcc := ⟨p, a, w, effLevel s p⟩

/-- The design gets an access. -/
def handUw (s : State) (p : Path) (a : Nat) (w : Option Word) : State :=
  { s with fab := { s.fab with uwLast := some (uwAccOf s p a w) } }

/-- A user-window access that is answered within the command: by the design's answer, or by NOCLAIM (R250). -/
def uwAccess (s : State) (p : Path) (a : Nat) (w : Option Word) (ans : Option UwAns) : State × Resp × Word :=
  match uwViolation s p a w.isSome with
  | some v => (logViolation s p a w.isSome v, .violation v, 0)
  | none =>
    if uwFenced s then (recordRefusal s 0x000 p a w.isSome 0x83, .refused, 0)
    else match ans with
      | some (.claim d) => (handUw s p a w, .ok, if w.isSome then 0 else d)
      | _ => (logViolation (handUw s p a w) p a w.isSome .unimpl, .violation .unimpl, 0)

/-- The pulse that ends an access of the fabric master port (Table 7.3). -/
def mpPulse (r : Resp) (d : Word) : Option MpPulse :=
  match r with
  | .ok => some (.ack d)
  | .violation v => some (.err 1 v.code)
  | .refused => some (.err 2 0)
  | .wedged => some (.err 3 0)
  | .none => none
  | .halted => none

/-- Answer a path: response and data, and on the fabric path the pulse. -/
def answer (s : State) (p : Path) (r : Resp) (d : List Word) : State :=
  let s1 := respond s p r d
  if p = .fab then
    match mpPulse r (d.headD 0) with
    | some m => { s1 with fab := { s1.fab with mp := m } }
    | none => s1
  else s1

/-! ### Single accesses -/

/-- The fabric master port can take a request (R246 to R248). -/
def mpReady (s : State) : Bool :=
  let x := imgIsland s F.CFGC_IMG_INFO_MP_ISL
  decide (x < 48) && islandRuns s x && !fenced s x && !fencePrepared s x

/-- A path can issue an access: it has none outstanding (R112); the fabric path issues them through its port. -/
def canIssue (s : State) (p : Path) : Bool := !outstanding s p && (p != .fab || s.phase == .halt || s.phase == .reset || mpReady s)

/-- Forward an access to the design that decodes the user window; it stays outstanding (R249). -/
def forwardUw (s : State) (p : Path) (a : Nat) (w : Option Word) : State :=
  let t := handUw s p a w
  respond { t with fab := { t.fab with uw := t.fab.uw ++ [uwAccOf s p a w] } } p .none []

/-- A single access to the user window: a violation or refusal at once, or forwarded (R96, R105, R123, R249). -/
def uwSingle (s : State) (p : Path) (a : Nat) (w : Option Word) : State :=
  match uwViolation s p a w.isSome with
  | some v => answer (logViolation s p a w.isSome v) p (.violation v) []
  | none =>
    if uwFenced s then answer (recordRefusal s 0x000 p a w.isSome 0x83) p .refused []
    else forwardUw s p a w

/-- The answer to a path that is not served: HALTED on the HSP in a halt, else none (R124). -/
def unserved (s : State) (p : Path) : State := respond s p (if s.phase = .halt ∧ p = .hsp then .halted else .none) []

/-- A write of one word on a path, as a command of its own. -/
def hostWriteOp (s : State) (p : Path) (a : Nat) (w : Word) (quiet : Option Bool) : State :=
  if served s p then
    let s1 := enterSlot s p
    if inWindow a then uwSingle s1 p a (some w)
    else
      let (t, r) := devWrite s1 p a w quiet
      answer t p r []
  else unserved s p

/-- A read of one word on a path, as a command of its own. -/
def hostReadOp (s : State) (p : Path) (a flip : Nat) : State :=
  if served s p then
    let s1 := enterSlot s p
    if inWindow a then uwSingle s1 p a none
    else
      let (t, r, d) := devRead s1 p a flip
      answer t p r [d]
  else unserved s p

def hostWrite (p : Path) (a : Nat) (w : Word) (quiet : Option Bool) (s : State) : Out :=
  whenCan s (canIssue s p) (hostWriteOp s p a w quiet)
def hostRead (p : Path) (a flip : Nat) (s : State) : Out :=
  whenCan s (canIssue s p) (hostReadOp s p a flip)

/-- REGISTER_WRITE (R103, R113, R116). -/
def execRegisterWrite (p : Path) (a : Addr) (w : Word) (s : State) : Out := hostWrite p a.toNat w none s

/-- STAGE_EN_WRITE (R128, R143). -/
def execStageEnWrite (p : Path) (pg : BitVec 12) (w : Word) (s : State) : Out :=
  hostWrite p (4096 * pg.toNat + 8) w none s

/-- RWS_WRITE (R129, R130, R143). -/
def execRwsWrite (p : Path) (a : Addr) (w : Word) (s : State) : Out :=
  whenCan s (isRws a.toNat && canIssue s p) (hostWriteOp s p a.toNat w none)

/-- COMMIT (R132, R133, R135, R145). -/
def execCommit (p : Path) (w : Word) (s : State) : Out := hostWrite p R.SYS_COMMIT w none s

/-- SYS_RESET_WRITE (R568, R573). -/
def execSysResetWrite (p : Path) (w : Word) (s : State) : Out := hostWrite p R.SYS_RESET w none s

/-- TIMESTAMP_LATCH_READ (R127, R288, R322). -/
def execTimestampLatchRead (p : Path) (a : Addr) (s : State) : Out :=
  whenCan s ((countAt s a.toNat).isSome && canIssue s p) (hostReadOp s p a.toNat 0)

/-! ### Bursts -/

/-- Address after one word of a burst (R107). -/
def nextAddr (a : Nat) : Nat := (a + 4) % 2 ^ 24

/-- One word of a burst that is written; a user-window word takes the next answer. A word that waits for a gated island has no
response (R176). -/
def burstWord (s : State) (p : Path) (a : Nat) (w : Word) (ans : List UwAns) : State × Resp × List UwAns :=
  let s1 := enterSlot s p
  if uwStuck s1 p a true then (s1, .none, ans)
  else if inWindow a then
    let (t, r, _) := uwAccess s1 p a (some w) ans.head?
    (t, r, ans.drop 1)
  else
    let (t, r) := devWrite s1 p a w none
    (t, r, ans)

/-- A burst of writes: the state, the index of the first failing word and its response (R109). -/
def writeBurst (p : Path) : Nat → Nat → List Word → List UwAns → State → State × Nat × Resp
  | _, _, [], _, s => (s, 0, .ok)
  | n, a, w :: ws, ans, s =>
    let (t, r, rest) := burstWord s p a w ans
    if r = .ok then writeBurst p (n + 1) (nextAddr a) ws rest t else (t, n, r)

/-- One word of a burst that is read. -/
def burstRead (s : State) (p : Path) (a : Nat) (ans : List UwAns) : State × Resp × Word × List UwAns :=
  let s1 := enterSlot s p
  if uwStuck s1 p a false then (s1, .none, 0, ans)
  else if inWindow a then
    let (t, r, d) := uwAccess s1 p a none ans.head?
    (t, r, d, ans.drop 1)
  else
    let (t, r, d) := devRead s1 p a 0
    (t, r, d, ans)

/-- A burst of reads: the state, the data up to the first failing word, its index and response (R109). -/
def readBurst (p : Path) : Nat → Nat → Nat → List UwAns → State → List Word → State × List Word × Nat × Resp
  | 0, _, _, _, s, ds => (s, ds, 0, .ok)
  | k + 1, n, a, ans, s, ds =>
    let (t, r, d, rest) := burstRead s p a ans
    if r = .ok then readBurst p k (n + 1) (nextAddr a) rest t (ds ++ [d]) else (t, ds, n, r)

/-- A burst runs to its end now: no word of it, up to the first that fails, waits for a gated island (R109, R176). -/
def writeEnds (s : State) (p : Path) (a : Nat) (ws : List Word) (ans : List UwAns) : Bool :=
  !outstanding s p && (writeBurst p 0 a ws ans s).2.2 != .none
def readEnds (s : State) (p : Path) (a n : Nat) (ans : List UwAns) : Bool :=
  !outstanding s p && (readBurst p n 0 a ans s []).2.2.2 != .none

/-- Words padded with zeros to `n` (R109). -/
def padWords (n : Nat) (ds : List Word) : List Word := ds ++ List.replicate (n - ds.length) 0

/-! ### HSP transactions -/

/-- The status byte of a response (Table 4.4). -/
def statusByte (r : Resp) : Byte :=
  match r with
  | .ok => 0x80
  | .violation v => BitVec.ofNat 8 (0x90 + 2 * v.code)
  | .refused => 0xA0
  | .wedged => 0xB0
  | .halted => 0xC0
  | .none => 0x00

/-- The transaction ends with its status and index bytes (R108). -/
def hspEnd (s : State) (r : Resp) (n : Nat) (d : List Word) : State :=
  let s1 := respond s .hsp r d
  { s1 with root := { s1.root with hspStatus := some (statusByte r), hspIndex := BitVec.ofNat 8 n } }

/-- The transaction ends without status (R110, R111, R603). -/
def hspQuiet (s : State) : State :=
  let s1 := respond s .hsp .none []
  { s1 with root := { s1.root with hspStatus := none, hspIndex := 0 } }

/-- An HSP write transaction (R107 to R109, R124). -/
def hspWriteOp (s : State) (a : Nat) (ws : List Word) (ans : List UwAns) : State :=
  if s.phase = .reset then hspQuiet s
  else if s.phase = .halt then hspEnd s .halted 0 []
  else
    let (t, n, r) := writeBurst .hsp 0 a ws ans s
    hspEnd t r n []

/-- An HSP read transaction of `n` words. -/
def hspReadOp (s : State) (a n : Nat) (ans : List UwAns) : State :=
  if s.phase = .reset then hspQuiet s
  else if s.phase = .halt then hspEnd s .halted 0 (padWords n [])
  else
    let (t, ds, i, r) := readBurst .hsp n 0 a ans s []
    hspEnd t r i (padWords n ds)

/-- An HSP transaction can run to its end now; in a halt and in a reset no word of it is performed (R124). -/
def hspCanWrite (s : State) (a : Nat) (ws : List Word) (ans : List UwAns) : Bool := !served s .hsp || writeEnds s .hsp a ws ans
def hspCanRead (s : State) (a n : Nat) (ans : List UwAns) : Bool := !served s .hsp || readEnds s .hsp a n ans

/-- The write commands carry 1 to 32 words (R107). -/
def hspWriteCmd (a : Addr) (ws : List Word) (ans : List UwAns) (s : State) : Out :=
  whenCan s (decide (1 ≤ ws.length) && decide (ws.length ≤ 32) && hspCanWrite s a.toNat ws ans)
    (hspWriteOp s a.toNat ws ans)

def hspReadCmd (a : Addr) (l : Fin 32) (ans : List UwAns) (s : State) : Out :=
  whenCan s (hspCanRead s a.toNat (l.val + 1) ans) (hspReadOp s a.toNat (l.val + 1) ans)

/-- HSP_WRITE. -/
def execHspWrite (a : Addr) (ws : List Word) (ans : List UwAns) (s : State) : Out := hspWriteCmd a ws ans s
/-- HSP_READ. -/
def execHspRead (a : Addr) (l : Fin 32) (ans : List UwAns) (s : State) : Out := hspReadCmd a l ans s
/-- HSP_WRITE4. -/
def execHspWrite4 (a : Addr) (ws : List Word) (ans : List UwAns) (s : State) : Out := hspWriteCmd a ws ans s
/-- HSP_READ4. -/
def execHspRead4 (a : Addr) (l : Fin 32) (ans : List UwAns) (s : State) : Out := hspReadCmd a l ans s

/-- HSP_UNDEFINED_COMMAND (R111): counted, also in a halt; no status. -/
def execHspUndefinedCommand (c : Byte) (s : State) : Out :=
  whenCan s (!([0x02, 0x03, 0x32, 0xEB].contains c.toNat))
    (hspQuiet (if s.phase = .reset then s else s.satF R.SYS_HSP_ERRCNT F.SYS_HSP_ERRCNT_COUNT 1))

/-- HSP_CS_EARLY_RISE (R110): the words performed stand; no status is given. An access that waits at the design stays there,
and its transaction has ended (`ws` empty, `n` zero). -/
def execHspCsEarlyRise (a : Addr) (ws : Option (List Word)) (n : Fin 33) (ans : List UwAns) (s : State) : Out :=
  let t :=
    if served s .hsp then
      match ws with
      | some l => (writeBurst .hsp 0 a.toNat l ans s).1
      | none => (readBurst .hsp n 0 a.toNat ans s []).1
    else s
  let can := match ws with
    | some l => decide (l.length ≤ 32) && (l.isEmpty || hspCanWrite s a.toNat l ans)
    | none => n.val == 0 || hspCanRead s a.toNat n ans
  whenCan s can (hspQuiet t)

/-! ### The fabric master port and the user window -/

/-- FABRIC_MASTER_REQUEST (R124, R246 to R248): a request that the port does not accept is ignored. -/
def execFabricMasterRequest (a : BitVec 22) (w : Option Word) (s : State) : Out :=
  .next (if mpReady s then
    match w with
    | some v => hostWriteOp s .fab (4 * a.toNat) v none
    | none => hostReadOp s .fab (4 * a.toNat) 0
  else s)

/-- USER_WINDOW_ACCESS (R96, R105, R123, R249). -/
def execUserWindowAccess (p : Path) (a : Addr) (w : Option Word) (s : State) : Out :=
  whenCan s (inWindow a.toNat && canIssue s p)
    (match w with
      | some v => hostWriteOp s p a.toNat v none
      | none => hostReadOp s p a.toNat 0)

/-- The design decides the oldest forwarded access (R250): CLAIM, or NOCLAIM, which is an UNIMPL violation. -/
def uwAnswered (s : State) (u : UwAcc) (rest : List UwAcc) (ans : UwAns) : State :=
  let s1 := { s with fab := { s.fab with uw := rest } }
  match ans with
  | .claim d => answer s1 u.path .ok (if u.wdata.isSome then [] else [d])
  | .noclaim => answer (logViolation s1 u.path u.addr u.wdata.isSome .unimpl) u.path (.violation .unimpl) []

/-- USER_WINDOW_ANSWER (R250). -/
def execUserWindowAnswer (ans : UwAns) (s : State) : Out :=
  match s.fab.uw with
  | u :: rest => whenCan s (islandRuns s (uwIsland s)) (uwAnswered s u rest ans)
  | [] => .next s

/-- USER_WINDOW_TIMEOUT (R176, R250): 4,096 island cycles without an answer. -/
def execUserWindowTimeout (s : State) : Out :=
  match s.fab.uw with
  | u :: rest => whenCan s (islandRuns s (uwIsland s)) (uwAnswered s u rest .noclaim)
  | [] => .next s

/-! ### Draught requests -/

/-- STATUS and KIND of a completion (Table 15.6). -/
def cplStatus (r : Resp) : Nat × Nat :=
  match r with
  | .ok => (0, 0)
  | .violation v => (1, v.code)
  | .refused => (2, 0)
  | .wedged => (3, 0)
  | .halted => (0, 0)
  | .none => (0, 0)

/-- The oldest request, an RD or WR, is performed and answered (R464, R465). -/
def requestPerform (s : State) (q : DrReq) (rest : List DrReq) (ans : List UwAns) : State :=
  let s1 := { s with dl := { s.dl with rq := rest } }
  if q.ty = 0x01 then
    let n := q.arg % 32 + 1
    let (t, ds, i, r) := readBurst .dlnk n 0 q.addr ans s1 []
    let t1 := respond t .dlnk r (padWords n ds)
    sendCpl t1 q.lane q.src q.tag q.addr (cplStatus r).1 (cplStatus r).2 i ((padWords n ds).map BitVec.toNat)
  else
    let (t, i, r) := writeBurst .dlnk 0 q.addr (q.pay.map (BitVec.ofNat 32)) ans s1
    sendCpl (respond t .dlnk r []) q.lane q.src q.tag q.addr (cplStatus r).1 (cplStatus r).2 i []

/-- DRAUGHT_REQUEST_PERFORM (R464, R465). -/
def execDraughtRequestPerform (ans : List UwAns) (s : State) : Out :=
  match s.dl.rq with
  | q :: rest =>
    let s1 := { s with dl := { s.dl with rq := rest } }
    let ends := if q.ty = 0x01 then readEnds s1 .dlnk q.addr (q.arg % 32 + 1) ans
      else writeEnds s1 .dlnk q.addr (q.pay.map (BitVec.ofNat 32)) ans
    whenCan s (live s && (q.ty == 0x01 || q.ty == 0x02) && ends)
      (requestPerform s q rest ans)
  | [] => .next s

end Sys2Proof.Machine
end

