-- ==== Sys2Proof/Machine/Monitor.lean ====
section
/-! DEFINITION. The Steup monitor (R531 to R537, R546, R547, R550): lines, replies and the commands of Table 18.1. -/

namespace Sys2Proof.Machine

/-! ### Text -/

/-- The ASCII codes of characters. -/
def ascii (cs : List Char) : List Byte := cs.map (fun c => BitVec.ofNat 8 c.toNat)

/-- The tokens of a line: runs of characters other than spaces (R532). -/
def tokensAux : List Byte → List Byte → List (List Byte)
  | [], cur => if cur.isEmpty then [] else [cur]
  | c :: r, cur =>
    if c = 0x20 then (if cur.isEmpty then tokensAux r [] else cur :: tokensAux r [])
    else tokensAux r (cur ++ [c])
def tokens (l : List Byte) : List (List Byte) := tokensAux l []

/-- Value of a hexadecimal digit, of either case. -/
def hexVal (c : Byte) : Option Nat :=
  let n := c.toNat
  if 0x30 ≤ n ∧ n ≤ 0x39 then some (n - 0x30)
  else if 0x61 ≤ n ∧ n ≤ 0x66 then some (n - 0x57)
  else if 0x41 ≤ n ∧ n ≤ 0x46 then some (n - 0x37)
  else none

def hexDigits : List Byte → Nat → Option Nat
  | [], v => some v
  | c :: r, v => match hexVal c with
    | some d => hexDigits r (16 * v + d)
    | none => none

/-- A number (R532): hexadecimal, an optional 0x prefix, underscores ignored. -/
def hexNum (t : List Byte) : Option Nat :=
  let d := t.filter (· != 0x5F)
  let e := if d.take 2 = ascii ['0', 'x'] then d.drop 2 else d
  if e.isEmpty then none else hexDigits e 0

/-- A number below `2^w`. -/
def hexBelow (w : Nat) (t : List Byte) : Option Nat :=
  match hexNum t with
  | some v => if v < 2 ^ w then some v else none
  | none => none

/-- The digit of a value below 16, lowercase. -/
def hexChar (d : Nat) : Byte := BitVec.ofNat 8 (if d < 10 then 0x30 + d else 0x57 + d)

/-- `n` hexadecimal digits of a value. -/
def hexStr (n v : Nat) : List Byte := (List.range n).reverse.map (fun i => hexChar (bitsOf v (4 * i) 4))

/-- A data value (R533). -/
def dataStr (v : Nat) : List Byte := hexStr 4 (bitsOf v 16 16) ++ [0x5F#8] ++ hexStr 4 (bitsOf v 0 16)

def crlf : List Byte := [0x0D#8, 0x0A#8]

/-- Eight groups of eight digits (R542): group k carries bytes 4k to 4k + 3 in order. -/
def groupsStr (bs : List Byte) : List Byte :=
  ((List.range 8).map (fun k => [0x20#8] ++ hexStr 8 (beNat ((bs.drop (4 * k)).take 4)))).flatten

/-- The value of a group of eight hexadecimal digits (R542). -/
def groupVal (t : List Byte) : Option Nat := if t.length = 8 then hexDigits t 0 else none

/-- The 32 bytes of eight groups; none where the tokens are not eight groups of eight digits. -/
def groupsOf : List (List Byte) → Nat → Option (List Byte)
  | [], 0 => some []
  | t :: ts, n + 1 => match groupVal t, groupsOf ts n with
    | some v, some r => some (natBE 4 v ++ r)
    | _, _ => none
  | _, _ => none

/-! ### Replies (R533, Table 18.2) -/

def okLine : List Byte := ascii ['o', 'k']

/-- `err` and two decimal digits. -/
def errLine (n : Nat) : List Byte := ascii ['e', 'r', 'r', ' '] ++ [hexChar (n / 10), hexChar (n % 10)]

/-- Output begins to leave U0_TXD in `s`, where none was left in `old` (R482). -/
def outBegins (old s : State) : State :=
  if old.mon.out.isEmpty then setUart s 0 { uartOf s 0 with age := clkFrom s 0 0 } else s

/-- The command being performed is over: its data lines and its status line go out, each ended by CR LF. -/
def monReply (s : State) (lines : List (List Byte)) : State :=
  let text := (lines.map (· ++ crlf)).flatten
  let o := s.mon.out ++ text
  outBegins s { s with mon := { s.mon with line := none, out := o, reply := o.length } }

/-- Status of a result of Table 18.4. -/
def resultLine (r : Nat) : List Byte :=
  match r with
  | 1 => okLine
  | 2 => errLine 40
  | 3 => errLine 41
  | 4 => errLine 42
  | _ => errLine 2

/-- Status after the response to a register access at `a` (R536). -/
def accessLine (s : State) (a : Nat) (r : Resp) : List Byte :=
  match r with
  | .violation v => errLine (10 + v.code)
  | .refused => errLine 20 ++ [0x20#8] ++
      hexStr 2 (bitsOf (s.regN (R.PAGE_ERR_CODE (if inWindow a then 0 else a / 0x1000))) 0 8)
  | .wedged => errLine 30
  | _ => okLine

/-! ### Lines -/

/-- MON_CHARACTER_RECEIVED (R531, R532, R534, R535): a character arrives on UART0; before Steep it is discarded. -/
def monReceive (s : State) (c : Byte) : State :=
  let m := s.mon
  let e := if c = 0x0A ∧ m.ecr = true then [] else if c = 0x0D ∨ c = 0x0A then crlf else [c]
  let m1 := { m with ecr := c == 0x0D, out := m.out ++ (if s.flag R.MON_CFG F.MON_CFG_ECHO then e else []) }
  let busy := m.line.isSome || m.reply != 0
  let m2 :=
    if !busy then monTake m1 c false false
    else { m1 with store := m.store ++ [(c, decide (256 ≤ monStored m))] }
  baudSync (outBegins s { s with mon := m2 })

/-- MON_CHARACTER_RECEIVED: the monitor takes the oldest character that the receiver of UART0 has decided. -/
def execMonCharacterReceived (c : Byte) (s : State) : Out :=
  whenCan s (s.phase != .reset && s.mon.got.head? == some c)
    (monReceive { s with mon := { s.mon with got := s.mon.got.drop 1 } } c)

/-- The command words of Table 18.1. -/
inductive MonWord where
  | id | stat | rd | wr | unlock | chal | resp | lock | reset | otp
  deriving DecidableEq, Repr

def monWords : List (List Char × MonWord) :=
  [(['i', 'd'], .id), (['s', 't', 'a', 't'], .stat), (['r', 'd'], .rd), (['w', 'r'], .wr),
   (['u', 'n', 'l', 'o', 'c', 'k'], .unlock), (['c', 'h', 'a', 'l'], .chal), (['r', 'e', 's', 'p'], .resp),
   (['l', 'o', 'c', 'k'], .lock), (['r', 'e', 's', 'e', 't'], .reset), (['o', 't', 'p'], .otp)]

/-- The command word that a token is. -/
def monWord (t : List Byte) : Option MonWord := (firstWhere (fun e => ascii e.1 == t) monWords).map Prod.snd

/-- The command of the line being performed and its arguments; none: no line, an undefined word, or a line to be answered
err 03. -/
def monCmd (s : State) : Option (MonWord × List (List Byte)) :=
  match s.mon.line with
  | some (l, false) => match tokens l with
    | t :: ts => (monWord t).map (fun w => (w, ts))
    | [] => none
  | _ => none

/-- Statuses that precede the command itself: not available in a halt (R550), above the level of the path (R537). -/
def monBarred (s : State) (w : MonWord) : Option Nat :=
  if s.phase = .halt ∧ (w = .chal ∨ w = .resp ∨ w = .otp) then some 43
  else if (w = .reset ∨ w = .otp) ∧ effLevel s .mon < 2 then some 4
  else none

/-- A command with word `w` whose arguments `mine` takes: its line is performed by `f`, which answers the state and the
reply, unless it is barred. -/
def monStep (w : MonWord) (mine : List (List Byte) → Bool)
    (f : List (List Byte) → State → State × List (List Byte)) (s : State) : Out :=
  match monCmd s with
  | some (v, ts) =>
    whenCan s (s.phase != .reset && v == w && mine ts)
      (match monBarred s w with
        | some e => monReply s [errLine e]
        | none => monReply (f ts s).1 (f ts s).2)
  | none => .next s

/-! ### The commands -/

/-- MON_ID: the part of the model is a B0 (log entry 1). -/
def monId (ts : List (List Byte)) (s : State) : State × List (List Byte) :=
  (s, if ts.isEmpty then [ascii ['J', 'X', 'A', '-', '6', '7', '6', ' ', if Config.stepping = 1 then 'B' else 'A', '0'], okLine]
    else [errLine 2])

def execMonId (s : State) : Out := monStep .id (fun _ => true) monId s

/-- A number with a space before it. -/
def numStr (n : Nat) : List Byte := [0x20#8, hexChar (n % 10)]

/-- MON_STAT: PHASE and STEP, path levels, failure counts. -/
def monStat (ts : List (List Byte)) (s : State) : State × List (List Byte) :=
  let ph := survPhaseWord s
  let l (p : Path) : List Byte := numStr (levelOf s p)
  (s, if ts.isEmpty then
    [ascii ['p', 'h', 'a', 's', 'e'] ++ numStr (bitsOf ph 0 3) ++ ascii [' ', 's', 't', 'e', 'p'] ++ numStr (bitsOf ph 4 3) ++
      ascii [' ', 'l', 'e', 'v', 'e', 'l'] ++ l .mon ++ l .hsp ++ l .dlnk ++ l .fab ++
      ascii [' ', 'f', 'a', 'i', 'l', 's'] ++ numStr (failsOf s .mon) ++ numStr (failsOf s .hsp) ++ numStr (failsOf s .dlnk),
     okLine]
    else [errLine 2])

def execMonStat (s : State) : Out := monStep .stat (fun _ => true) monStat s

/-- Address and count of an `rd`. -/
def rdArgs (ts : List (List Byte)) : Option (Nat × Nat) :=
  match ts with
  | [a] => (hexBelow 24 a).map (fun v => (v, 1))
  | [a, n] => match hexBelow 24 a, hexNum n with
    | some v, some k => if 1 ≤ k ∧ k ≤ 16 then some (v, k) else none
    | _, _ => none
  | _ => none

/-- MON_RD (R536). -/
def monRd (ans : List UwAns) (ts : List (List Byte)) (s : State) : State × List (List Byte) :=
  match rdArgs ts with
  | none => (s, [errLine 2])
  | some (a, n) =>
    let (t, ds, i, r) := readBurst .mon n 0 a ans s []
    let lines := (List.range ds.length).map (fun j =>
      dataStr ((a + 4 * j) % 2 ^ 24) ++ [0x20#8] ++ dataStr (atD 0 ds j).toNat)
    (respond t .mon r ds, lines ++ [accessLine t ((a + 4 * i) % 2 ^ 24) r])

/-- No word of the `rd` or `wr` being performed waits for a gated island, and the path has no access outstanding. -/
def monFree (s : State) (ends : List (List Byte) → Bool) : Bool :=
  match monCmd s with
  | some (_, ts) => ends ts
  | none => true

def execMonRd (ans : List UwAns) (s : State) : Out :=
  if monFree s (fun ts => (rdArgs ts).all (fun e => readEnds s .mon e.1 e.2 ans)) then
    monStep .rd (fun _ => true) (monRd ans) s
  else .next s

/-- Address and value of a `wr`. -/
def wrArgs (ts : List (List Byte)) : Option (Nat × Nat) :=
  match ts with
  | [a, v] => match hexBelow 24 a, hexBelow 32 v with
    | some b, some w => some (b, w)
    | _, _ => none
  | _ => none

/-- MON_WR (R536). -/
def monWr (ans : Option UwAns) (ts : List (List Byte)) (s : State) : State × List (List Byte) :=
  match wrArgs ts with
  | none => (s, [errLine 2])
  | some (a, v) =>
    let (t, _, r) := writeBurst .mon 0 a [BitVec.ofNat 32 v] ans.toList s
    (respond t .mon r [], [accessLine t a r])

def execMonWr (ans : Option UwAns) (s : State) : Out :=
  if monFree s (fun ts => (wrArgs ts).all (fun e => writeEnds s .mon e.1 [BitVec.ofNat 32 e.2] ans.toList)) then
    monStep .wr (fun _ => true) (monWr ans) s
  else .next s

/-! ### Accesses that do not complete (R122) -/

/-- An access that can be left hanging: it is no violation, and its page is not wedged yet. -/
def canHang (s : State) (p : Path) (a : Nat) (w : Option Word) : Bool :=
  !inWindow a && (devViolation s p a w).isNone && !pageWedged s (a / 0x1000)

/-- The access enters its slot, and its page is wedged (R122). -/
def hangWord (s : State) (p : Path) (a : Nat) : State := wedgePage (enterSlot s p) (a / 0x1000)

/-- Word `n` of an HSP write of which the words before have been performed. -/
def hangHspWrite (a : Nat) (ws : List Word) (w : Word) (ans : List UwAns) (s : State) : State :=
  let (t, _, r) := writeBurst .hsp 0 a ws ans s
  let b := (a + 4 * ws.length) % 2 ^ 24
  if r == .ok && decide (ws.length < 32) && canHang t .hsp b (some w) then hspEnd (hangWord t .hsp b) .wedged ws.length [] else s

/-- Word `n` of an HSP read of `len` words. -/
def hangHspRead (a len n : Nat) (ans : List UwAns) (s : State) : State :=
  let (t, ds, _, r) := readBurst .hsp n 0 a ans s []
  let b := (a + 4 * n) % 2 ^ 24
  if r == .ok && decide (n < len) && canHang t .hsp b none then hspEnd (hangWord t .hsp b) .wedged n (padWords len ds) else s

/-- Word `n` of the oldest Draught request, an RD or a WR: its completion says WEDGED (Table 15.6). -/
def hangDraught (n : Nat) (ans : List UwAns) (s : State) : State :=
  match s.dl.rq with
  | q :: rest =>
    let s1 := { s with dl := { s.dl with rq := rest } }
    let b := (q.addr + 4 * n) % 2 ^ 24
    let len := q.arg % 32 + 1
    if q.ty = 0x01 then
      let (t, ds, _, r) := readBurst .dlnk n 0 q.addr ans s1 []
      let u := respond (hangWord t .dlnk b) .dlnk .wedged (padWords len ds)
      if r == .ok && decide (n < len) && canHang t .dlnk b none then
        sendCpl u q.lane q.src q.tag q.addr 3 0 n ((padWords len ds).map BitVec.toNat)
      else s
    else if q.ty = 0x02 then
      let (t, _, r) := writeBurst .dlnk 0 q.addr ((q.pay.take n).map (BitVec.ofNat 32)) ans s1
      if r == .ok && decide (n < q.pay.length) && canHang t .dlnk b (some (BitVec.ofNat 32 (atD 0 q.pay n))) then
        sendCpl (respond (hangWord t .dlnk b) .dlnk .wedged []) q.lane q.src q.tag q.addr 3 0 n []
      else s
    else s
  | [] => s

/-- Word `n` of the `rd` or `wr` line being performed: the reply ends with the status of a wedged response (Table 18.2). -/
def hangMonitor (n : Nat) (ans : List UwAns) (s : State) : State :=
  match monCmd s with
  | some (.rd, ts) => match rdArgs ts with
    | some (a, len) =>
      let (t, ds, _, r) := readBurst .mon n 0 a ans s []
      let b := (a + 4 * n) % 2 ^ 24
      let lines := (List.range ds.length).map (fun j => dataStr ((a + 4 * j) % 2 ^ 24) ++ [0x20#8] ++ dataStr (atD 0 ds j).toNat)
      if r == .ok && decide (n < len) && canHang t .mon b none then
        monReply (respond (hangWord t .mon b) .mon .wedged ds) (lines ++ [errLine 30])
      else s
    | none => s
  | some (.wr, ts) => match wrArgs ts with
    | some (a, v) =>
      if n == 0 && canHang s .mon a (some (BitVec.ofNat 32 v)) then
        monReply (respond (hangWord s .mon a) .mon .wedged []) [errLine 30]
      else s
    | none => s
  | _ => s

/-- A single access on path `p`. -/
def hangOne (p : Path) (a : Nat) (w : Option Word) (s : State) : State :=
  if canHang s p a w then
    (if p = .hsp then hspEnd (hangWord s p a) .wedged 0 [] else answer (hangWord s p a) p .wedged [])
  else s

/-- The path of an access that does not complete. -/
def hungPath : Hung → Path
  | .one p _ _ => p
  | .hspWrite _ _ _ _ => .hsp
  | .hspRead _ _ _ _ => .hsp
  | .draught _ _ => .dlnk
  | .monitor _ _ => .mon

/-- ACCESS_WEDGE_TIMEOUT (R122): an access that is no violation does not complete within 2^20 cycles of its destination
clock. Its page is wedged, and its path gets the wedged response in its own form. A halt wedges no page (R560). -/
def execAccessWedgeTimeout (h : Hung) (s : State) : Out :=
  whenCan s (live s && served s (hungPath h) && canIssue s (hungPath h))
    (match h with
      | .one p a w => hangOne p a.toNat w s
      | .hspWrite a ws w ans => hangHspWrite a.toNat ws w ans s
      | .hspRead a l n ans => hangHspRead a.toNat (l.val + 1) n ans s
      | .draught n ans => hangDraught n ans s
      | .monitor n ans => hangMonitor n ans s)

def tokPw : List Byte := ascii ['p', 'w']
def tokKey : List Byte := ascii ['k', 'e', 'y']

/-- MON_UNLOCK_PW (R538, R539, R543, R544); another word after `unlock` is a wrong argument. -/
def monUnlockPw (ts : List (List Byte)) (s : State) : State × List (List Byte) :=
  let go (pw : List Byte) : State × List (List Byte) :=
    let (r, t) := unlockPw s .mon pw
    (t, [resultLine r])
  match ts with
  | [w] => if w = tokPw then go [] else (s, [errLine 2])
  | [w, p] => if w = tokPw then go p else (s, [errLine 2])
  | _ => (s, [errLine 2])

def execMonUnlockPw (s : State) : Out := monStep .unlock (fun _ => true) monUnlockPw s

/-- MON_CHAL (R540, R542). -/
def monChal (ts : List (List Byte)) (s : State) : State × List (List Byte) :=
  if ts.isEmpty then
    let (r, t) := unlockChal s .mon
    (t, if r = 1 then [ascii ['c', 'h', 'a', 'l'] ++ groupsStr ((chalOf t .mon).getD []), okLine] else [resultLine r])
  else (s, [errLine 2])

def execMonChal (s : State) : Out := monStep .chal (fun _ => true) monChal s

/-- MON_RESP (R541 to R544). -/
def monResp (ts : List (List Byte)) (s : State) : State × List (List Byte) :=
  match groupsOf ts 8 with
  | none => (s, [errLine 2])
  | some r =>
    let (k, t) := unlockResp s .mon r
    (t, [resultLine k])

def execMonResp (s : State) : Out := monStep .resp (fun _ => true) monResp s

/-- MON_LOCK (R545). -/
def monLock (ts : List (List Byte)) (s : State) : State × List (List Byte) :=
  match ts with
  | [t] => match hexBelow 1 t with
    | some l => ((unlockLock s .mon l).2, [okLine])
    | none => (s, [errLine 2])
  | _ => (s, [errLine 2])

def execMonLock (s : State) : Out := monStep .lock (fun _ => true) monLock s

/-- MON_RESET (R537, Table 18.1): the full reset follows the `ok` line. -/
def monReset (ts : List (List Byte)) (s : State) : State × List (List Byte) :=
  if ts.isEmpty then ({ s with mon := { s.mon with resetReq := true } }, [okLine]) else (s, [errLine 2])

def execMonReset (s : State) : Out := monStep .reset (fun _ => true) monReset s

/-- MON_RESET_ASSERT (R570, Table 3.1): the `ok` line has left U0_TXD. -/
def execMonResetAssert (s : State) : Out :=
  whenCan s (s.mon.resetReq && s.mon.reply == 0 && s.mon.line.isNone && s.phase != .reset) (fullReset s 16)

/-- Printable characters without spaces (R538). -/
def printable (p : List Byte) : Bool := p.all (fun c => decide (0x21 ≤ c.toNat) && decide (c.toNat ≤ 0x7E))

/-- MON_OTP_PW (R547). -/
def monOtpPw (ts : List (List Byte)) (s : State) : State × List (List Byte) :=
  match ts with
  | [_, p] =>
    if p.length < 8 ∨ 32 < p.length ∨ printable p = false then (s, [errLine 2])
    else if s.mon.pwh.isSome then (s, [errLine 44])
    else ({ s with mon := { s.mon with pwh := some (sha256 p) } }, [okLine])
  | _ => (s, [errLine 2])

/-- The first argument is `key`. -/
def isKeyCmd (ts : List (List Byte)) : Bool := ts.head? == some tokKey

/-- The `otp` commands but `otp key`; with an argument other than `pw` they are wrong. -/
def execMonOtpPw (s : State) : Out :=
  monStep .otp (fun ts => !isKeyCmd ts)
    (fun ts t => if ts.head? = some tokPw then monOtpPw ts t else (t, [errLine 2])) s

/-- MON_OTP_KEY (R547). -/
def monOtpKey (ts : List (List Byte)) (s : State) : State × List (List Byte) :=
  match groupsOf (ts.drop 1) 8 with
  | none => (s, [errLine 2])
  | some k =>
    if s.mon.key.isSome then (s, [errLine 44])
    else ({ s with mon := { s.mon with key := some k } }, [okLine])

def execMonOtpKey (s : State) : Out := monStep .otp isKeyCmd monOtpKey s

/-- MON_UNDEFINED_COMMAND (R533, R534, Table 18.2): the line's first word is no command word, or the line is too long or
has lost characters. -/
def execMonUndefinedCommand (s : State) : Out :=
  whenCan s (s.phase != .reset && s.mon.line.isSome && (monCmd s).isNone)
    (monReply s [errLine (if s.mon.line.any Prod.snd then 3 else 1)])

/-- MON_IDLE_TIMEOUT (R546): IDLE_MIN minutes have passed without a received line. -/
def execMonIdleTimeout (s : State) : Out :=
  whenCan s (s.phase != .reset && s.getF R.MON_CFG F.MON_CFG_IDLE_MIN != 0) (setLevel s .mon 0)

end Sys2Proof.Machine
end

