-- ==== Sys2Proof/Machine/Tap.lean ====
section
/-! DEFINITION. The boundary-scan test access port (R551 to R554) and the IRQ_N balls (R566). What a held boundary cell
does to a nib's pad stands in Nibs.lean (`tapDrive`). -/

namespace Sys2Proof.Machine

/-- The instruction register loads `ir` and the data register that it selects captures `d`. -/
def tapTake (s : State) (ir : Nat) (d : List Bool) : State := { s with tap := { s.tap with ir := ir, dr := d } }

/-- The lowest `n` bits of a number, bit 0 first. -/
def bitList (n w : Nat) : List Bool := (List.range n).map (bitOf w)

/-- The identification code (R552): the stepping in bits 31:28. -/
def idcode : Nat := Config.stepping * 2 ^ 28 + 0x006765CB

/-- TAP_RESET (R551): Test-Logic-Reset selects IDCODE. -/
def execTapReset (s : State) : Out := .next (tapTake s Config.irIdcode (bitList 32 idcode))

/-- TAP_BYPASS (R551): BYPASS, or any undefined code; the bypass register captures 0. -/
def execTapBypass (code : BitVec 6) (s : State) : Out := whenCan s (tapIns code.toNat == .bypass) (tapTake s code.toNat [false])

/-- TAP_IDCODE (R552). -/
def execTapIdcode (s : State) : Out := .next (tapTake s Config.irIdcode (bitList 32 idcode))

/-! ### The boundary register (R553)

Cells, in the model's order (log entry 98): 0 to 335 the nibs, 336 RST_N, 337 HALT, 338 to 341 IRQ_N0 to IRQ_N3, 342 U0_TXD,
343 U0_RXD, 344 SYNC_IN, 345 to 350 HSP_SCK, HSP_CS_N and HSP_IO0 to HSP_IO3, 351 to 356 the configuration flash, 357 to 444
DDR4, both in the order of Table 2.1. -/

/-- Cells of balls that are inputs: RST_N, U0_RXD, SYNC_IN, HSP_SCK, HSP_CS_N, DDR_ALERT_N. -/
def inputCells : List Nat := [336, 343, 344, 345, 346, 435]

/-- What the device itself drives the ball of a cell from 336 on to; none where it drives it only as a command says. -/
def ownBall (s : State) (c : Nat) : Option Bool :=
  if c = 336 then some s.pwr.rstN
  else if c = 337 then some s.nib.haltBall
  else if 338 ≤ c ∧ c < 342 then some (!s.flag R.IRQ_BALL_STAT ⟨c - 338, 1⟩)
  else if c = 342 then some (utxd s 0)
  else none

/-- Level of the ball of a cell from 336 on; `others`: the levels, from cell 336 on, of the balls that nothing in the device
drives. -/
def ballLevel (s : State) (others : BitVec 109) (c : Nat) : Bool :=
  ((if inputCells.contains c then ownBall s c else tapDrive s c (ownBall s c))).getD (others.getLsbD (c - 336))

/-- Levels of all balls with a cell (R553). -/
def ballLevels (s : State) (others : BitVec 109) : List Bool :=
  (List.range 336).map (fun n => compareAt s n (tabGet (fun _ => false) s.nib.cmp n)) ++
    (List.range 109).map (fun i => ballLevel s others (336 + i))

/-- TAP_SAMPLE_PRELOAD (R553): ball levels are captured; the boundary register takes the shifted-in values. No pad changes. -/
def execTapSamplePreload (others : BitVec 109) (preload : BitVec 445) (s : State) : Out :=
  .next { s with tap := ⟨Config.irSample, ballLevels s others, bitList 445 preload.toNat⟩ }

/-- EXTEST, CLAMP and HIGHZ are loaded; they take effect only while RST_N is held low and at any other time act as BYPASS
(R554). -/
def tapControl (s : State) (ir : Nat) (d : List Bool) : State := tapTake s ir (if s.pwr.rstN then [false] else d)

/-- TAP_EXTEST (R553, R554): EXTEST selects the boundary register. -/
def execTapExtest (others : BitVec 109) (s : State) : Out :=
  let t := tapControl s Config.irExtest []
  .next (tapControl s Config.irExtest (ballLevels t others))

/-- TAP_CLAMP (R554): CLAMP selects the bypass register. -/
def execTapClamp (s : State) : Out := .next (tapControl s Config.irClamp [false])

/-- TAP_HIGHZ (R554): HIGHZ selects the bypass register. -/
def execTapHighz (s : State) : Out := .next (tapControl s Config.irHighz [false])

/-- IRQ_BALL_UPDATE (R566, R567): within 3 oscillator cycles ball `i` follows its routed sources; a full reset has released
the balls. -/
def execIrqBallUpdate (i : Fin 4) (s : State) : Out :=
  .next (if s.phase = .reset then s else s.setF R.IRQ_BALL_STAT ⟨i, 1⟩ (b2n (ballWanted s i)))

end Sys2Proof.Machine
end

