-- ==== Sys2Proof/Machine/HostRows.lean ====
section
/-! DEFINITION. The commands that are a write or a read of one named register by a requester. Each is the access of
Bus.lean at the register's address, with every check of an access; a row that names a command bit or code of its
register writes the word with that bit set, or that code in place, whatever the operand holds there. -/

namespace Sys2Proof.Machine

/-- The word with a field replaced. -/
def withField (w : Word) (f : Fld) (v : Nat) : Word := BitVec.ofNat 32 (withBits w.toNat f.lo f.w v)

/-- SURVEY_OVERRIDE (R88). -/
def execSurveyOverride (p : Path) (w : Word) (s : State) : Out := hostWrite p R.SURV_OVERRIDE w none s

/-! ### Clocks -/

/-- Address of REFr_CTRL, REFr_EXP or REFr_TOL. -/
def refConfigReg (r : Fin 4) (reg : Fin 3) : Nat := R.CLK_REF_CTRL r + 4 * reg

/-- REF_CONFIG_WRITE (R605). -/
def execRefConfigWrite (p : Path) (r : Fin 4) (reg : Fin 3) (w : Word) (s : State) : Out :=
  hostWrite p (refConfigReg r reg) w none s

/-- Address of PLLk_CTRL, DIV, OUTDIV or LOCK. -/
def pllConfigReg (k : Fin 4) (reg : Fin 4) : Nat := R.CLK_PLL_CTRL k + 4 * reg

/-- PLL_CONFIG_WRITE (R156). -/
def execPllConfigWrite (p : Path) (k : Fin 4) (reg : Fin 4) (w : Word) (s : State) : Out :=
  hostWrite p (pllConfigReg k reg) w none s

/-- PLL_REFSEL_WRITE (R606). -/
def execPllRefselWrite (p : Path) (k : Fin 4) (w : Word) (s : State) : Out :=
  hostWrite p (R.CLK_PLL_REFSEL k) w none s

/-- SYNC_ARM (R163). -/
def execSyncArm (p : Path) (w : Word) (s : State) : Out :=
  hostWrite p R.CLK_SYNC_CMD (withField w F.CLK_SYNC_CMD_ARM 1) none s

/-- SYNC_DISARM (R163). -/
def execSyncDisarm (p : Path) (w : Word) (s : State) : Out :=
  hostWrite p R.CLK_SYNC_CMD (withField w F.CLK_SYNC_CMD_DISARM 1) none s

/-! ### Cutover, fabric, configuration -/

/-- The word of a CUT.CMD command: GO, and CANCEL as given. -/
def cutWord (w : Word) (cancel : Nat) : Word := withField (withField w F.CUT_CMD_GO 1) F.CUT_CMD_CANCEL cancel

/-- CUTOVER_REQUEST (R203, Table 6.1). -/
def execCutoverRequest (p : Path) (w : Word) (s : State) : Out :=
  hostWrite p R.CUT_CMD (cutWord w 0) none s

/-- CUTOVER_CANCEL (R204, R220). -/
def execCutoverCancel (p : Path) (w : Word) (s : State) : Out :=
  hostWrite p R.CUT_CMD (cutWord w 1) none s

/-- FI_ECC_CLR (R234). -/
def execFiEccClr (p : Path) (x : Fin 48) (w : Word) (s : State) : Out :=
  hostWrite p (R.FI_ECC_CLR x) (withField w F.FI_ECC_CLR_CLR 1) none s

/-- PR_REQUEST (R271). -/
def execPrRequest (p : Path) (w : Word) (s : State) : Out :=
  hostWrite p R.CFGC_PR_CMD (withField w F.CFGC_PR_CMD_GO 1) none s

/-- BLOTTER_CTRL_WRITE (R280). -/
def execBlotterCtrlWrite (p : Path) (w : Word) (s : State) : Out := hostWrite p R.BLOT_CTRL w none s

/-- BLOT_CNT_CLR (R281). -/
def execBlotCntClr (p : Path) (w : Word) (s : State) : Out :=
  hostWrite p R.BLOT_CNT_CLR (withField w F.BLOT_CNT_CLR_CLR 1) none s

/-! ### Capture and Inkwell -/

/-- CAPTURE_ARM (R292). -/
def execCaptureArm (p : Path) (w : Word) (s : State) : Out :=
  hostWrite p R.CAP_CMD (withField w F.CAP_CMD_ARM 1) none s

/-- CAPTURE_STOP (R312). -/
def execCaptureStop (p : Path) (w : Word) (s : State) : Out :=
  hostWrite p R.CAP_CMD (withField w F.CAP_CMD_STOP 1) none s

/-- CAPTURE_TRIG (R294). -/
def execCaptureTrig (p : Path) (w : Word) (s : State) : Out :=
  hostWrite p R.CAP_CMD (withField w F.CAP_CMD_TRIG 1) none s

/-- INK_RD_WRITE (R302, R305). -/
def execInkRdWrite (p : Path) (spill : Bool) (w : Word) (s : State) : Out :=
  hostWrite p (if spill then R.INK_SPILL_RD else R.INK_RD) w none s

/-- INK_WINDOW_READ (R303). -/
def execInkWindowRead (p : Path) (hi : Bool) (flip : BitVec 72) (s : State) : Out :=
  hostRead p (if hi then R.INK_WIN_HI else R.INK_WIN_LO) flip.toNat s

/-! ### Quill -/

/-- QUILL_START (R341). -/
def execQuillStart (p : Path) (x : Fin 8) (w : Word) (s : State) : Out :=
  hostWrite p (R.QCX_CMD x) (withField w F.QCX_CMD_START 1) none s

/-- QUILL_STOP (R333). -/
def execQuillStop (p : Path) (x : Fin 8) (w : Word) (s : State) : Out :=
  hostWrite p (R.QCX_CMD x) (withField w F.QCX_CMD_STOP 1) none s

/-- QUILL_HOST_TRAP (R329). -/
def execQuillHostTrap (p : Path) (x : Fin 8) (w : Word) (s : State) : Out :=
  hostWrite p (R.QCX_CMD x) (withField w F.QCX_CMD_TRAP 1) none s

/-- QST_WRITE_HOLD (R342). -/
def execQstWriteHold (p : Path) (i : Fin 2) (w : Word) (s : State) : Out :=
  hostWrite p (R.QST_W0 + 4 * i) w none s

/-- QST_STORE_WRITE (R342). -/
def execQstStoreWrite (p : Path) (w : Word) (s : State) : Out := hostWrite p R.QST_W2 w none s

/-- QST_READ (R342). -/
def execQstRead (p : Path) (i : Fin 3) (flip : BitVec 99) (s : State) : Out :=
  hostRead p (R.QST_W0 + 4 * i) flip.toNat s

/-- Address of LIMk_HI, or of TLIMt_HI for `k` = 4 + t. -/
def limitHiReg (x : Fin 8) (k : Fin 6) : Nat := if k.val < 4 then R.QCX_LIM_HI x k else R.QCX_TLIM_HI x (k - 4)

/-- LIMIT_HI_WRITE (R338). -/
def execLimitHiWrite (p : Path) (x : Fin 8) (k : Fin 6) (w : Word) (s : State) : Out :=
  hostWrite p (limitHiReg x k) w none s

/-- QUILL_DT_CLR (R335). -/
def execQuillDtClr (p : Path) (x : Fin 8) (w : Word) (s : State) : Out :=
  hostWrite p (R.QCX_DT_CLR x) (withField w F.QCX_DT_CLR_CLR 1) none s

/-! ### Tracing and time intervals -/

/-- TRACE_RUN_WRITE (R367). -/
def execTraceRunWrite (p : Path) (w : Word) (s : State) : Out := hostWrite p R.TRC_CTRL w none s

/-- TRACE_QUEUE_POP (R361). -/
def execTraceQueuePop (p : Path) (s : State) : Out := hostRead p (R.TRC_Q_W 0) 0 s

/-- TRC_STAT_CLR (R360). -/
def execTrcStatClr (p : Path) (w : Word) (s : State) : Out :=
  hostWrite p R.TRC_STAT_CLR (withField w F.TRC_STAT_CLR_CLR 1) none s

/-- TDC_ZERO (R371). -/
def execTdcZero (p : Path) (w : Word) (s : State) : Out :=
  hostWrite p (R.TDC_CMD 0) (withField w F.TDC_CMD_ZERO 1) none s

/-- Address of CHi_CFG of channel `c`, or of TINt_CFG for `c` = 32 + t. -/
def tdcConfigReg (c : Fin 36) : Nat := if c.val < 32 then R.TDC_CH_CFG c else R.TIN_TIN_CFG (c - 32)

/-- TDC_CHANNEL_CONFIG_WRITE (R388). -/
def execTdcChannelConfigWrite (p : Path) (c : Fin 36) (w : Word) (s : State) : Out :=
  hostWrite p (tdcConfigReg c) w none s

/-- TDC_QUEUE_POP (R378). -/
def execTdcQueuePop (p : Path) (c : Fin 32) (s : State) : Out := hostRead p (R.TDC_CH_Q_W0 c) 0 s

/-! ### External memory, keys, DMA -/

/-- MEMC_INIT (R417). -/
def execMemcInit (p : Path) (w : Word) (s : State) : Out :=
  hostWrite p R.MEMC_CMD (withField w F.MEMC_CMD_INIT 1) none s

/-- MEMC_STOP (R419). -/
def execMemcStop (p : Path) (w : Word) (s : State) : Out :=
  hostWrite p R.MEMC_CMD (withField w F.MEMC_CMD_STOP 1) none s

/-- MEMC_FILL (R418). -/
def execMemcFill (p : Path) (w : Word) (s : State) : Out :=
  hostWrite p R.MEMC_CMD (withField w F.MEMC_CMD_FILL 1) none s

/-- XTS_CTRL_WRITE (R423). -/
def execXtsCtrlWrite (p : Path) (w : Word) (s : State) : Out := hostWrite p R.XTS_CTRL w none s

/-- KEY_LOAD (R424). -/
def execKeyLoad (p : Path) (w : Word) (s : State) : Out :=
  hostWrite p R.KEYS_CMD (withField w F.KEYS_CMD_LOAD 1) none s

/-- KEY_RANDOM (R424). -/
def execKeyRandom (p : Path) (w : Word) (s : State) : Out :=
  hostWrite p R.KEYS_CMD (withField w F.KEYS_CMD_RANDOM 1) none s

/-- KEY_CLEAR (R424). -/
def execKeyClear (p : Path) (w : Word) (s : State) : Out :=
  hostWrite p R.KEYS_CMD (withField w F.KEYS_CMD_CLEAR 1) none s

/-- MEMC_ECC_CLR (R398). -/
def execMemcEccClr (p : Path) (w : Word) (s : State) : Out :=
  hostWrite p R.MEMC_ECC_CLR (withField w F.MEMC_ECC_CLR_CLR 1) none s

/-- DMA_START (Table 14.6). -/
def execDmaStart (p : Path) (c : Fin 32) (w : Word) (s : State) : Out :=
  hostWrite p (R.DMA_CMD c) (withField w F.DMA_CMD_START 1) none s

/-- DMA_PAUSE (R435). -/
def execDmaPause (p : Path) (c : Fin 32) (w : Word) (s : State) : Out :=
  hostWrite p (R.DMA_CMD c) (withField w F.DMA_CMD_PAUSE 1) none s

/-- DMA_RESUME (R436). -/
def execDmaResume (p : Path) (c : Fin 32) (w : Word) (s : State) : Out :=
  hostWrite p (R.DMA_CMD c) (withField w F.DMA_CMD_RESUME 1) none s

/-- DMA_CANCEL (Table 14.3). -/
def execDmaCancel (p : Path) (c : Fin 32) (w : Word) (s : State) : Out :=
  hostWrite p (R.DMA_CMD c) (withField w F.DMA_CMD_CANCEL 1) none s

/-- DMA_BUFFER_WRITE (R441). -/
def execDmaBufferWrite (p : Path) (c : Fin 32) (i : Fin 64) (w : Word) (s : State) : Out :=
  hostWrite p (bufReg c i) w none s

/-! ### Lanes and asynchronous ports -/

/-- Address of LANEn_CFG, REF, TX or ENC. -/
def laneConfigReg (n : Fin 8) (reg : Fin 4) : Nat :=
  match reg with
  | 0 => R.LANE_CFG n
  | 1 => R.LANE_REF n
  | 2 => R.LANE_TX n
  | _ => R.LANE_ENC n

/-- LANE_CONFIG_WRITE (R451). -/
def execLaneConfigWrite (p : Path) (n : Fin 8) (reg : Fin 4) (w : Word) (s : State) : Out :=
  hostWrite p (laneConfigReg n reg) w none s

/-- EYE_SCAN_START (R456). -/
def execEyeScanStart (p : Path) (n : Fin 8) (w : Word) (s : State) : Out :=
  hostWrite p (R.LANE_SCAN_CTRL n) (withField w F.LANE_SCAN_CTRL_GO 1) none s

/-- UART_TXQ_WRITE (R506). -/
def execUartTxqWrite (p : Path) (n : Fin 8) (w : Word) (s : State) : Out :=
  hostWrite p (R.UART_TXQ n) w none s

/-- UART_FCMD (R498, R508). -/
def execUartFcmd (p : Path) (n : Fin 8) (w : Word) (quiet : Bool) (s : State) : Out :=
  hostWrite p (R.UART_FCMD n) (withField w F.UART_FCMD_GO 1) (some quiet) s

/-- UART_CFG_WRITE (R509, R510). -/
def execUartCfgWrite (p : Path) (n : Fin 8) (w : Word) (s : State) : Out :=
  hostWrite p (R.UART_CFG n) w none s

/-- UART0_BAUD_WRITE (R511). -/
def execUart0BaudWrite (p : Path) (w : Word) (s : State) : Out := hostWrite p (R.UART_BAUD 0) w none s

/-- RXQ_READ (R505). -/
def execRxqRead (p : Path) (n : Fin 8) (s : State) : Out := hostRead p (R.UART_RXQ n) 0 s

/-! ### Self-test, unlocking, halt record -/

/-- BIST_START (R528). -/
def execBistStart (p : Path) (w : Word) (s : State) : Out :=
  hostWrite p R.BIST_CMD (withField w F.BIST_CMD_START 1) none s

/-- BIST_ABORT (R530). -/
def execBistAbort (p : Path) (w : Word) (s : State) : Out :=
  hostWrite p R.BIST_CMD (withField w F.BIST_CMD_ABORT 1) none s

/-- The word of an unlock operation: OP and GO in place. -/
def ulWord (w : Word) (op : Nat) : Word := withField (withField w F.MON_UL_CMD_GO 1) F.MON_UL_CMD_OP op

/-- UL_PASSWORD (R548). -/
def execUlPassword (p : Path) (w : Word) (s : State) : Out := hostWrite p R.MON_UL_CMD (ulWord w 1) none s

/-- UL_CHALLENGE (R548). -/
def execUlChallenge (p : Path) (w : Word) (s : State) : Out := hostWrite p R.MON_UL_CMD (ulWord w 2) none s

/-- UL_RESPONSE (R548). -/
def execUlResponse (p : Path) (w : Word) (s : State) : Out := hostWrite p R.MON_UL_CMD (ulWord w 3) none s

/-- UL_LOCK (R548). -/
def execUlLock (p : Path) (w : Word) (s : State) : Out := hostWrite p R.MON_UL_CMD (ulWord w 4) none s

/-- HALT_CLR (R563). -/
def execHaltClr (p : Path) (w : Word) (s : State) : Out :=
  hostWrite p R.IRQ_HALT_CLR (withField w F.IRQ_HALT_CLR_CLR 1) none s

end Sys2Proof.Machine
end

