-- ==== Sys2Proof/Machine/Dispatch.lean ====
section
/-! DEFINITION. The command of each constructor: one direct call of its meaning. -/

namespace Sys2Proof.Machine

def exec (i : Instr) (s : State) : Host.Outcome State Fault Refusal :=
  match i with
  | .powerOn => Sys2Proof.Machine.execPowerOn s
  | .railGood r inLimits => Sys2Proof.Machine.execRailGood r inLimits s
  | .railLoss r => Sys2Proof.Machine.execRailLoss r s
  | .rstNAssert => Sys2Proof.Machine.execRstNAssert s
  | .rstNRelease prog => Sys2Proof.Machine.execRstNRelease prog s
  | .steepStart => Sys2Proof.Machine.execSteepStart s
  | .steepHeaderCheck => Sys2Proof.Machine.execSteepHeaderCheck s
  | .steepPll0LockTimeout => Sys2Proof.Machine.execSteepPll0LockTimeout s
  | .railSurvey mv => Sys2Proof.Machine.execRailSurvey mv s
  | .fsenseSurvey mv => Sys2Proof.Machine.execFsenseSurvey mv s
  | .nibIdleSurvey mv => Sys2Proof.Machine.execNibIdleSurvey mv s
  | .loadSurveyRun nib readings => Sys2Proof.Machine.execLoadSurveyRun nib readings s
  | .cableSurvey nib shots fin => Sys2Proof.Machine.execCableSurvey nib shots fin s
  | .steepLaneResult n => Sys2Proof.Machine.execSteepLaneResult n s
  | .steepEnd => Sys2Proof.Machine.execSteepEnd s
  | .surveyOverride p w => Sys2Proof.Machine.execSurveyOverride p w s
  | .germinateIslandLoad x bad => Sys2Proof.Machine.execGerminateIslandLoad x bad s
  | .kilnSelftestResult => Sys2Proof.Machine.execKilnSelftestResult s
  | .kilnArm => Sys2Proof.Machine.execKilnArm s
  | .kilnLockTimeout => Sys2Proof.Machine.execKilnLockTimeout s
  | .bankArm k => Sys2Proof.Machine.execBankArm k s
  | .registerWrite p a w => Sys2Proof.Machine.execRegisterWrite p a w s
  | .accessWedgeTimeout h => Sys2Proof.Machine.execAccessWedgeTimeout h s
  | .hspWrite a ws ans => Sys2Proof.Machine.execHspWrite a ws ans s
  | .hspRead a l ans => Sys2Proof.Machine.execHspRead a l ans s
  | .hspWrite4 a ws ans => Sys2Proof.Machine.execHspWrite4 a ws ans s
  | .hspRead4 a l ans => Sys2Proof.Machine.execHspRead4 a l ans s
  | .hspUndefinedCommand c => Sys2Proof.Machine.execHspUndefinedCommand c s
  | .hspCsEarlyRise a ws n ans => Sys2Proof.Machine.execHspCsEarlyRise a ws n ans s
  | .stageEnWrite p pg w => Sys2Proof.Machine.execStageEnWrite p pg w s
  | .rwsWrite p a w => Sys2Proof.Machine.execRwsWrite p a w s
  | .commit p w => Sys2Proof.Machine.execCommit p w s
  | .commitUnitDecide us => Sys2Proof.Machine.execCommitUnitDecide us s
  | .commitPrepareTimeout => Sys2Proof.Machine.execCommitPrepareTimeout s
  | .commitUnitApply us => Sys2Proof.Machine.execCommitUnitApply us s
  | .commitApplyTimeout u => Sys2Proof.Machine.execCommitApplyTimeout u s
  | .domainPowerUpDone d => Sys2Proof.Machine.execDomainPowerUpDone d s
  | .domainPowerDownDone d => Sys2Proof.Machine.execDomainPowerDownDone d s
  | .timestampLatchRead p a => Sys2Proof.Machine.execTimestampLatchRead p a s
  | .sysResetWrite p w => Sys2Proof.Machine.execSysResetWrite p w s
  | .sysResetAssert => Sys2Proof.Machine.execSysResetAssert s
  | .refWindowEnd r count throughout now => Sys2Proof.Machine.execRefWindowEnd r count throughout now s
  | .refEdgesStop r => Sys2Proof.Machine.execRefEdgesStop r s
  | .refConfigWrite p r reg w => Sys2Proof.Machine.execRefConfigWrite p r reg w s
  | .pllConfigWrite p k reg w => Sys2Proof.Machine.execPllConfigWrite p k reg w s
  | .pllRefselWrite p k w => Sys2Proof.Machine.execPllRefselWrite p k w s
  | .pllCalibrationDone k mhz => Sys2Proof.Machine.execPllCalibrationDone k mhz s
  | .pllLockWindowEnd k count => Sys2Proof.Machine.execPllLockWindowEnd k count s
  | .pllSwitchInput k => Sys2Proof.Machine.execPllSwitchInput k s
  | .pllRevertHoldoffExpire k => Sys2Proof.Machine.execPllRevertHoldoffExpire k s
  | .syncArm p w => Sys2Proof.Machine.execSyncArm p w s
  | .syncDisarm p w => Sys2Proof.Machine.execSyncDisarm p w s
  | .syncInEdge rising ignored => Sys2Proof.Machine.execSyncInEdge rising ignored s
  | .pllOutputRestart k => Sys2Proof.Machine.execPllOutputRestart k s
  | .generatorFallback g => Sys2Proof.Machine.execGeneratorFallback g s
  | .generatorFallbackStop g => Sys2Proof.Machine.execGeneratorFallbackStop g s
  | .generatorReturn g => Sys2Proof.Machine.execGeneratorReturn g s
  | .handshakeTransfer h d took crosses => Sys2Proof.Machine.execHandshakeTransfer h d took crosses s
  | .handshakeWedge c => Sys2Proof.Machine.execHandshakeWedge c s
  | .cutoverRequest p w => Sys2Proof.Machine.execCutoverRequest p w s
  | .cutoverCancel p w => Sys2Proof.Machine.execCutoverCancel p w s
  | .quietPointEvent g => Sys2Proof.Machine.execQuietPointEvent g s
  | .cutoverTimeout g same => Sys2Proof.Machine.execCutoverTimeout g same s
  | .cutoverSwitch g => Sys2Proof.Machine.execCutoverSwitch g s
  | .bramRead x m b w flip other => Sys2Proof.Machine.execBramRead x m b w flip other s
  | .bramWriteFull x m b w d other => Sys2Proof.Machine.execBramWriteFull x m b w d other s
  | .bramWritePartial x m b w d be flip other => Sys2Proof.Machine.execBramWritePartial x m b w d be flip other s
  | .fabricMasterRequest a w => Sys2Proof.Machine.execFabricMasterRequest a w s
  | .userWindowAccess p a w => Sys2Proof.Machine.execUserWindowAccess p a w s
  | .userWindowAnswer ans => Sys2Proof.Machine.execUserWindowAnswer ans s
  | .userWindowTimeout => Sys2Proof.Machine.execUserWindowTimeout s
  | .fiEccClr p x w => Sys2Proof.Machine.execFiEccClr p x w s
  | .islandDrained x => Sys2Proof.Machine.execIslandDrained x s
  | .prRequest p w => Sys2Proof.Machine.execPrRequest p w s
  | .prComplete bad one => Sys2Proof.Machine.execPrComplete bad one s
  | .blotterFrameRead flips => Sys2Proof.Machine.execBlotterFrameRead flips s
  | .blotterIntervalExpire => Sys2Proof.Machine.execBlotterIntervalExpire s
  | .blotterReload flips => Sys2Proof.Machine.execBlotterReload flips s
  | .blotterCtrlWrite p w => Sys2Proof.Machine.execBlotterCtrlWrite p w s
  | .blotCntClr p w => Sys2Proof.Machine.execBlotCntClr p w s
  | .captureArm p w => Sys2Proof.Machine.execCaptureArm p w s
  | .captureStop p w => Sys2Proof.Machine.execCaptureStop p w s
  | .captureTrig p w => Sys2Proof.Machine.execCaptureTrig p w s
  | .captureTrigger => Sys2Proof.Machine.execCaptureTrigger s
  | .capturePostDone => Sys2Proof.Machine.execCapturePostDone s
  | .inkwellFull => Sys2Proof.Machine.execInkwellFull s
  | .throttleOff => Sys2Proof.Machine.execThrottleOff s
  | .spillLineAck n => Sys2Proof.Machine.execSpillLineAck n s
  | .inkRdWrite p spill w => Sys2Proof.Machine.execInkRdWrite p spill w s
  | .inkWindowRead p hi flip => Sys2Proof.Machine.execInkWindowRead p hi flip s
  | .quillStart p x w => Sys2Proof.Machine.execQuillStart p x w s
  | .quillStop p x w => Sys2Proof.Machine.execQuillStop p x w s
  | .quillHostTrap p x w => Sys2Proof.Machine.execQuillHostTrap p x w s
  | .quillNop x => Sys2Proof.Machine.execQuillNop x s
  | .quillCinc x => Sys2Proof.Machine.execQuillCinc x s
  | .quillCclr x => Sys2Proof.Machine.execQuillCclr x s
  | .quillTstart x => Sys2Proof.Machine.execQuillTstart x s
  | .quillTstop x => Sys2Proof.Machine.execQuillTstop x s
  | .quillIrq x => Sys2Proof.Machine.execQuillIrq x s
  | .quillCstop x => Sys2Proof.Machine.execQuillCstop x s
  | .quillSetpol x => Sys2Proof.Machine.execQuillSetpol x s
  | .quillHalt x => Sys2Proof.Machine.execQuillHalt x s
  | .quillRett x => Sys2Proof.Machine.execQuillRett x s
  | .microTrap x flip => Sys2Proof.Machine.execMicroTrap x flip s
  | .qstWriteHold p i0 w => Sys2Proof.Machine.execQstWriteHold p i0 w s
  | .qstStoreWrite p w => Sys2Proof.Machine.execQstStoreWrite p w s
  | .qstRead p i0 flip => Sys2Proof.Machine.execQstRead p i0 flip s
  | .limitHiWrite p x k w => Sys2Proof.Machine.execLimitHiWrite p x k w s
  | .quillDtClr p x w => Sys2Proof.Machine.execQuillDtClr p x w s
  | .traceEdge n legacy => Sys2Proof.Machine.execTraceEdge n legacy s
  | .traceDivergence n => Sys2Proof.Machine.execTraceDivergence n s
  | .traceResync n => Sys2Proof.Machine.execTraceResync n s
  | .transactionDecide k => Sys2Proof.Machine.execTransactionDecide k s
  | .traceRunWrite p w => Sys2Proof.Machine.execTraceRunWrite p w s
  | .traceQueuePop p => Sys2Proof.Machine.execTraceQueuePop p s
  | .trcStatClr p w => Sys2Proof.Machine.execTrcStatClr p w s
  | .tdcEdge src rising a b => Sys2Proof.Machine.execTdcEdge src rising a b s
  | .tdcZero p w => Sys2Proof.Machine.execTdcZero p w s
  | .tdcChannelConfigWrite p c w => Sys2Proof.Machine.execTdcChannelConfigWrite p c w s
  | .tdcQueuePop p c => Sys2Proof.Machine.execTdcQueuePop p c s
  | .tdcRecalibrate c => Sys2Proof.Machine.execTdcRecalibrate c s
  | .tinFreqWindow t active => Sys2Proof.Machine.execTinFreqWindow t active s
  | .memcInit p w => Sys2Proof.Machine.execMemcInit p w s
  | .memcStop p w => Sys2Proof.Machine.execMemcStop p w s
  | .memcFill p w => Sys2Proof.Machine.execMemcFill p w s
  | .memcTrainDone fail => Sys2Proof.Machine.execMemcTrainDone fail s
  | .memcTrainTimeout step => Sys2Proof.Machine.execMemcTrainTimeout step s
  | .memcFillDone => Sys2Proof.Machine.execMemcFillDone s
  | .ddrAlert again => Sys2Proof.Machine.execDdrAlert again s
  | .memoryRead c k flips filled => Sys2Proof.Machine.execMemoryRead c k flips filled s
  | .memoryWrite r flips filled => Sys2Proof.Machine.execMemoryWrite r flips filled s
  | .xtsCtrlWrite p w => Sys2Proof.Machine.execXtsCtrlWrite p w s
  | .keyLoad p w => Sys2Proof.Machine.execKeyLoad p w s
  | .keyRandom p w => Sys2Proof.Machine.execKeyRandom p w s
  | .keyClear p w => Sys2Proof.Machine.execKeyClear p w s
  | .memcEccClr p w => Sys2Proof.Machine.execMemcEccClr p w s
  | .dmaStart p c w => Sys2Proof.Machine.execDmaStart p c w s
  | .dmaPause p c w => Sys2Proof.Machine.execDmaPause p c w s
  | .dmaResume p c w => Sys2Proof.Machine.execDmaResume p c w s
  | .dmaCancel p c w => Sys2Proof.Machine.execDmaCancel p c w s
  | .dmaReadResponse c i0 => Sys2Proof.Machine.execDmaReadResponse c i0 s
  | .dmaWriteAck c i0 => Sys2Proof.Machine.execDmaWriteAck c i0 s
  | .dmaDescriptorLoad c => Sys2Proof.Machine.execDmaDescriptorLoad c s
  | .dmaBufferWrite p c i0 w => Sys2Proof.Machine.execDmaBufferWrite p c i0 w s
  | .laneConfigWrite p n reg w => Sys2Proof.Machine.execLaneConfigWrite p n reg w s
  | .laneSynthTimeout n => Sys2Proof.Machine.execLaneSynthTimeout n s
  | .trainingSetReceived n sym bad metric sent => Sys2Proof.Machine.execTrainingSetReceived n sym bad metric sent s
  | .laneHuntTimeout n => Sys2Proof.Machine.execLaneHuntTimeout n s
  | .laneRateChange n => Sys2Proof.Machine.execLaneRateChange n s
  | .eqRequestLimit n => Sys2Proof.Machine.execEqRequestLimit n s
  | .laneCvRetrain n => Sys2Proof.Machine.execLaneCvRetrain n s
  | .eyeScanStart p n w => Sys2Proof.Machine.execEyeScanStart p n w s
  | .eyeScanDone n errs => Sys2Proof.Machine.execEyeScanDone n errs s
  | .draughtRd n k => Sys2Proof.Machine.execDraughtRd n k s
  | .draughtWr n k => Sys2Proof.Machine.execDraughtWr n k s
  | .draughtRequestPerform ans => Sys2Proof.Machine.execDraughtRequestPerform ans s
  | .draughtCpl n k => Sys2Proof.Machine.execDraughtCpl n k s
  | .draughtStream n k => Sys2Proof.Machine.execDraughtStream n k s
  | .draughtCredit n k => Sys2Proof.Machine.execDraughtCredit n k s
  | .draughtAck n k => Sys2Proof.Machine.execDraughtAck n k s
  | .draughtNak n k => Sys2Proof.Machine.execDraughtNak n k s
  | .draughtKeyx n k => Sys2Proof.Machine.execDraughtKeyx n k s
  | .draughtUndefinedType n k => Sys2Proof.Machine.execDraughtUndefinedType n k s
  | .replayTimeout n => Sys2Proof.Machine.execReplayTimeout n s
  | .ackTimer n => Sys2Proof.Machine.execAckTimer n s
  | .streamPacketClose k => Sys2Proof.Machine.execStreamPacketClose k s
  | .uartStartEdge n cycle => Sys2Proof.Machine.execUartStartEdge n cycle s
  | .uartResyncEdge n rise fall => Sys2Proof.Machine.execUartResyncEdge n rise fall s
  | .uartCharReceived n rise => Sys2Proof.Machine.execUartCharReceived n rise s
  | .uartBreak n => Sys2Proof.Machine.execUartBreak n s
  | .uartTxqWrite p n w => Sys2Proof.Machine.execUartTxqWrite p n w s
  | .uartCharSent n => Sys2Proof.Machine.execUartCharSent n s
  | .uartScRepeat n => Sys2Proof.Machine.execUartScRepeat n s
  | .uartFcmd p n w quiet => Sys2Proof.Machine.execUartFcmd p n w quiet s
  | .uartResponseTimeout n => Sys2Proof.Machine.execUartResponseTimeout n s
  | .uartBitError n k rise => Sys2Proof.Machine.execUartBitError n k rise s
  | .uartCfgWrite p n w => Sys2Proof.Machine.execUartCfgWrite p n w s
  | .uart0BaudWrite p w => Sys2Proof.Machine.execUart0BaudWrite p w s
  | .rxqRead p n => Sys2Proof.Machine.execRxqRead p n s
  | .bistStart p w => Sys2Proof.Machine.execBistStart p w s
  | .bistAbort p w => Sys2Proof.Machine.execBistAbort p w s
  | .bistTargetDone t lfail faults again => Sys2Proof.Machine.execBistTargetDone t lfail faults again s
  | .monCharacterReceived c => Sys2Proof.Machine.execMonCharacterReceived c s
  | .monId => Sys2Proof.Machine.execMonId s
  | .monStat => Sys2Proof.Machine.execMonStat s
  | .monRd ans => Sys2Proof.Machine.execMonRd ans s
  | .monWr ans => Sys2Proof.Machine.execMonWr ans s
  | .monUnlockPw => Sys2Proof.Machine.execMonUnlockPw s
  | .monChal => Sys2Proof.Machine.execMonChal s
  | .monResp => Sys2Proof.Machine.execMonResp s
  | .monLock => Sys2Proof.Machine.execMonLock s
  | .monReset => Sys2Proof.Machine.execMonReset s
  | .monResetAssert => Sys2Proof.Machine.execMonResetAssert s
  | .monOtpPw => Sys2Proof.Machine.execMonOtpPw s
  | .monOtpKey => Sys2Proof.Machine.execMonOtpKey s
  | .monUndefinedCommand => Sys2Proof.Machine.execMonUndefinedCommand s
  | .monIdleTimeout => Sys2Proof.Machine.execMonIdleTimeout s
  | .challengeExpire p => Sys2Proof.Machine.execChallengeExpire p s
  | .ulPassword p w => Sys2Proof.Machine.execUlPassword p w s
  | .ulChallenge p w => Sys2Proof.Machine.execUlChallenge p w s
  | .ulResponse p w => Sys2Proof.Machine.execUlResponse p w s
  | .ulLock p w => Sys2Proof.Machine.execUlLock p w s
  | .authPassword arr => Sys2Proof.Machine.execAuthPassword arr s
  | .authChallenge arr => Sys2Proof.Machine.execAuthChallenge arr s
  | .authResponse arr => Sys2Proof.Machine.execAuthResponse arr s
  | .authLock arr => Sys2Proof.Machine.execAuthLock arr s
  | .tapReset => Sys2Proof.Machine.execTapReset s
  | .tapBypass code => Sys2Proof.Machine.execTapBypass code s
  | .tapIdcode => Sys2Proof.Machine.execTapIdcode s
  | .tapSamplePreload others preload => Sys2Proof.Machine.execTapSamplePreload others preload s
  | .tapExtest others => Sys2Proof.Machine.execTapExtest others s
  | .tapClamp => Sys2Proof.Machine.execTapClamp s
  | .tapHighz => Sys2Proof.Machine.execTapHighz s
  | .irqBallUpdate i0 => Sys2Proof.Machine.execIrqBallUpdate i0 s
  | .haltClr p w => Sys2Proof.Machine.execHaltClr p w s
  | .railBelowGood r inLimits => Sys2Proof.Machine.execRailBelowGood r inLimits s
  | .padLevelChange n mv either => Sys2Proof.Machine.execPadLevelChange n mv either s
  | .nibPortChange x j d e => Sys2Proof.Machine.execNibPortChange x j d e s
  | .captureSample probes fall e => Sys2Proof.Machine.execCaptureSample probes fall e s
  | .sliceOperation x k a b c z sub sat => Sys2Proof.Machine.execSliceOperation x k a b c z sub sat s
  | .draughtBadCrc n => Sys2Proof.Machine.execDraughtBadCrc n s

end Sys2Proof.Machine
end

