-- ==== Sys2Proof/Safety.lean ====
section
/-! DEFINITION. The terms in which the claims speak: what a safe run is, what a command leaves alone, when a host access
is served and takes effect. -/

namespace Sys2Proof.Machine

/-- What no command but the one-time programming may change: the queue of commands, and the two OTP items (R547). -/
def kept (s : State) : List Instr × Option (List Byte) × Option (List Byte) := (s.pending, s.mon.pwh, s.mon.key)

/-- The state that a performed write leaves; a refused or violating one leaves `s`. -/
def WOut.st (o : WOut) (s : State) : State :=
  match o with
  | .done t => t
  | .refuse _ => s
  | .refuseAs t _ => t
  | .bad _ => s
  | .wait t => t

/-- The phase stays, or a halt cause ends Kiln or Run (Table 3.2, R558). -/
def phaseHalt (a b : Phase) : Prop := b = a ∨ ((a = .kiln ∨ a = .run) ∧ b = .halt)

/-- Every register outside `P` holds what it held. -/
def regsKept (P : Nat → Prop) (s t : State) : Prop := ∀ a, ¬ P a → t.reg a = s.reg a

/-- The block takes the write of `w` at `a` on path `p`, but holds what it starts until the commit in progress ends (R136). -/
def heldBack (s : State) (p : Path) (a : Nat) (w : Word) : Bool :=
  let u := enterSlot s p
  match pageOf (a / 0x1000), regFields a with
  | some (k, i), some fs => decide (0x040 ≤ a % 0x1000) && !fs.any (fun f => f.ty == .rws) &&
      (rootWrite u p k (a % 0x1000) w).isNone && !(k == .uart && a % 0x1000 == 0x058) &&
      (match blockWrite u (some p) k i (a % 0x1000) (mergeWord (s.reg a) w fs) true with
        | .done t => straddles u t
        | _ => false)
  | _, _ => false

/-- A write of `w` at `a` on path `p` is served at once, violates nothing, its page is not wedged (R112, R113, R116, R122,
R124), Steep does not hold the page (R90, R459) and no accepted PREPARE holds it back (R136): whether it is performed is
then for the block to say (R121). -/
def accepts (s : State) (p : Path) (a : Nat) (w : Word) : Bool :=
  canIssue s p && served s p && !inWindow a && (devViolation s p a (some w)).isNone && !pageWedged s (a / 0x1000) &&
    (match pageOf (a / 0x1000) with
      | some (k, i) => !steepHolds s (some p) k i
      | none => false) && !heldBack s p a w

/-- A read at `a` on path `p` is performed at once (R112, R113, R116, R122, R124). -/
def acceptsRead (s : State) (p : Path) (a : Nat) : Bool :=
  canIssue s p && served s p && !inWindow a && (devViolation s p a none).isNone && !pageWedged s (a / 0x1000)

/-- The last response on a path, and its data. -/
def respOf (s : State) (p : Path) : Resp := tabGet (fun _ => Resp.none) s.root.resp p.code
def lastData (s : State) (p : Path) : List Word := tabGet (fun _ => []) s.root.data p.code

/-- A performed write that leaves `u` ends: it counts in the slot (R115) and is answered normally (R113). -/
def written (u : State) (p : Path) (a : Nat) : State := answer (noteWrite u p a) p .ok []

/-- A performed read that leaves `u` ends: its word is answered (R113). -/
def readDone (u : State) (p : Path) (d : Word) : State := answer u p .ok [d]

/-- The state after a command; one that stops leaves `s`. -/
def outSt (o : Out) (s : State) : State :=
  match o with
  | .next t => t
  | .fault _ => s
  | .refused _ => s

end Sys2Proof.Machine
end

