-- ==== Sys2Proof/Certificates/Slice0/Obligations.lean ====
section
/-! DEFINITION. The statements for the provers: what the commands of the block do, rule by rule of spec/, what they leave
alone, and what holds of every step. -/

open Sys2Proof Sys2Proof.Machine

/-- What the full reset that `s` undergoes leaves in `t` (R570, R571, Table 19.3): every register at its reset value but the kept
ones, levels 0 and every path disarmed, no commit, no HSP status, HALT low, every domain on, every nib undriven and pulled
down as far as its supplies allow; DRAM, lanes, DMA channels and ports emptied; the violation log with its sequence, the halt
record, unless the device halted on this very edge, the self-test results and repairs, the timestamp, the OTP items and the
flash stay; the source is noted for RST_CAUSE. -/
def FullResetLeaves (s t : State) (cause : Nat) : Prop :=
  t.phase = .reset ∧
  (∀ a, keptReg a = false → t.reg a = resetOf a) ∧
  (∀ a, keptReg a = true → a ≠ R.BIST_STAT → t.reg a = if haltNow s = true ∧
    a ∈ [R.IRQ_HALT_INFO, R.IRQ_HALT_TS_LO, R.IRQ_HALT_TS_HI, R.IRQ_HALT_A0, R.IRQ_HALT_A1] then 0#32 else s.reg a) ∧
  (∀ a, t.staged a = t.reg a) ∧
  (∀ p, levelOf t p = 0) ∧ t.root = { State.reset.root with ts := s.root.ts, logSeq := s.root.logSeq } ∧
  (∀ d, domSt t d = 0) ∧ t.nib.haltBall = false ∧
  (∀ n < 336, driverIn t n = (false, false) ∧
    (padOf t n).pull = (bitOf t.pwr.good 0 && bitOf t.pwr.good 1 && bitOf t.pwr.good (3 + n / 48))) ∧
  t.cap = noCap ∧ t.quill = noQuill ∧ t.tdc = noTdc ∧ t.trc = noTrc ∧ t.fab = State.reset.fab ∧ t.dl = State.reset.dl ∧
  t.mem = { noMem with epoch := s.mem.epoch + 1 } ∧ t.dma = State.reset.dma ∧ t.uart = State.reset.uart ∧
  t.cfg = { State.reset.cfg with flash := s.cfg.flash } ∧ t.bist.repairs = s.bist.repairs ∧
  t.mon.pwh = s.mon.pwh ∧ t.mon.key = s.mon.key ∧ t.pending = s.pending ∧
  t.pwr.causeNew = s.pwr.causeNew ||| cause

/-- A halt with cause `cause` (R197, R198, R558, R561, R563, R572): the record with the timestamp of E0; HALT rises and every nib
goes to its halt state, high-impedance where none has been latched; every running generator gates with CAUSE 5, one already gated
keeps its own; every path is disarmed. -/
def HaltEntered (s t : State) (cause a0 a1 : Nat) : Prop :=
  t.phase = .halt ∧ t.reg R.IRQ_HALT_INFO = BitVec.ofNat 32 (cause + 0x80000000) ∧
  t.reg R.IRQ_HALT_TS_LO = BitVec.ofNat 32 (s.root.ts % 2 ^ 32) ∧ t.reg R.IRQ_HALT_TS_HI = BitVec.ofNat 32 (s.root.ts / 2 ^ 32 % 2 ^ 16) ∧
  t.reg R.IRQ_HALT_A0 = BitVec.ofNat 32 a0 ∧ t.reg R.IRQ_HALT_A1 = BitVec.ofNat 32 a1 ∧ t.nib.haltBall = true ∧
  (∀ n < 336, driverIn t n = if nibRole s n ≠ 0 ∧ s.nib.latched = true then (match nibDecl s n F.NIB_NIB_DECL_HALT with
      | 1 => (false, true)
      | 2 => (true, true)
      | 3 => (nibOutD s n, nibOutE s n)
      | _ => (false, false)) else (false, false)) ∧
  (∀ g < 66, genActive t g = 0 ∧ genCause t g = (if genRuns s g then 5 else genCause s g)) ∧
  (∀ p : Path, tabGet (fun _ => none) t.root.arm p.code = none)

/-- A further cause in the halted device `s` (R564): one registered on the cycle of E0 and lower than the recorded one takes its
place with its data, and the other sets its ALSO bit; any other sets its own ALSO bit, and nothing else changes. -/
def AlsoRecorded (s : State) (o : Out) (cause a0 a1 : Nat) : Prop :=
  let info := s.reg R.IRQ_HALT_INFO
  let old := s.getF R.IRQ_HALT_INFO F.IRQ_HALT_INFO_CAUSE
  let takes := cause < old ∧ s.regN R.IRQ_HALT_TS_LO + 2 ^ 32 * s.regN R.IRQ_HALT_TS_HI = s.root.ts
  ∃ t, o = .next t ∧ t = { s with regs := t.regs } ∧
    (takes → t.getF R.IRQ_HALT_INFO F.IRQ_HALT_INFO_CAUSE = cause ∧ t.getF R.IRQ_HALT_INFO F.IRQ_HALT_INFO_ALSO =
        Nat.lor (s.getF R.IRQ_HALT_INFO F.IRQ_HALT_INFO_ALSO) (2 ^ (7 + old) / 2 ^ 8 % 16) ∧
      t.reg R.IRQ_HALT_A0 = BitVec.ofNat 32 a0 ∧ t.reg R.IRQ_HALT_A1 = BitVec.ofNat 32 a1 ∧
      regsKept (fun b => b ∈ [R.IRQ_HALT_INFO, R.IRQ_HALT_A0, R.IRQ_HALT_A1]) s t) ∧
    (¬ takes → t.reg R.IRQ_HALT_INFO = info ||| BitVec.ofNat 32 (2 ^ (7 + cause)) ∧ regsKept (· = R.IRQ_HALT_INFO) s t)

/-- A write that the block refuses with code `c` (R121, R98): recorded on its page, answered, and nothing else. -/
def Refused (s : State) (p : Path) (a c : Nat) (o : Out) : Prop :=
  ∃ t, o = .next t ∧ respOf t p = .refused ∧ (∀ q, q ≠ p → respOf t q = respOf s q ∧ lastData t q = lastData s q) ∧
    t.reg (R.PAGE_ERR_CODE (a / 0x1000)) = BitVec.ofNat 32 (c + 256 * p.code) ∧
    t.reg (R.PAGE_ERR_ADDR (a / 0x1000)) = BitVec.ofNat 32 (a % 0x1000 + 0x80000000) ∧
    (t.reg (R.PAGE_IRQ_RAW (a / 0x1000))).getLsbD 30 = true ∧
    regsKept (fun b => b = R.PAGE_ERR_CODE (a / 0x1000) ∨ b = R.PAGE_ERR_ADDR (a / 0x1000) ∨ b = R.PAGE_IRQ_RAW (a / 0x1000)) s t ∧
    t = { enterSlot s p with
      regs := t.regs, root := { (enterSlot s p).root with resp := t.root.resp, data := t.root.data }
      fab := { s.fab with mp := if p = .fab then .err 2 0 else s.fab.mp } }

/-- A commit of the pages `ps` ends as refused (Table 4.6, R137, R140, R141): COMMIT_STAT reads REFUSED with its reason and
page, each page has COMMIT_REFUSED set, the pending bank stays, and of the registers only those and the pages' reasons change. -/
def CommitRefused (s t : State) (ps : List Nat) (reason page : Nat) : Prop :=
  t.reg R.SYS_COMMIT_STAT = BitVec.ofNat 32 (4 + 16 * reason + 65536 * page) ∧ (t.reg (R.PAGE_IRQ_RAW 0)).getLsbD 1 = true ∧
  (∀ p ∈ ps, t.flag (R.PAGE_STAT p) F.PAGE_STAT_COMMIT_REFUSED = true ∧
    ((∃ k i, pageOf p = some (k, i) ∧ pageHasRws k = true) → (t.reg (R.PAGE_IRQ_RAW p)).getLsbD 1 = true)) ∧
  t.root = { s.root with cPhase := .idle, cPages := [], cWait := [], cApply := [] } ∧
  regsKept (fun b => b = R.SYS_COMMIT_STAT ∨ b = R.PAGE_IRQ_RAW 0 ∨ (∃ p ∈ ps, b = R.PAGE_STAT p ∨ b = R.PAGE_IRQ_RAW p) ∨
    b = R.PWR_COMMIT_INFO ∨ b = R.ISL_COMMIT_INFO ∨ b = R.TRC_COMMIT_INFO ∨ (∃ k, b = R.NIB_COMMIT_INFO k) ∨
    (∃ x, b = R.FI_COMMIT_INFO x)) s t ∧
  t = { s with regs := t.regs, root := t.root }

/-- What a nib ring shows of `b` over `a` once pads have been sensed again: comparators, input and output registers. -/
def nibSensed (a b : Nib) : Nib := { a with cmp := b.cmp, inReg := b.inReg, outD := b.outD, outE := b.outE }

/-- What capture edges on which nothing looks leave of `b` over `a`: the timestamp, the samples, and what is on its way to the
engine (R287, R288, R294, R345). -/
def capTicked (a b : Cap) : Cap :=
  { a with
    ts := b.ts, samp := b.samp, sampF := b.sampF, s1 := b.s1, s2 := b.s2, s3 := b.s3, hist := b.hist, ledge := b.ledge
    ports := b.ports, trig := b.trig }

/-- Beside registers in `P`, only what a clock that stops, changes its source or runs again brings with it changes: pads and
crossings of a bank (R175, R188, R229), traced pairs (R365), the capture engine's GAP (R313), the ports' lines and counts (R478,
R512), the flags of the next TDC entries, the counts of breaks and what was held of the last edges (R387). -/
def ClocksOnly (s t : State) (P : Nat → Prop) : Prop :=
  regsKept (fun a => P a ∨ (∃ i < 7, a = R.UART_STAT (i + 1)) ∨
    (∃ i < 4, a = R.TDC_TB_STAT i ∨ a = R.PAGE_IRQ_RAW (0x050 + i))) s t ∧
  t = { s with
    regs := t.regs, freeCtr := t.freeCtr, nib := nibSensed s.nib t.nib, uart := t.uart
    fab := { s.fab with crossed := t.fab.crossed, crossQ := t.fab.crossQ }
    cap := { s.cap with gap := t.cap.gap }, tdc := { s.tdc with due := t.tdc.due, last := t.tdc.last, late := t.tdc.late }
    trc := { s.trc with pair := t.trc.pair } }

/-- Generator `g` reads the state of Table 5.8 named by `act`, `cause` and `mhz` in `t`, and those that follow it with it (R168,
R178). -/
def GenShows (s t : State) (g act cause mhz : Nat) : Prop :=
  t.reg (R.ISL_GEN_STAT g) = BitVec.ofNat 32 (act + 16 * cause + 65536 * mhz) ∧
  ∀ f ∈ followers t g, t.reg (R.ISL_GEN_STAT f) =
    BitVec.ofNat 32 (if act = 0 then 64 + 65536 * genMhz s f else 3 + 65536 * (mhz % 65536))

/-- A commit of the pages `ps` ends as applied (R138, R141): DONE, and each page clears COMMIT_PENDING and COMMIT_REFUSED. With
the ISL page among them, 0x005, every generator away from a primary that runs returns to it (R174), and nothing else changes
but what their clocks bring with them. -/
def CommitDone (s t : State) (ps : List Nat) (wedged : Bool) : Prop :=
  let returns (g : Nat) : Prop := g < 66 ∧ awayFromPrimary s g = true ∧ primaryRuns s g = true
  let mine (b : Nat) : Prop := b = R.SYS_COMMIT_STAT ∨ b = R.PAGE_IRQ_RAW 0 ∨ (∃ p ∈ ps, b = R.PAGE_STAT p ∨ b = R.PAGE_IRQ_RAW p)
  t.reg R.SYS_COMMIT_STAT = BitVec.ofNat 32 (2 + 8 * b2n wedged) ∧ (t.reg (R.PAGE_IRQ_RAW 0)).getLsbD 0 = true ∧
  t.root = { s.root with cPhase := .idle, cPages := [], cWait := [], cApply := [] } ∧ t.pend = s.pend ∧
  (∀ p ∈ ps, t.flag (R.PAGE_STAT p) F.PAGE_STAT_COMMIT_PENDING = false ∧
    t.flag (R.PAGE_STAT p) F.PAGE_STAT_COMMIT_REFUSED = false ∧
    ((∃ k i, pageOf p = some (k, i) ∧ pageHasRws k = true) → (t.reg (R.PAGE_IRQ_RAW p)).getLsbD 0 = true)) ∧
  (0x005 ∉ ps → regsKept mine s t ∧ t = { s with regs := t.regs, root := t.root }) ∧
  (0x005 ∈ ps →
    (∀ g, returns g → GenShows s t g 1 0 (primaryMhz s g) ∧ (t.reg (R.PAGE_IRQ_RAW 5)).getLsbD 4 = true) ∧
    ClocksOnly { s with root := t.root } t (fun b => mine b ∨ ∃ g, returns g ∧
      (b = R.PAGE_IRQ_RAW 5 ∨ b = R.ISL_GEN_STAT g ∨ ∃ f ∈ followers s g, b = R.ISL_GEN_STAT f)))

/-- Generator `g` takes the state of Table 5.8 named by `act`, `cause` and `mhz`, those that follow it with it (R168, R178), and
IRQ_RAW of the ISL page shows the event `bit`; beside that only what its clock brings with it changes. -/
def GenGoes (s : State) (o : Out) (g act cause mhz bit : Nat) : Prop :=
  ∃ t, o = .next t ∧ t.reg (R.ISL_GEN_STAT g) = BitVec.ofNat 32 (act + 16 * cause + 65536 * mhz) ∧
    (∀ f ∈ followers s g, t.reg (R.ISL_GEN_STAT f) =
      BitVec.ofNat 32 (if act = 0 then 64 + 65536 * genMhz s f else 3 + 65536 * (mhz % 65536))) ∧
    (t.reg (R.PAGE_IRQ_RAW 5)).getLsbD bit = true ∧
    ClocksOnly s t (fun a => a = R.ISL_GEN_STAT g ∨ (∃ f ∈ followers s g, a = R.ISL_GEN_STAT f) ∨ a = R.PAGE_IRQ_RAW 5)

/-- Word `i`, of eight bytes, of the frames of the island section at flash address `a` (Table 8.2). -/
def sectionWord (s : State) (a i : Nat) : Nat := leNat (((flashBytes s (a + 32) 262144).drop (8 * i)).take 8)

/-- The frames of the section at `a` are written to island `x`: frames 0 to 639 to its configuration memory, 640 to 1,023 to its
block memories, each word with its computed check byte, and its receive queues are discarded (R241, R263, R272). -/
def FramesLoaded (s t : State) (x a : Nat) : Prop :=
  (∀ k, tabGet (fun _ => 0) t.cfg.mem k = if x * 20480 ≤ k ∧ k < x * 20480 + 20480 then eccWord (sectionWord s a (k - x * 20480))
    else tabGet (fun _ => 0) s.cfg.mem k) ∧
  (∀ k, tabGet (fun _ => 0) t.fab.bram k = if x * 12288 ≤ k ∧ k < x * 12288 + 12288 then
      eccWord (sectionWord s a (20480 + (k - x * 12288))) else tabGet (fun _ => 0) s.fab.bram k) ∧
  (∀ k, hsGet t k = if k ∈ queueKeys s x then { hsGet s k with queue := [] } else hsGet s k)

/-- The Blotter has left frame `f` of island `x` for the next one (R279, R280, R284): the next frame of the island while it is
still eligible, else frame 0 of the next eligible island, else the end of the cycle; it stops with RUN clear. -/
def BlotMoves (s t : State) (x f : Nat) : Prop :=
  let more := scrubbable t x = true ∧ f < 639
  (more → t.getF R.BLOT_STAT F.BLOT_STAT_ISL = x ∧ t.getF R.BLOT_STAT F.BLOT_STAT_FRAME = f + 1) ∧
  (¬ more → ∀ y, scrubFrom t (x + 1) = some y →
    t.getF R.BLOT_STAT F.BLOT_STAT_ISL = y ∧ t.getF R.BLOT_STAT F.BLOT_STAT_FRAME = 0) ∧
  (¬ more → scrubFrom t (x + 1) = none → t.reg R.BLOT_CYCLES = BitVec.ofNat 32 (s.regN R.BLOT_CYCLES + 1) ∧
    (t.reg (R.PAGE_IRQ_RAW 0x021)).getLsbD 0 = true ∧ t.getF R.BLOT_STAT F.BLOT_STAT_FRAME = 0 ∧
    t.cfg.pause = (s.getF R.BLOT_CTRL F.BLOT_CTRL_INTERVAL != 0)) ∧
  (s.flag R.BLOT_CTRL F.BLOT_CTRL_RUN = false → blotRunning t = false) ∧ t.cfg.skip = false ∧ t.cfg.reload = false

/-- Only the capture engine and its registers that software does not write change. -/
def CaptureOnly (s t : State) : Prop :=
  regsKept (fun a => a ∈ [R.CAP_STAT, R.CAP_TRIG_TS_LO, R.CAP_TRIG_TS_HI, R.INK_WR, R.INK_RD, R.INK_OLDEST, R.INK_FILL, R.INK_FULL_INFO,
    R.INK_LOST, R.INK_THR_DROP, R.INK_TRIG_IDX, R.INK_SPILL_WR, R.INK_SPILL_RD, R.INK_SPILL_OLDEST, R.PAGE_IRQ_RAW 0x030,
    R.PAGE_IRQ_RAW 0x031]) s t ∧ t = { s with regs := t.regs, cap := t.cap }

/-- Only the capture engine and its registers change, and where a full stands in the way of a queue that is stored to its end
under WRAP, that full is entered, INKFULL of the context that INK.CTRL names included (R294, R307, R312). -/
def CaptureTraps (s t : State) : Prop :=
  let x := s.getF R.INK_CTRL F.INK_CTRL_TRAP_CTX
  CaptureOnly (s.setReg (R.QCX_STAT x) (t.reg (R.QCX_STAT x))) t ∧
  (t.reg (R.QCX_STAT x) = s.reg (R.QCX_STAT x) ∨ (inkPolicy s = 2 ∧ s.flag R.INK_CTRL F.INK_CTRL_TRAP_EN = true ∧ ctxRuns s x = true ∧
    t.getF (R.QCX_STAT x) F.QCX_STAT_PEND = Nat.lor (s.getF (R.QCX_STAT x) F.QCX_STAT_PEND) 2))

/-- The queue, the place in its block and the time half last told, after a TRANS word of time `r.2` (R298, R300): a TIME word comes
before it at the start of a block and where the upper bits of the time have moved, and again where it ends a block. -/
def putTrans (q : List (Nat × Nat) × Nat × Option Nat) (r : Nat × Nat) : List (Nat × Nat) × Nat × Option Nat :=
  let n := if q.2.1 = 0 then 1 else if q.2.2 ≠ some (r.2 / 2 ^ 36) then (if q.2.1 = 511 then 2 else 1) else 0
  (q.1 ++ List.replicate n (9 * 2 ^ 60 + r.2, 0) ++ [(r.1, 0)], (q.2.1 + n + 1) % 512, some (r.2 / 2 ^ 36))

/-- The words of one edge in TRANS mode with one group enabled, single-edge and of one sort, or double-edge (R289 to R291, R297,
R298, R300, R310). -/
def TransStored (s t : State) (g : Nat) : Prop :=
  let de := groupDe s g
  let word (m : Tab Bool) (evt sub time : Nat) :=
    2 ^ 62 + 2 ^ 56 * g + 2 ^ 48 * groupByte m g + 2 ^ 40 * evt + 2 ^ 36 * sub + time % 2 ^ 36
  let rise := eventByte s (if de then s.cap.sampF else s.cap.samp) t.cap.samp g
  let drop := eventByte s t.cap.samp t.cap.sampF g
  ∀ own, (de = false → ∀ i < 8, chanOwn s (8 * g + i) = own) →
    let time := if de ∨ own then t.cap.ts else (t.cap.ts + 2 ^ 48 - 2) % 2 ^ 48
    (throttling s = false ∨ s.mapBit R.INK_KEEP0 4 g = true → s.cap.fq.length + 6 ≤ 512 →
      (t.cap.fq, t.cap.bpos, t.cap.hi) = ((if rise = 0 then [] else [(word t.cap.samp rise 0 time, time)]) ++
        (if de = false ∨ drop = 0 then [] else [(word t.cap.sampF drop 8 time, time)])).foldl putTrans (s.cap.fq, s.cap.bpos, s.cap.hi)) ∧
    (throttling s = true → s.mapBit R.INK_KEEP0 4 g = false → de = false → rise ≠ 0 → t.cap.fq = s.cap.fq ∧
      t.getF R.INK_THR_DROP F.INK_THR_DROP_N = satAdd 32 (s.getF R.INK_THR_DROP F.INK_THR_DROP_N) 1)

/-- The words of one edge in FULL mode (R290, R299, R301, R310): a byte for each enabled group, two for a double-edge one, in a
segment that does not cross its block and holds up to 4,095 frames; its header is completed when it closes. The stamp of a frame of
which some values pass a synchroniser and others do not is the model's choice (log entry 43). -/
def FrameStored (s t : State) : Prop :=
  let frame : List Byte := ((groupsOn s).map (fun g => BitVec.ofNat 8 (groupByte t.cap.samp g) ::
    (if groupDe s g then [BitVec.ofNat 8 (groupByte t.cap.sampF g)] else []))).flatten
  let f := frame.length
  let late := ∀ g ∈ groupsOn s, groupDe s g = false ∧ ∀ i < 8, chanOwn s (8 * g + i) = false
  let pad := if s.cap.seg = none ∧ 512 < s.cap.bpos + 1 + (f + 7) / 8 then 512 - s.cap.bpos else 0
  ∀ time n bs, (∀ q, s.cap.seg = some q → q = (time, n, bs)) →
    (s.cap.seg = none → n = 0 ∧ bs = [] ∧ (late → time = (t.cap.ts + 2 ^ 48 - 2) % 2 ^ 48) ∧ (¬ late → time = t.cap.ts)) →
    let all := bs ++ frame
    let whole := all.length / 8
    let rest := all.drop (8 * whole)
    let head : List (Nat × Nat) := if s.cap.seg = none then List.replicate pad (0, 0) ++ [(2 ^ 63 + time, 2)] else []
    let words := (List.range whole).map (fun i => (leNat ((all.drop (8 * i)).take 8), 0))
    let pos := (s.cap.bpos + head.length + whole) % 512
    let closes := n + 1 = 4095 ∨ pos = 0 ∨ 512 < pos + (rest.length + f + 7) / 8
    let hdr := 2 ^ 63 + 2 ^ 48 * (n + 1) + time
    throttling s = false → bs.length < 8 → f ≤ 56 → s.cap.bpos < 512 →
    (s.cap.fq.length + head.length + (all.length + 7) / 8 ≤ 512 →
      (¬ closes → t.cap.fq = s.cap.fq ++ head ++ words ∧ t.cap.seg = some (time, n + 1, rest)) ∧
      (closes → t.cap.seg = none ∧ t.cap.fq.length = s.cap.fq.length + head.length + (all.length + 7) / 8 ∧
        (rest ≠ [] → t.cap.fq.getLast? = some (leNat rest, 0)) ∧
        (∀ i, s.cap.hdr = some (i, 0) → tabGet (fun _ => 0) t.cap.ink i = eccWord hdr) ∧
        ((∀ i, s.cap.hdr ≠ some (i, 0)) → ∀ e ∈ s.cap.fq ++ head, bitOf e.2 1 = true → (hdr, e.2 + 6) ∈ t.cap.fq))) ∧
    (512 < s.cap.fq.length + head.length + (all.length + 7) / 8 →
      t.getF R.INK_LOST F.INK_LOST_N = satAdd 32 (s.getF R.INK_LOST F.INK_LOST_N) 1)

/-- DONE with a cause, its interrupt raised, the queue, the open segment and a STOP under way gone (R296, Table 9.2). -/
def CaptureDone (t : State) (cause : Nat) : Prop :=
  capState t = 3 ∧ t.getF R.CAP_STAT F.CAP_STAT_CAUSE = cause ∧ (t.reg (R.PAGE_IRQ_RAW 0x030)).getLsbD 1 = true ∧
  t.cap.fq = [] ∧ t.cap.seg = none ∧ t.cap.stop = false

/-- A MARK of kind `k` and argument `a` is queued last, with the count of the capture edge to come, where four places are free (an open segment,
a GAP and a LOST mark may come before it); where none is, it is lost and counted (R299, R301, Table 9.5). -/
def Marked (s t : State) (k a flag : Nat) : Prop :=
  (s.cap.fq.length + 4 ≤ 512 → t.cap.fq.getLast? = some (10 * 2 ^ 60 + 2 ^ 56 * k + 2 ^ 48 * a + edgeTs s, flag)) ∧
  (512 ≤ s.cap.fq.length → t.getF R.INK_LOST F.INK_LOST_N = satAdd 32 (s.getF R.INK_LOST F.INK_LOST_N) 1)

/-- A trigger with argument `a`: the first enters POST, or with CAP.POST 0 DONE at once where its mark can be stored, which a
ring with three blocks free always lets it; a further one changes neither the state nor the post count (R294, R295). -/
def Triggered (s t : State) (a : Nat) : Prop :=
  (t.reg (R.PAGE_IRQ_RAW 0x030)).getLsbD 0 = true ∧
  (capState s = 1 → t.reg R.CAP_TRIG_TS_LO = BitVec.ofNat 32 (edgeTs s % 2 ^ 32) ∧
    t.reg R.CAP_TRIG_TS_HI = BitVec.ofNat 32 (edgeTs s / 2 ^ 32 % 2 ^ 16) ∧
    (s.regN R.CAP_POST = 0 → (CaptureDone t 1 ∨ (capState t = 2 ∧ postDue t = false)) ∧
      (s.cap.fq.length ≤ 512 → s.cap.blocks + 3 ≤ s.cap.freed + 512 → CaptureDone t 1)) ∧
    (s.regN R.CAP_POST ≠ 0 → capState t = 2 ∧ (s.cap.fq.length + 4 ≤ 512 → Marked s t 1 a 1))) ∧
  (capState s = 2 → capState t = 2 ∧ t.cap.post = s.cap.post ∧ Marked s t 1 a 0)

/-- The word that context `x` executes in its turn; a store word written during the edge before has landed (R337). -/
def wordT (s : State) (x : Nat) : Nat := wordAt (turn s x) x

/-- C of that word (R318), and whether its action is performed. -/
def wordC (s : State) (x : Nat) : Bool := wordCond (turn s x) x (wordT s x)
def wordActs (s : State) (x : Nat) : Bool := wordC s x || wAlways (wordT s x)

/-- Quill edges since the open dead time was opened, this edge counted. -/
def openEdges (s : State) (x : Nat) : Option Nat := (ctxOf s x).dt.map (· + 1)

/-- What a word of context `x` does beside its action (R318, R322, R324, R334, R335): the event lines, the trigger count, the
dead time, its own counters and timers and the next address as `f` of what a word without action leaves; the other contexts,
the control store and, but for the registers of the context and those in `P`, every register are unchanged. -/
def QuillWord (s t : State) (x : Nat) (f : QCtx → QCtx) (P : Nat → Prop) : Prop :=
  let w := wordT s x
  let c := wordC s x
  let d := openEdges s x
  t.reg (R.QCX_CUR_PC x) = BitVec.ofNat 32 (ctxOf s x).pc ∧
  (c = true → ∀ l < 4, bitOf (wEmit w) l = true → bitOf t.quill.cur (4 * x + l) = true) ∧
  (c = true → ∀ l < 4, bitOf (wEmit w) l = true → tabGet (fun _ => none) t.quill.pulsed (4 * x + l) = some s.root.ts) ∧
  (c = false → t.quill.cur = (turn s x).quill.cur ∧ t.quill.pulsed = s.quill.pulsed ∧ t.nib = s.nib ∧ t.freeCtr = s.freeCtr ∧ t.reg (R.QCX_TRIG_CNT x) = s.reg (R.QCX_TRIG_CNT x)) ∧
  (c = true → wTrig w = true → t.getF (R.QCX_TRIG_CNT x) F.QCX_TRIG_CNT_N =
    wrapAdd 32 (s.getF (R.QCX_TRIG_CNT x) F.QCX_TRIG_CNT_N) 1 ∧ (t.reg (R.PAGE_IRQ_RAW (0x034 + x))).getLsbD 0 = true) ∧
  (∀ n, d = some n → wRearm w = true → t.regN (R.QCX_DT_LAST x) = min n 0xFFFFFFFF ∧
    t.regN (R.QCX_DT_MAX x) = max (min n 0xFFFFFFFF) (s.regN (R.QCX_DT_MAX x))) ∧
  (d = none ∨ wRearm w = false → t.reg (R.QCX_DT_LAST x) = s.reg (R.QCX_DT_LAST x) ∧ t.reg (R.QCX_DT_MAX x) = s.reg (R.QCX_DT_MAX x)) ∧
  ctxOf t x = f { ctxOf (stepCtx s x) x with
    pc := if c then wNxtT w else wNxtF w
    dt := if d = none then (if wTrig w && c then some 0 else none) else if wRearm w then none else d } ∧
  (∀ y, y ≠ x → ctxOf t y = ctxOf s y) ∧ t.quill.store = (turn s x).quill.store ∧
  (s.quill.wr = [] ∨ bitOf s.quill.did x = false → t.quill.store = s.quill.store) ∧
  regsKept (fun b => b ∈ [R.QCX_CUR_PC x, R.QCX_TRIG_CNT x, R.QCX_DT_STAT x, R.QCX_DT_LAST x, R.QCX_DT_MAX x,
    R.PAGE_IRQ_RAW (0x034 + x)] ∨ P b) s t ∧
  t = { s with regs := t.regs, quill := t.quill, cap := t.cap, nib := { s.nib with evt := t.nib.evt }, freeCtr := t.freeCtr }

/-- The capture engine keeps all but its triggers: a pulse on the line of CAP.CTRL is on its way to it, and the next capture edge
registers it on one clock, else the third or the fourth (R294, R324). That the line counts that CAP.CTRL selects when the pulse
is emitted is the model's choice (log entry 31). -/
def CaptureSees (s t : State) (x : Nat) : Prop :=
  let line := s.getF R.CAP_CTRL F.CAP_CTRL_TRIG_LINE
  let hit := wordC s x && bitOf (wEmit (wordT s x)) line && s.flag R.CAP_CTRL F.CAP_CTRL_TRIG_QUILL &&
    s.getF R.CAP_CTRL F.CAP_CTRL_TRIG_CTX == x
  t.cap = { s.cap with fresh := t.cap.fresh, trig := t.cap.trig } ∧
  (hit = false → t.cap.trig = s.cap.trig ∧ t.freeCtr = s.freeCtr) ∧
  (hit = true → oneClock s 57 55 = true → t.cap.trig = s.cap.trig ++ [(0, 32 * x + line)] ∧ t.freeCtr = s.freeCtr) ∧
  (hit = true → oneClock s 57 55 = false → ∃ v < 2, t.cap.trig = s.cap.trig ++ [(2 + v, 32 * x + line)])

/-- The state in which context `x` takes its turn with the upsets `flip` of its word: the store word, the timers, the turn. -/
def trapTurn (s : State) (x flip : Nat) : State :=
  let u := turn s x
  stepCtx (setStoreRaw u (ctxOf s x).pc (Nat.xor (storeRaw u (ctxOf s x).pc) flip)) x

/-- Of the context's own registers only those in `l` change; the other contexts and the other store words stay. -/
def QuillKeeps (s t : State) (x flip : Nat) (l : List Nat) : Prop :=
  (∀ y, y ≠ x → ctxOf t y = ctxOf s y) ∧ (ctxOf t x).cnt = (ctxOf s x).cnt ∧ (ctxOf t x).tmr = (ctxOf (stepCtx s x) x).tmr ∧
  (∀ a, storeRaw t a = if a = (ctxOf s x).pc then Nat.xor (storeRaw (turn s x) a) flip else storeRaw (turn s x) a) ∧
  regsKept (fun b => b ∈ l) s t ∧
  t = { s with regs := t.regs, quill := t.quill, cap := { s.cap with fresh := t.cap.fresh } }

/-- A trap for a cause is taken (R325, R326, R329): the frame, the count, HANDLER at the vector word; a trap edge that RETT made
rewrites only the cause and the timestamp of the frame. -/
def TrapTaken (s t : State) (x flip cause : Nat) (again : Bool) : Prop :=
  let w := (trapTurn s x flip)
  ctxState t x = 2 ∧ (ctxOf t x).pc = s.regN (R.QCX_VBASE x) + cause ∧ (ctxOf t x).rett = false ∧
  t.reg (R.QCX_TF_TS_LO x) = BitVec.ofNat 32 (s.cap.ts % 2 ^ 32) ∧ t.reg (R.QCX_TF_TS_HI x) = BitVec.ofNat 32 (s.cap.ts / 2 ^ 32 % 2 ^ 16) ∧
  t.reg (R.QCX_TF_INFO x) = BitVec.ofNat 32 (if again then withBits (s.regN (R.QCX_TF_INFO x)) 16 3 cause
    else (ctxOf s x).pc + 65536 * cause + 2 ^ 24 * (if cause = 2 then 0 else wOpc (wordAt w x)) + 2 ^ 31) ∧
  t.getF (R.QCX_TRAP_CNT x) F.QCX_TRAP_CNT_N = satAdd 16 (s.getF (R.QCX_TRAP_CNT x) F.QCX_TRAP_CNT_N) 1 ∧
  (t.reg (R.PAGE_IRQ_RAW (0x034 + x))).getLsbD 1 = true ∧
  t.getF (R.QCX_STAT x) F.QCX_STAT_PEND = (if cause < 3 then s.getF (R.QCX_STAT x) F.QCX_STAT_PEND
    else withBits (s.getF (R.QCX_STAT x) F.QCX_STAT_PEND) (cause - 3) 1 0) ∧
  QuillKeeps s t x flip [R.QCX_TF_INFO x, R.QCX_TF_TS_LO x, R.QCX_TF_TS_HI x, R.QCX_TRAP_CNT x, R.QCX_STAT x, R.PAGE_IRQ_RAW (0x034 + x)]

/-- Only the tracing state and registers in `P` change. -/
def TraceOnly (s t : State) (P : Nat → Prop) : Prop := regsKept P s t ∧ t = { s with regs := t.regs, trc := t.trc }

/-- A match of pair `n` has been counted towards the end of its standing divergence (R357). -/
def MatchCounted (s t : State) (n : Nat) : Prop :=
  pairOf t n = { pairOf s n with clean := (pairOf t n).clean } ∧
  (standing s n = false → standing t n = false ∧ (pairOf t n).clean = (pairOf s n).clean) ∧
  (standing s n = true → (pairOf s n).clean + 1 < profClean s n →
    standing t n = true ∧ (pairOf t n).clean = (pairOf s n).clean + 1) ∧
  (standing s n = true → profClean s n ≤ (pairOf s n).clean + 1 →
    standing t n = false ∧ (pairOf t n).clean = 0 ∧ (t.reg (R.PAGE_IRQ_RAW 0x040)).getLsbD 4 = true)

/-- A divergence record of the words `ws` has been written (R350, R360). -/
def Recorded (s t : State) (ws : List Nat) : Prop :=
  t.getF R.TRC_DIV_CNT F.TRC_DIV_CNT_N = satAdd 32 (s.getF R.TRC_DIV_CNT F.TRC_DIV_CNT_N) 1 ∧
  (t.reg (R.PAGE_IRQ_RAW 0x040)).getLsbD 2 = true ∧
  (s.trc.q.length < 1024 → t.trc.q = s.trc.q ++ [(s.cap.ts, ws)] ∧ t.reg R.TRC_Q_LOST = s.reg R.TRC_Q_LOST) ∧
  (1024 ≤ s.trc.q.length → t.trc.q = s.trc.q ∧ (t.reg (R.PAGE_IRQ_RAW 0x040)).getLsbD 3 = true ∧
    t.getF R.TRC_Q_LOST F.TRC_Q_LOST_N = satAdd 32 (s.getF R.TRC_Q_LOST F.TRC_Q_LOST_N) 1)

/-- Registers that tracing writes: TRC.STANDw; the counters of records; the skew maxima. -/
def standRegs (b : Nat) : Prop := (0x40180 ≤ b ∧ b < 0x401B0) ∨ b = R.PAGE_IRQ_RAW 0x040
def recRegs (b : Nat) : Prop := b = R.TRC_DIV_CNT ∨ b = R.TRC_Q_LOST ∨ standRegs b

/-- A step is the front command's effect on the state with the rest of the queue, and every command is answered with a next
state. The queue is the model's own form of the commands from outside (spec/00_overview.md gives the block no program). -/
def Obligations.StepPerformsFront : Prop :=
  (∀ (s : State) (c : Instr) (rest : List Instr), s.pending = c :: rest → step s = exec c { s with pending := rest }) ∧
  (∀ (s : State) (c : Instr), ∃ t, exec c s = .next t)

/-- On an empty queue one oscillator cycle passes (the model's choice, log entry 100): the timestamp counts it (R127), and
beside it only the capture timestamp with its samples and the TDC timebases may move (R288, R370). -/
def Obligations.IdleStepCounts : Prop :=
  ∀ s : State, s.pending = [] → ∃ t, step s = .next t ∧ t.root = { s.root with ts := (s.root.ts + 1) % 2 ^ 48 } ∧
    t = { s with root := t.root, cap := capTicked s.cap t.cap, tdc := { s.tdc with tb := t.tdc.tb } }

/-- No queue of a TDC channel or of a UART holds more than its size (R377, R505, R506). An overflow kept for a read in the same
generator cycle (R390) is one entry longer: the read takes its oldest. -/
def QueuesFit (s : State) : Prop :=
  (∀ e ∈ s.tdc.q, e.2.length ≤ 1024) ∧ (∀ e ∈ s.tdc.late, ∀ o, e.2 = some o → o.q.length ≤ 1025) ∧
  ∀ e ∈ s.uart.port, e.2.q.length ≤ 64 ∧ e.2.txq.length ≤ 64

/-- State.reset: registers at their reset values (Table 0.3), levels 0 (R101), every domain on (R53), nothing in flight. The
erased flash and the unprogrammed OTP are the model's choices (log entries 8 and 90). -/
def Obligations.ResetState : Prop :=
  let s := State.reset
  (∀ a, s.reg a = resetOf a) ∧ (∀ p, levelOf s p = 0) ∧ (∀ a, s.staged a = s.reg a) ∧ s.root.cPhase = .idle ∧
  (∀ d, domSt s d = 0) ∧ s.nib.src = [] ∧ s.nib.haltBall = false ∧ s.mem.slot = [] ∧ s.mem.eph = none ∧ s.dl.lane = [] ∧
  s.pending = [] ∧ QueuesFit s ∧ s.mon.pwh = none ∧ s.mon.key = none ∧ s.phase = .reset ∧ (∀ a, resetOf a = 0 ∨ (regFields a).isSome)

/-- R547: each OTP item can be programmed once in the life of the part. Whatever is performed, a programmed item stays. -/
def Obligations.OtpFixedForLife : Prop :=
  ∀ s t : State, step s = .next t →
    (∀ h, s.mon.pwh = some h → t.mon.pwh = some h) ∧ (∀ k, s.mon.key = some k → t.mon.key = some k)

/-- The queue after a step is the queue before it without its first command, whatever the command does. HALT is high in the
halt and in no other phase (R558, R570), and every queue of R377, R505 and R506 fits its size: every step keeps both, from
any state that has them. -/
def Obligations.QueueFirstInFirstOut : Prop :=
  (∀ s t : State, step s = .next t → t.pending = s.pending.drop 1) ∧
  (∀ s t : State, (s.nib.haltBall = true ↔ s.phase = .halt) → step s = .next t → (t.nib.haltBall = true ↔ t.phase = .halt)) ∧
  (∀ s t : State, QueuesFit s → step s = .next t → QueuesFit t)

/-- Every source of Table 3.1 but the power-on: the full reset of R570 with its own bit for RST_CAUSE. -/
def Obligations.FullResetByPinsAndRails : Prop :=
  (∀ s : State, s.pwr.rstN = true →
    ∃ t, exec .rstNAssert s = .next t ∧ FullResetLeaves s t 2 ∧ t.pwr.rstN = false ∧ t.pwr.good = s.pwr.good) ∧
  (∀ (s : State) (r : Fin 13), bitOf s.pwr.armed r = true → r ≠ 0 →
    ∃ t, exec (.railLoss r) s = .next t ∧
      FullResetLeaves (s.setN R.PWR_RAIL_LOSS (s.regN R.PWR_RAIL_LOSS ||| 2 ^ r.val)) t 4 ∧
      t.regN R.PWR_RAIL_LOSS = (s.regN R.PWR_RAIL_LOSS ||| 2 ^ r.val) % 2 ^ 32 ∧ t.pwr.rstN = s.pwr.rstN) ∧
  (∀ (s : State) (p : Path), s.root.resetReq = some p → s.phase ≠ .reset →
    (p = .mon → s.mon.line = none ∧ s.mon.reply = 0) → (p = .dlnk → cplWaits s = false) →
    ∃ t, exec .sysResetAssert s = .next t ∧ FullResetLeaves s t 8) ∧
  (∀ s : State, s.mon.resetReq = true → s.mon.reply = 0 → s.mon.line = none → s.phase ≠ .reset →
    ∃ t, exec .monResetAssert s = .next t ∧ FullResetLeaves s t 16)

/-- R39, R64, R126 and the power-on column of Table 19.3. -/
def Obligations.PowerOnClears : Prop :=
  ∀ s : State, ∃ t, exec .powerOn s = .next t ∧
    t = { State.reset with
      pending := s.pending, freeCtr := s.freeCtr, pwr := t.pwr, mem := { noMem with epoch := t.mem.epoch }
      cfg := { State.reset.cfg with flash := s.cfg.flash }
      nib := { State.reset.nib with field := s.nib.field, cmp := s.nib.cmp }
      mon := { noMon with pwh := s.mon.pwh, key := s.mon.key } } ∧
    (∀ a, t.reg a = resetOf a) ∧ t.root.ts = 0 ∧ bitOf t.pwr.good 0 = false ∧ t.pwr.armed = 0 ∧ t.pwr.causeNew = 1 ∧
    t.pwr.causeRead = 0 ∧ t.pwr.rstN = s.pwr.rstN ∧ ∀ r, bitOf t.pwr.good (r + 1) = bitOf s.pwr.good (r + 1)

/-- Every nib reads its pad again, as the supplies in `s` now leave it (R34, R188): on a running bank clock the input register
holds the comparator's output; nothing else changes. -/
def PadsFollow (s t : State) : Prop :=
  (s.phase = .reset → t = s) ∧
  (s.phase ≠ .reset → ∀ n < 336, bankRuns s (n / 48) = true → nibIn t n = tabGet (fun _ => false) t.nib.cmp n) ∧
  regsKept (fun a => ∃ i < 7, a = R.UART_STAT (i + 1)) s t ∧
  t = { s with regs := t.regs, freeCtr := t.freeCtr, uart := t.uart, nib := nibSensed s.nib t.nib }

/-- Supplies (R32 to R38) and the release of RST_N (R258, R554). A rail that comes good out of order or out of limits is a breach;
when a breach of a device that had left its reset ends with every rail good, the device is held in reset again (R37). That no
source of Table 3.1 is noted for it is the model's choice (log entry 22). -/
def Obligations.RailsAndRelease : Prop :=
  (∀ (s : State) (r : Fin 13) (ok : Bool), bitOf s.pwr.good r = false →
    let breaks := s.pwr.breach = true ∨ ok = false ∨ (r.val = 1 ∧ bitOf s.pwr.good 0 = false) ∨
      (r.val = 2 ∧ s.pwr.good % 4 ≠ 3) ∨ (3 ≤ r.val ∧ s.pwr.good % 8 ≠ 7)
    ∃ t, exec (.railGood r ok) s = .next t ∧ t.pwr.good = s.pwr.good + 2 ^ r.val ∧
      (bitOf s.pwr.good 0 = true → r ≠ 0 → t.pwr.armed = s.pwr.armed ||| 2 ^ r.val) ∧
      (r = 0 → t.pwr.armed = t.pwr.good) ∧
      (t.pwr.breach = true ↔ breaks ∧ t.pwr.good ≠ 0x1FFF ∧ t.pwr.good ≠ 0) ∧
      (breaks → t.pwr.good = 0x1FFF → s.phase ≠ .reset → FullResetLeaves { s with pwr := t.pwr } t 0) ∧
      (¬ (breaks ∧ t.pwr.good = 0x1FFF ∧ s.phase ≠ .reset) →
        t.pwr = { s.pwr with good := t.pwr.good, armed := t.pwr.armed, breach := t.pwr.breach } ∧ PadsFollow { s with pwr := t.pwr } t)) ∧
  (∀ (s : State) (r : Fin 13) (ok : Bool), bitOf s.pwr.good r = true → r ≠ 0 →
    ∃ t, exec (.railBelowGood r ok) s = .next t ∧ t.pwr.good = s.pwr.good - 2 ^ r.val ∧
      t.pwr = { s.pwr with good := t.pwr.good, breach := t.pwr.breach } ∧ PadsFollow { s with pwr := t.pwr } t ∧
      (t.pwr.breach = true ↔ (s.pwr.breach = true ∨ ok = false) ∧ t.pwr.good ≠ 0x1FFF ∧ t.pwr.good ≠ 0)) ∧
  (∀ (s : State) (prog : List (Nat × List Byte)), s.pwr.rstN = false →
    exec (.rstNRelease prog) s = .next { s with
      pwr := { s.pwr with rstN := true }, tap := { s.tap with ir := Config.irIdcode },
      cfg := { s.cfg with flash := prog.foldl (fun m r => tabSetRun (fun _ => 0xFF#8) m r.1 r.2) s.cfg.flash } })

/-- R63, R64, R77, R459: the start of Steep. The sequencer takes the REF0 monitor and PLL0 where REF0_KHZ gives a setting of R77, and
works from the oscillator where not. Whether the random generator passes its health test is a free value (log entry 91); that the
monitor of REF0 is left alone where no setting of PLL0 meets R77 is the model's choice (log entry 28). -/
def Obligations.SteepBegins : Prop :=
  ∀ s : State, s.phase = .reset → s.pwr.good = 0x1FFF → s.pwr.rstN = true →
    let khz := surveyKhz s
    let set := if 5000 ≤ khz ∧ khz ≤ 400000 then steepSetting khz else none
    ∃ t, exec .steepStart s = .next t ∧ t.phase = .steep ∧
      t.regN R.SURV_RST_CAUSE =
        ((s.regN R.SURV_RST_CAUSE - (s.regN R.SURV_RST_CAUSE &&& s.pwr.causeRead)) ||| s.pwr.causeNew) % 2 ^ 32 ∧
      t.pwr = { s.pwr with causeNew := 0, causeRead := 0 } ∧
      t.surv = { State.reset.surv with t0 := s.root.ts, lanes := sigLanes s, usePll := set.isSome } ∧
      t.flag R.XTS_STAT F.XTS_STAT_EPH_KEY = s.flag R.XTS_STAT F.XTS_STAT_EPH_KEY ∧
      (set = none → t.flag R.SURV_STATUS F.SURV_STATUS_CLK_OSC = true ∧ t.clk = s.clk ∧
        regsKept (fun a => a = R.SURV_RST_CAUSE ∨ a = R.XTS_STAT ∨ a = R.SURV_STATUS ∨ ∃ i < 7, a = R.UART_STAT (i + 1)) s t) ∧
      (∀ m o f, set = some (m, o, f) →
        t.reg (R.CLK_REF_CTRL 0) = 0x201#32 ∧ t.reg (R.CLK_REF_EXP 0) = BitVec.ofNat 32 ((khz * 16384 + 25000) / 50000) ∧
        t.reg (R.CLK_REF_TOL 0) = 25000#32 ∧ t.reg (R.CLK_PLL_DIV 0) = BitVec.ofNat 32 (m + 65536 * f) ∧
        t.reg (R.CLK_PLL_OUTDIV 0) = BitVec.ofNat 32 o ∧ t.reg (R.CLK_PLL_REFSEL 0) = 0x200001#32 ∧
        t.reg (R.CLK_PLL_LOCK 0) = 100#32 ∧ t.reg (R.CLK_PLL_CTRL 0) = 1#32 ∧ pllSt t 0 = 1 ∧
        t.clk = { s.clk with pll := t.clk.pll } ∧ (∀ k, k ≠ 0 → pllX t k = pllX s k) ∧
        regsKept (fun a => a = R.SURV_RST_CAUSE ∨ a = R.XTS_STAT ∨ (∃ i < 7, a = R.UART_STAT (i + 1)) ∨ a = R.PAGE_IRQ_RAW 0x004 ∨
          (0x4100 ≤ a ∧ a < 0x4140) ∨ (0x4040 ≤ a ∧ a < 0x4050)) s t) ∧
      t = { s with
        phase := t.phase, regs := t.regs, pwr := t.pwr, surv := t.surv, clk := t.clk, freeCtr := t.freeCtr
        nib := nibSensed s.nib t.nib, uart := t.uart }

/-- R80, R81, R457, R459: what the check of header and signature block leaves; R77 and R385: PLL0 does not lock in time. -/
def Obligations.SteepFirstStep : Prop :=
  (∀ s : State, s.phase = .steep → stepDone s 1 = false →
    ∃ t, exec .steepHeaderCheck s = .next t ∧ stepDone t 1 = true ∧ t.phase = .steep ∧
      (headerOk s = false →
        t = { s with
          surv := { s.surv with done := s.surv.done ||| 2 }, cfg := { s.cfg with read := some (0, 256) }, regs := t.regs } ∧
        t.flag R.SURV_STATUS F.SURV_STATUS_HEADER_BAD = true ∧ regsKept (fun a => a = R.SURV_STATUS) s t) ∧
      (headerOk s = true → t.cfg = { s.cfg with read := some (sigAddr s, 16 + 16 * sigCount s) } ∧
        ∀ k < 7, t.getF (R.NIB_BANK_STAT k) F.NIB_BANK_STAT_VCCIO = hdrWord s 11 / 4 ^ k % 4) ∧
      (headerOk s = true → signatureOk s = false →
        t = { s with
          surv := { s.surv with done := s.surv.done ||| 2 }, regs := t.regs, cfg := t.cfg, freeCtr := t.freeCtr
          nib := nibSensed s.nib t.nib, uart := t.uart } ∧
        t.flag R.SURV_STATUS F.SURV_STATUS_SIG_BAD = true ∧
        regsKept (fun a => a = R.SURV_STATUS ∨ (∃ k < 7, a = R.NIB_BANK_STAT k) ∨ ∃ i < 7, a = R.UART_STAT (i + 1)) s t) ∧
      (headerOk s = true → signatureOk s = true →
        t.surv = { s.surv with
          done := s.surv.done ||| 2, items := (List.range (sigCount s)).map (sigItem s), res := t.surv.res, fixed := t.surv.fixed } ∧
        t.reg R.SURV_ITEM_CNT = BitVec.ofNat 32 (sigCount s) ∧
        (∀ i it, t.surv.items[i]? = some it →
          (it.kind ≠ 5 → itemRes t i = itemRes s i ∧ itemFixed t i = itemFixed s i) ∧
          (it.kind = 5 → 25000 ≤ ref0Khz s ∧ ref0Khz s ≤ 312500 → itemRes t i = itemRes s i ∧ itemFixed t i = itemFixed s i ∧
            laneSt t it.idx = 1 ∧ (laneOf t it.idx).su = some (startupMask it.hi)) ∧
          (it.kind = 5 → ¬ (25000 ≤ ref0Khz s ∧ ref0Khz s ≤ 312500) → itemRes t i = ⟨0, 5, 0, 0⟩ ∧ itemFixed t i = true)) ∧
        regsKept (fun a => a = R.SURV_ITEM_CNT ∨ (∃ k < 7, a = R.NIB_BANK_STAT k) ∨ (∃ i < 7, a = R.UART_STAT (i + 1)) ∨
          ∃ n < 8, a = R.LANE_STAT n ∨ a = R.LANE_TAPS n ∨ a = R.LANE_EYE n) s t ∧
        t = { s with
          surv := t.surv, regs := t.regs, cfg := t.cfg, freeCtr := t.freeCtr, nib := nibSensed s.nib t.nib, uart := t.uart
          dl := { s.dl with lane := t.dl.lane } })) ∧
  (∀ s : State, s.phase = .steep → s.surv.usePll = true → pllRuns s 0 = false →
    ∃ t, exec .steepPll0LockTimeout s = .next t ∧ genActive t 58 = 1 ∧ genMhz t 58 = 50 ∧
      t.flag R.SURV_STATUS F.SURV_STATUS_CLK_OSC = true ∧ t.surv = { s.surv with usePll := false } ∧
      ClocksOnly { s with surv := t.surv } t (fun a => a = R.SURV_STATUS ∨ a = R.ISL_GEN_STAT 58 ∨
        ∃ f ∈ followers s 58, a = R.ISL_GEN_STAT f))

/-- R69, R79, R86: readings and the results they give. -/
def Obligations.SteepReadings : Prop :=
  let given (mv : List Nat) (it : SurvItem) : SurvRes := ⟨0, limitOutcome it (atD 0 mv it.idx), atD 0 mv it.idx, 0⟩
  let only (s t : State) : Prop := t = { s with surv := { s.surv with
    done := t.surv.done, rails := t.surv.rails, fsense := t.surv.fsense, idle := t.surv.idle, res := t.surv.res, fixed := t.surv.fixed } }
  (∀ (s : State) (mv : List Nat), s.phase = .steep → stepDone s 1 = true → stepDone s 2 = false → mv.length = 13 →
    ∃ t, exec (.railSurvey mv) s = .next t ∧ only s t ∧ stepDone t 2 = true ∧ t.surv.rails = listTab mv ∧
      ∀ i it, s.surv.items[i]? = some it →
        (it.kind = 1 → itemRes t i = given mv it ∧ itemFixed t i = true) ∧
        (it.kind = 3 ∨ it.kind = 4 → bankSkipped t (it.idx / 48) = true → itemRes t i = ⟨0, 5, 0, 0⟩ ∧ itemFixed t i = true) ∧
        (it.kind ≠ 1 → ¬ ((it.kind = 3 ∨ it.kind = 4) ∧ bankSkipped t (it.idx / 48) = true) →
          itemRes t i = itemRes s i ∧ itemFixed t i = itemFixed s i)) ∧
  (∀ (s : State) (mv : List Nat), s.phase = .steep → stepDone s 2 = true → stepDone s 3 = false → mv.length = 8 →
    ∃ t, exec (.fsenseSurvey mv) s = .next t ∧ only s t ∧ stepDone t 3 = true ∧ t.surv.fsense = listTab (mv.map (16 * ·)) ∧
      ∀ i it, s.surv.items[i]? = some it →
        (it.kind = 2 → itemRes t i = given (mv.map (16 * ·)) it ∧ itemFixed t i = true) ∧
        (it.kind ≠ 2 → itemRes t i = itemRes s i ∧ itemFixed t i = itemFixed s i)) ∧
  (∀ (s : State) (mv : List Nat), s.phase = .steep → stepDone s 3 = true → stepDone s 4 = false → mv.length = 336 →
    ∃ t, exec (.nibIdleSurvey mv) s = .next t ∧ only s t ∧ stepDone t 4 = true ∧ t.surv.idle = listTab mv ∧
      ∀ i it, s.surv.items[i]? = some it →
        (it.kind = 6 → itemRes t i = given mv it ∧ itemFixed t i = true) ∧
        (it.kind ≠ 6 → itemRes t i = itemRes s i ∧ itemFixed t i = itemFixed s i)) ∧
  (∀ (s : State) (n : Fin 8) (i : Nat) (it : SurvItem), s.phase = .steep → stepDone s 1 = true →
    findItem s 5 n = some (i, it) → itemFixed s i = false →
    ∃ t, exec (.steepLaneResult n) s = .next t ∧ only s t ∧ t.surv.done = s.surv.done ∧ itemFixed t i = true ∧
      itemRes t i = laneResult s n it ∧ ∀ j, j ≠ i → itemRes t j = itemRes s j ∧ itemFixed t j = itemFixed s j)

/-- Nib `n` of `t` is under survey with code `code` (R16, R66 to R68): its pull-down is disconnected, and with every rail good it
carries the stimulus, bounded at code × VCCIO / 16; its pad has been read back. -/
def SurveyedNib (s t : State) (n code : Nat) : Prop :=
  (∀ m, m ≠ n → tabGet (fun _ => false) t.nib.cmp m = tabGet (fun _ => false) s.nib.cmp m ∧ nibIn t m = nibIn s m) ∧
  (bankRuns s (n / 48) = true → nibIn t n = tabGet (fun _ => false) t.nib.cmp n) ∧
  ((n, code) ∈ t.surv.under → (bankArmed s (n / 48) = false → (padOf t n).pull = false) ∧
    (allGood s = true → (padOf t n).stim = some ((code * bankMv s (n / 48) + 15) / 16))) ∧
  regsKept (fun a => ∃ i < 7, a = R.UART_STAT (i + 1)) s t

/-- R16, R66 to R68, R70 to R72 and R74: how a load item and a cable item come by their results, and the stimulus that their nib
carries, its pull-down disconnected, until then. The model's own readings (log entry 28): a nib settles on its first clean run,
else it takes two agreeing clean runs in a row, and equal classes more than 5 % of the larger value apart do not agree; which 1
mA reading SHORT takes; that OPEN goes before SHORT; how the length and the round trip are rounded; and the class and value that
go with UNSTABLE, which are not stated. -/
def Obligations.LoadAndCableItems : Prop :=
  (∀ (s : State) (nib : Fin 336) (rd : List (Nat × Nat)) (i : Nat) (it : SurvItem) (r : Nat × Nat × Nat),
    s.phase = .steep → stepDone s 4 = true → findItem s 3 nib = some (i, it) → itemFixed s i = false →
    (∀ e ∈ s.surv.under, e.1 ≠ nib.val → e.1 / 48 ≠ nib.val / 48) → readingsOk s nib (itemCode it) rd = true →
    stopAt (itemCode it) (bankMv s (nib.val / 48)) 0 rd = some r →
    let vio := bankMv s (nib.val / 48)
    let v0 := tabGet (fun _ => 0) s.surv.idle nib
    let old := tabGet (fun _ => []) s.surv.runs nib
    let falls := fallingRun (itemCode it) vio (r.1 + 1) rd
    let c := classifyRun (itemCode it) vio v0 (rd.headD (0, 0)).2 r
    let settled := falls = false ∧ ∀ p l, old = p :: l → p.1 ≠ 15 ∧ runsAgree p c = true
    ∃ t, exec (.loadSurveyRun nib rd) s = .next t ∧
      t = { s with
        surv := { s.surv with runs := t.surv.runs, res := t.surv.res, fixed := t.surv.fixed, under := t.surv.under }
        nib := { s.nib with cmp := t.nib.cmp, inReg := t.nib.inReg }, regs := t.regs, uart := t.uart, freeCtr := t.freeCtr } ∧
      SurveyedNib s t nib (itemCode it) ∧
      (∀ e, e ∈ t.surv.under ↔
        (e ∈ s.surv.under ∧ e.1 ≠ nib.val) ∨ (e = (nib.val, itemCode it) ∧ itemFixed t i = false)) ∧
      tabGet (fun _ => []) t.surv.runs nib = (if falls then (15, 0) else c) :: old ∧
      (∀ n, n ≠ nib.val → tabGet (fun _ => []) t.surv.runs n = tabGet (fun _ => []) s.surv.runs n) ∧
      (∀ j, j ≠ i → itemRes t j = itemRes s j ∧ itemFixed t j = itemFixed s j) ∧
      (settled → itemFixed t i = true ∧ itemRes t i = loadResult it v0 false c) ∧
      (¬ settled → 3 ≤ old.length → itemFixed t i = true ∧ (itemRes t i).out = 4 ∧ (itemRes t i).aux = v0) ∧
      (¬ settled → old.length < 3 → itemFixed t i = false ∧ itemRes t i = itemRes s i)) ∧
  (∀ (s : State) (nib : Fin 336) (shots : List Nat) (fin : CableEnd) (i : Nat) (it : SurvItem),
    s.phase = .steep → stepDone s 4 = true → bankLoadsDone s (nib.val / 48) = true → findItem s 4 nib = some (i, it) →
    itemFixed s i = false → (∀ e ∈ s.surv.under, e.1 ≠ nib.val → e.1 / 48 ≠ nib.val / 48) → shots ≠ [] →
    (shotsOf s nib ++ shots).length ≤ 64 → (s.surv.usePll = true → pllRuns s 0 = true) →
    let taken := shotsOf s nib ++ shots
    let cls := match fin with | .open => 0 | .short => 1 | .none => 2
    let sum := if fin = .none then 0 else taken.foldl (· + ·) 0
    ∃ t, exec (.cableSurvey nib shots fin) s = .next t ∧
      t = { s with
        surv := { s.surv with shots := t.surv.shots, res := t.surv.res, fixed := t.surv.fixed, under := t.surv.under }
        nib := { s.nib with cmp := t.nib.cmp, inReg := t.nib.inReg }, regs := t.regs, uart := t.uart, freeCtr := t.freeCtr } ∧
      SurveyedNib s t nib (itemCode it) ∧
      (∀ e, e ∈ t.surv.under ↔
        (e ∈ s.surv.under ∧ e.1 ≠ nib.val) ∨ (e = (nib.val, itemCode it) ∧ taken.length < 64)) ∧
      (∀ m, shotsOf t m = if m = nib.val then taken else shotsOf s m) ∧
      (taken.length < 64 → itemFixed t i = false ∧ itemRes t i = itemRes s i) ∧
      (taken.length = 64 →
        itemFixed t i = true ∧ (itemRes t i).cls = cls ∧ (itemRes t i).val = cableMm (it.param % 65536) sum ∧
        (itemRes t i).aux = (sum + 32) / 64 ∧ (cls = 2 → bitOf (itemMask it) cls = true → (itemRes t i).out = 0) ∧
        ((itemRes t i).out = 3 ↔ bitOf (itemMask it) cls = false) ∧
        (bitOf (itemMask it) cls = true → cls ≠ 2 → (itemRes t i).out = limitOutcome it (cableMm (it.param % 65536) sum))) ∧
      ∀ j, j ≠ i → itemRes t j = itemRes s j ∧ itemFixed t j = itemFixed s j)

/-- Steep of `s` ends in `t` (R77, R79, R81, R84, R87, R385, R386): DONE and the count of mismatches, the interrupts, PLL0 and the
monitor of REF0 at their reset values, generator 58 on the oscillator; the duration of Steep is kept for Kiln. -/
def SteepLeft (s t : State) : Prop :=
  t.flag R.SURV_STATUS F.SURV_STATUS_DONE = true ∧ t.regN R.SURV_MISMATCH_CNT = (mismatches s).length % 2 ^ 32 ∧
  (t.reg (R.PAGE_IRQ_RAW 0x003)).getLsbD 0 = true ∧
  (mismatches s ≠ [] → t.flag R.SURV_STATUS F.SURV_STATUS_MISMATCH = true ∧ (t.reg (R.PAGE_IRQ_RAW 0x003)).getLsbD 1 = true) ∧
  (∀ a, 0x4100 ≤ a → a < 0x4140 → t.reg a = resetOf a) ∧ (∀ a, 0x4040 ≤ a → a < 0x4050 → t.reg a = resetOf a) ∧
  genActive t 58 = 1 ∧ genMhz t 58 = 50 ∧ pllX t 0 = noPll ∧ (∀ k, k ≠ 0 → pllX t k = pllX s k) ∧
  t.surv = { s.surv with durSteep := (s.root.ts + 2 ^ 48 - s.surv.t0) % 2 ^ 48 / 50 % 2 ^ 32 } ∧
  t.clk = { s.clk with pll := t.clk.pll, goodWin := t.clk.goodWin, disq := t.clk.disq } ∧
  ClocksOnly { s with phase := t.phase, surv := t.surv, clk := t.clk } t (fun a => a = R.SURV_STATUS ∨ a = R.SURV_MISMATCH_CNT ∨
    a = R.PAGE_IRQ_RAW 0x003 ∨ a = R.ISL_GEN_STAT 58 ∨ (∃ f ∈ followers s 58, a = R.ISL_GEN_STAT f) ∨
    (0x4100 ≤ a ∧ a < 0x4140) ∨ (0x4040 ≤ a ∧ a < 0x4050))

/-- R77, R79, R81, R84, R87, R88: the ways out of Steep; R265: the first way out of Germinate. -/
def Obligations.SteepEnds : Prop :=
  (∀ s : State, s.phase = .steep → steepDone s = true → (checkFailed s = true ∨ mismatches s ≠ []) →
    ∃ t, exec .steepEnd s = .next t ∧ t.phase = .steepHold ∧ SteepLeft s t) ∧
  (∀ s : State, s.phase = .steep → steepDone s = true → checkFailed s = false → mismatches s = [] →
    ∃ u, exec .steepEnd s = .next (germinate u) ∧ u.phase = .steep ∧ SteepLeft s u) ∧
  (∀ (s : State) (p : Path) (w : Word), accepts s p R.SURV_OVERRIDE w = true → bitOf w.toNat 0 = true →
    s.phase = .steepHold → checkFailed s = false → s.flag R.SURV_STATUS F.SURV_STATUS_MISMATCH = true →
    exec (.surveyOverride p w) s =
      .next (written (germinate ((enterSlot s p).setF R.SURV_STATUS F.SURV_STATUS_OVERRIDDEN 1)) p R.SURV_OVERRIDE)) ∧
  (∀ (s : State) (p : Path) (w : Word), accepts s p R.SURV_OVERRIDE w = true → bitOf w.toNat 0 = true →
    (s.phase ≠ .steepHold → Refused s p R.SURV_OVERRIDE 0x01 (exec (.surveyOverride p w) s)) ∧
    (s.phase = .steepHold → checkFailed s = true ∨ s.flag R.SURV_STATUS F.SURV_STATUS_MISMATCH = false →
      Refused s p R.SURV_OVERRIDE 0x02 (exec (.surveyOverride p w) s))) ∧
  (∀ u : State, devReason u ≠ 0 → let t := germinate u
    t.phase = .germFail ∧ t.getF R.CFGC_GERM_ERR F.CFGC_GERM_ERR_REASON = devReason u ∧
    t.getF R.CFGC_GERM_ERR F.CFGC_GERM_ERR_ISL = 0x3F ∧ (t.reg (R.PAGE_IRQ_RAW 0x003)).getLsbD 2 = true ∧
    t.regN R.CFGC_DESIGN_ID = hdrWord u 2 ∧ t.regN R.CFGC_IMG_INFO = hdrWord u 10 ∧
    regsKept (fun a => a ∈ [R.CFGC_DESIGN_ID, R.CFGC_IMG_INFO, R.CFGC_FILLED0, R.CFGC_FILLED1, R.CFGC_CRIT0, R.CFGC_CRIT1,
      R.CFGC_GERM_ERR, R.PAGE_IRQ_RAW 0x003]) u t ∧
    t = { u with phase := t.phase, regs := t.regs, surv := { u.surv with t0 := u.root.ts }, cfg := { u.cfg with read := t.cfg.read } })

/-- R263, R264 steps 4 and 5, R267, R50. That an island whose domain is off fails with REASON 6 is the model's choice (log entry
44): the specification does not say what Germinate does with it. -/
def Obligations.GerminateLoadsIslands : Prop :=
  ∀ (s : State) (x : Fin 48) (bad : Option (Fin 1024)) (rest : List Nat),
    s.phase = .germinate → s.surv.toLoad = x.val :: rest →
    let addr := hdrWord s (16 + x)
    let bs := flashBytes s (addr + 32) 262144
    let why := if domOn s x = false then 6 else if sectionHeaderOk s x addr = false then 4
      else if (crc32 bs).toNat ≠ flashWord s (addr + 12) then 5 else if bad.isSome then 6 else 0
    ∃ t, exec (.germinateIslandLoad x bad) s = .next t ∧ t.surv.toLoad = rest ∧
      (why = 0 → islSrcOf t x = addr ∧ verified t x = true ∧ t.cfg.flash = s.cfg.flash ∧ t.cfg.read = some (addr, 262176)) ∧
      (why = 0 → rest ≠ [] → t.phase = .germinate ∧ t.surv = { s.surv with toLoad := rest } ∧ FramesLoaded s t x addr ∧
        regsKept (fun a => a = R.CFGC_VERIFIED0 + 4 * (x.val / 32)) s t ∧
        t = { s with
          freeCtr := t.freeCtr, regs := t.regs, surv := t.surv
          cfg := { s.cfg with mem := t.cfg.mem, islSrc := t.cfg.islSrc, read := t.cfg.read }
          fab := { s.fab with
            ff := t.fab.ff, bram := t.fab.bram, hs := t.fab.hs, port := t.fab.port, probe := t.fab.probe } }) ∧
      (why = 0 → rest = [] → t.phase = .kiln ∧ t.surv.t0 = s.root.ts ∧ t.root = s.root ∧
        t.surv.durGerm = (s.root.ts + 2 ^ 48 - s.surv.t0) % 2 ^ 48 / 50 % 2 ^ 32 ∧
        (∀ y < 48, fenced t y = !hdrFilled s y) ∧ (hdrFilled s x = true → drained t x = false)) ∧
      (why ≠ 0 → t.phase = .germFail ∧
        t.regN R.CFGC_GERM_ERR = why + 2 ^ 16 * x.val ∧ (t.reg (R.PAGE_IRQ_RAW 0x003)).getLsbD 2 = true ∧
        t.surv = { s.surv with toLoad := rest } ∧ regsKept (fun a => a = R.CFGC_GERM_ERR ∨ a = R.PAGE_IRQ_RAW 0x003) s t)

/-- What entry to Run leaves (R84, R102, Table 3.2). That the three durations are written then, and not before, is the model's
choice (log entry 28). -/
def EntersRun (s t : State) : Prop :=
  t.phase = .run ∧ t.surv.toArm = some [] ∧ levelOf t .fab = t.getF R.CFGC_IMG_INFO F.CFGC_IMG_INFO_FAB_LEVEL ∧
  t.regN R.SURV_DUR_STEEP = s.surv.durSteep % 2 ^ 32 ∧ t.regN R.SURV_DUR_GERM = s.surv.durGerm % 2 ^ 32 ∧
  t.regN R.SURV_DUR_KILN = (s.root.ts + 2 ^ 48 - s.surv.t0) % 2 ^ 48 / 50 % 2 ^ 32 ∧
  (t.reg (R.PAGE_IRQ_RAW 0x003)).getLsbD 3 = true

/-- R82, R83, R188 and R527: Kiln's two results, its time-out and the arming. -/
def Obligations.KilnAndRun : Prop :=
  (∀ s : State, s.phase = .kiln → bistState s ≠ 1 → s.surv.selfTestOk = false →
    (kilnFailed s = true → exec .kilnSelftestResult s = .next (({ s with phase := .kilnFail }).irqBit 0x003 2)) ∧
    (kilnFailed s = false → exec .kilnSelftestResult s = .next { s with surv := { s.surv with selfTestOk := true } })) ∧
  (∀ s : State, s.phase = .kiln → s.surv.selfTestOk = true → s.surv.toArm = none →
    let banks := (List.range 7).filter (bankHasOutput s)
    (bankPllsLocked s = false → exec .kilnLockTimeout s = .next (({ s with phase := .kilnFail }).irqBit 0x003 2)) ∧
    (bankPllsLocked s = true → banks ≠ [] → exec .kilnArm s = .next { s with
      nib := { s.nib with latched := true }, surv := { s.surv with toArm := some banks } }) ∧
    (bankPllsLocked s = true → banks = [] → ∃ t, exec .kilnArm s = .next t ∧ t.nib = { s.nib with latched := true } ∧ EntersRun s t)) ∧
  (∀ (s : State) (k : Fin 7) (ks : List Nat), s.phase = .kiln → s.surv.toArm = some (k.val :: ks) → bankRuns s k = true →
    ∃ t, exec (.bankArm k) s = .next t ∧ bankArmed t k = true ∧
      (∀ n, n / 48 = k.val → isOutput s n = true → nibSrc t n = nibDecl s n F.NIB_NIB_DECL_INIT) ∧
      (∀ n, n / 48 ≠ k.val → nibSrc t n = nibSrc s n ∧ nibOutD t n = nibOutD s n ∧ nibOutE t n = nibOutE s n ∧
        nibIn t n = nibIn s n) ∧
      (∀ n, isOutput s n = false → nibSrc t n = nibSrc s n ∧ nibIn t n = nibIn s n) ∧
      (ks ≠ [] → t.phase = .kiln ∧ t.surv = { s.surv with toArm := some ks } ∧
        regsKept (fun a => a = R.NIB_BANK_STAT k ∨ ∃ i < 7, a = R.UART_STAT (i + 1)) s t ∧
        t = { s with
          regs := t.regs, surv := t.surv, freeCtr := t.freeCtr, uart := t.uart
          nib := { nibSensed s.nib t.nib with src := t.nib.src } }) ∧
      (ks = [] → EntersRun s t))

/-- A read of the register at `a` on path `p` returns what is stored: it is no count and no latched half of one, it is computed at no read, and
the read has no effect of its own (R127, R288, R322, R342, R361, R378, R505). -/
def storedReg (s : State) (p : Path) (a : Nat) (k : PageKind) (i : Nat) : Prop :=
  countAt s a = none ∧ (a < 4 ∨ countAt s (a - 4) = none) ∧ viewOf s p k i (a / 0x1000) (a % 0x1000) = none ∧
  a ∉ [R.SURV_RST_CAUSE, R.INK_WIN_LO, R.INK_WIN_HI, R.QST_W0, R.QST_W1, R.QST_W2, R.TRC_Q_W 0] ∧
  (∀ c < 32, a ≠ R.TDC_CH_Q_W0 c) ∧ ∀ n < 8, n ≠ 0 → a ≠ R.UART_RXQ n

/-- The word that a read returns of the register stored as `v`: a WO field reads as zero (R119). -/
def readsAs (v : Word) (fs : List FieldRow) : Word := v &&& ~~~ BitVec.ofNat 32 (fieldMask (· == .wo) fs)

/-- A word that a violating access would write or read: the user window's checks, or those of a device page (R105, R116). -/
def violates (s : State) (p : Path) (a : Nat) (w : Option Word) : Option VKind :=
  if inWindow a then uwViolation s p a w.isSome else devViolation s p a w

/-- The violation `v` of an access has been logged at VLOG.NEXT (R116, R125, Tables 4.5 and 4.10); `u`: the state in which the access met it. -/
def ViolationLogged (u t : State) (p : Path) (a : Nat) (write : Bool) (v : VKind) : Prop :=
  let i := u.getF R.VLOG_NEXT F.VLOG_NEXT_IDX
  t.reg (R.VLOG_ENT_ADDR i) = BitVec.ofNat 32 (a % 2 ^ 24) ∧
  t.reg (R.VLOG_ENT_INFO i) = BitVec.ofNat 32
    (p.code + 4 * b2n write + 16 * v.code + 256 * levelOf u p + 0x8000 + 0x10000 * (u.root.logSeq % 0x10000)) ∧
  t.reg (R.VLOG_ENT_TS_LO i) = BitVec.ofNat 32 (u.root.ts % 2 ^ 32) ∧
  t.reg (R.VLOG_ENT_TS_HI i) = BitVec.ofNat 32 (u.root.ts / 2 ^ 32 % 2 ^ 16) ∧
  t.regN R.VLOG_COUNT = min (u.regN R.VLOG_COUNT + 1) (2 ^ 32 - 1) ∧ t.regN R.VLOG_NEXT = (i + 1) % 32 ∧
  (t.reg (R.PAGE_IRQ_RAW 0x001)).getLsbD 0 = true ∧ t.root.logSeq = (u.root.logSeq + 1) % 0x10000 ∧
  regsKept (fun b => b = R.VLOG_ENT_ADDR i ∨ b = R.VLOG_ENT_INFO i ∨ b = R.VLOG_ENT_TS_LO i ∨ b = R.VLOG_ENT_TS_HI i ∨
    b = R.VLOG_COUNT ∨ b = R.VLOG_NEXT ∨ b = R.PAGE_IRQ_RAW 0x001) u t

/-- R113 to R115 and R247: admission and the ends of performed accesses; R93, R119: what a read of a stored register returns, alone and in a
burst, whose words come one after the other up to the first that fails (R107, R109). -/
def Obligations.AccessesEnd : Prop :=
  (∀ (s : State) (p : Path), let u := enterSlot s p
    let joins := s.root.ts % 4 = 0 ∧ (s.root.slot ≠ s.root.ts / 4 ∨ s.root.slotTop ≤ p.code)
    u.root.ts % 4 = 0 ∧ u.root.slot = u.root.ts / 4 ∧ u.root.slotTop = p.code + 1 ∧
    (∀ e ∈ u.root.slotWrites, e ∈ s.root.slotWrites) ∧
    (joins → u.root.ts = s.root.ts) ∧ (¬ joins → u.root.ts = (s.root.ts + (4 - s.root.ts % 4)) % 2 ^ 48 ∧ u.root.slotWrites = []) ∧
    u = { s with
      root := { s.root with ts := u.root.ts, slot := u.root.slot, slotTop := u.root.slotTop, slotWrites := u.root.slotWrites }
      cap := capTicked s.cap u.cap, tdc := { s.tdc with tb := u.tdc.tb } }) ∧
  (∀ (u : State) (p : Path) (a : Nat), let t := written u p a
    respOf t p = .ok ∧ (∀ q, q ≠ p → respOf t q = respOf u q ∧ lastData t q = lastData u q) ∧
    regsKept (fun b => b = R.SYS_WRCOLL) u t ∧
    t.getF R.SYS_WRCOLL F.SYS_WRCOLL_COUNT = satAdd F.SYS_WRCOLL_COUNT.w (u.getF R.SYS_WRCOLL F.SYS_WRCOLL_COUNT)
      (if u.root.slotWrites.any (fun e => e.1 == a && e.2 != p.code) then 1 else 0) ∧
    t = { u with
      regs := t.regs, root := { u.root with resp := t.root.resp, data := t.root.data, slotWrites := (a, p.code) :: u.root.slotWrites }
      fab := { u.fab with mp := if p = .fab then .ack 0 else u.fab.mp } }) ∧
  (∀ (u : State) (p : Path) (d : Word), let t := readDone u p d
    respOf t p = .ok ∧ lastData t p = [d] ∧ (∀ q, q ≠ p → respOf t q = respOf u q ∧ lastData t q = lastData u q) ∧
    t = { u with
      root := { u.root with resp := t.root.resp, data := t.root.data }
      fab := { u.fab with mp := if p = .fab then .ack d else u.fab.mp } }) ∧
  (∀ (s : State) (p : Path) (a flip : Nat) (k : PageKind) (i : Nat) (fs : List FieldRow), pageOf (a / 0x1000) = some (k, i) →
    regFields a = some fs → storedReg s p a k i → readReg s p a flip = (s, readsAs (s.reg a) fs)) ∧
  (∀ (s : State) (p : Path) (a : Nat) (ans : List UwAns) (k : PageKind) (i : Nat) (fs : List FieldRow), acceptsRead s p a = true →
    pageOf (a / 0x1000) = some (k, i) → regFields a = some fs → storedReg s p a k i →
    burstRead s p a ans = (enterSlot s p, .ok, readsAs (s.reg a) fs, ans)) ∧
  (∀ (s : State) (p : Path) (n a : Nat) (ans : List UwAns), let x := burstRead s p a ans
    (x.2.1 ≠ .ok → readBurst p (n + 1) 0 a ans s [] = (x.1, [], 0, x.2.1)) ∧
    (x.2.1 = .ok → ∀ t ds i r, readBurst p n 0 ((a + 4) % 2 ^ 24) x.2.2.2 x.1 [] = (t, ds, i, r) →
      readBurst p (n + 1) 0 a ans s [] = (t, x.2.2.1 :: ds, if r = .ok then 0 else i + 1, r))) ∧
  (∀ (s : State) (p : Path) (a : Nat) (w : Word) (ws : List Word) (ans : List UwAns), let x := burstWord s p a w ans
    (x.2.1 ≠ .ok → writeBurst p 0 a (w :: ws) ans s = (x.1, 0, x.2.1)) ∧
    (x.2.1 = .ok → ∀ t i r, writeBurst p 0 ((a + 4) % 2 ^ 24) ws x.2.2 x.1 = (t, i, r) →
      writeBurst p 0 a (w :: ws) ans s = (t, if r = .ok then 0 else i + 1, r)))

/-- R116, R125, Tables 4.5 and 4.10: a violating access is logged, a write as a command of its own and every word of a burst, a `rd` or `wr` line and
a Draught request; then R103, R92, R548 and R95: the level an access needs, and unimplemented registers. -/
def Obligations.ViolationsLogged : Prop :=
  (∀ (s : State) (p : Path) (a : Addr) (w : Word) (v : VKind), canIssue s p = true → served s p = true →
    inWindow a.toNat = false → devViolation s p a.toNat (some w) = some v →
    ∃ t, exec (.registerWrite p a w) s = .next t ∧
      (let u := enterSlot s p
       ViolationLogged u t p a.toNat true v ∧ respOf t p = .violation v ∧ lastData t p = [] ∧
       (∀ q, q ≠ p → respOf t q = respOf s q ∧ lastData t q = lastData s q) ∧
       (a.toNat ≠ R.SYS_RESET → t.root.arm = s.root.arm) ∧
       (a.toNat = R.SYS_RESET → (v = .rsvdField ∨ v = .rsvdValue) → w.toNat % 2 ^ 16 ≠ 0xA55A →
         tabGet (fun _ => none) t.root.arm p.code = none) ∧
       t = { u with
         regs := t.regs
         root := { u.root with
           resp := t.root.resp, data := t.root.data, arm := t.root.arm, logSeq := (s.root.logSeq + 1) % 0x10000 }
         fab := { u.fab with mp := if p = .fab then .err 1 v.code else u.fab.mp } })) ∧
  (∀ (s : State) (p : Path) (a : Nat) (w : Word) (ans : List UwAns) (v : VKind), violates (enterSlot s p) p a (some w) = some v →
    let u := enterSlot s p
    ∃ t, burstWord s p a w ans = (t, .violation v, if inWindow a then ans.drop 1 else ans) ∧ ViolationLogged u t p a true v ∧
      t = { u with regs := t.regs, root := { u.root with arm := t.root.arm, logSeq := t.root.logSeq } }) ∧
  (∀ (s : State) (p : Path) (a : Nat) (ans : List UwAns) (v : VKind), violates (enterSlot s p) p a none = some v →
    let u := enterSlot s p
    ∃ t, burstRead s p a ans = (t, .violation v, 0, if inWindow a then ans.drop 1 else ans) ∧ ViolationLogged u t p a false v ∧
      t = { u with regs := t.regs, root := { u.root with logSeq := t.root.logSeq } }) ∧
  (∀ (s : State) (p : Path) (a : Nat), acceptsRead s p a = true →
    1 ≤ effLevel s p ∨ a % 0x1000 = 0 ∨ a % 0x1000 = 4 ∨ a = 0x040 ∨
      (p = .hsp ∧ (a = 0xB0080 ∨ a = 0xB0084 ∨ (0xB00C0 ≤ a ∧ a < 0xB0100)))) ∧
  (∀ (s : State) (p : Path) (a : Nat) (k : PageKind) (i : Nat) (fs : List FieldRow), pageOf (a / 0x1000) = some (k, i) →
    regFields a = some fs → (p = .fab → inRun s = true) → ulReg k (a % 0x1000) = false → effLevel s p = 0 →
    a % 0x1000 ≠ 0 → a % 0x1000 ≠ 4 → a ≠ 0x040 → devViolation s p a none = some .level) ∧
  (∀ (s : State) (p : Path) (a : Nat) (w : Word), accepts s p a w = true →
    effLevel s p = 2 ∨ 2 < effLevel s p ∨ ((a = 0x3054 ∨ a = 0x3064) ∧ effLevel s p = 1) ∨
      (p = .hsp ∧ (a = 0xB0080 ∨ a = 0xB0084 ∨ (0xB00C0 ≤ a ∧ a < 0xB0100)))) ∧
  (∀ (s : State) (p : Path) (a : Nat) (w : Option Word), regFields a = none → devViolation s p a w = some .unimpl)

/-- A write that is performed leaves `new` in a register that held `old`: RO fields keep theirs, RW and WO fields take the word's bits, and a 1
clears a W1C bit (R118). -/
def Merged (old new w : Word) (fs : List FieldRow) : Prop :=
  ∀ b < 32, new.getLsbD b =
    (((fieldMask (fun y => y == .ro || y == .roh) fs).testBit b && old.getLsbD b) ||
     ((fieldMask (fun y => y == .rw || y == .wo || y == .rws) fs).testBit b && w.getLsbD b) ||
     ((fieldMask (· == .w1c) fs).testBit b && old.getLsbD b && !w.getLsbD b))

/-- The registers of a block that a write only stores, or refuses: all but its command registers, and but those whose write has an effect that a
statement of their own tells. -/
def settingOff (k : PageKind) (off : Nat) : Bool :=
  match k with
  | .sys => off != 0x044 && off != 0x060
  | .surv => off != 0x048
  | .clk => off == 0x080 || (decide (0x100 ≤ off) && decide (0x10 < off % 0x40))
  | .cut => off != 0x040
  | .cfgc => off != 0x06C
  | .blot => off != 0x040 && off != 0x064
  | .cap => off != 0x058
  | .ink => off != 0x054 && off != 0x080
  | .qcx => off != 0x044 && off != 0x084 && !(decide (0x0A0 ≤ off) && decide (off < 0x0D0))
  | .trc => off != 0x040 && off != 0x054
  | .tdc => off != 0x044 && !(decide (0x100 ≤ off) && off % 0x40 == 0)
  | .memc => off != 0x04C && off != 0x090
  | .keys => off != 0x044 && decide (off < 0x100)
  | .dma => !(decide (0x100 ≤ off) && decide (off < 0x300) && off % 0x40 == 0x30)
  | .lane => off != 0x040 && off != 0x044 && off != 0x048 && off != 0x058 && off != 0x060
  | .dlnk => !(decide (0x080 ≤ off) && decide (off < 0x100) && off % 8 == 0)
  | .uart => off != 0x040 && off != 0x054 && off != 0x058
  | .uart0 => off != 0x044
  | .bist => off != 0x04C
  | .mon => off != 0x080
  | .irq => off != 0x044
  | .fi => off != 0x084
  | .vlog => true | .pwr => true | .isl => true | .nib => true | .xts => true
  | .qst => false | .tin => false

/-- Why the block refuses a write that would leave `w` in one of them: R184; Table 9.10 (R293); R303; R340; Table 13.4; R423; R443; R509; R530. -/
def settingCode (s : State) (k : PageKind) (i off w : Nat) : Option Nat :=
  let inkBusy := capActive s || spillBusy s
  match k with
  | .clk => if s.phase = .steep ∧ off = 0x114 then some 0x02 else none
  | .cap => if off ≤ 0x054 ∧ capActive s = true then some 0x01 else none
  | .ink => if inkBusy = true ∧ (off ∈ [0x04C, 0x070, 0x074, 0x078] ∨ (off = 0x040 ∧ w / 4096 % 2 ≠ b2n (spillOn s))) then some 0x01 else none
  | .qcx => if ctxRuns s i = true ∧ (off = 0x040 ∨ (0x04C ≤ off ∧ off ≤ 0x058)) then some 0x01 else none
  | .memc => if off ≤ 0x048 then (if memState s = 0 then none else some 0x01)
    else if off = 0x064 ∧ (bitsOf w 16 15 < bitsOf w 0 15 ∨ 31744 < bitsOf w 0 15 + s.getF R.MEMC_BUD_SPILL F.MEMC_BUD_SPILL_MIN) then some 0x06
    else if off = 0x068 ∧ (bitsOf w 16 15 < bitsOf w 0 15 ∨ 31744 < bitsOf w 0 15 + s.getF R.MEMC_BUD_DMA F.MEMC_BUD_DMA_MIN) then some 0x06
    else none
  | .xts => if off = 0x040 ∧ memState s ≠ 0 ∧ domSt s 57 = 0 then some 0x01 else none
  | .dma => if 0x100 ≤ off ∧ off < 0x300 then (if chanSt s (8 * i + (off - 0x100) / 0x40) = 0 then none else some 0x01)
    else if 0x800 ≤ off then
      (let c := 8 * i + (off - 0x800) / 0x100
       if chanBusy s c = true ∧ (srcKind s c = 1 ∨ dstKind s c = 1) then some 0x06 else none)
    else none
  | .uart => if (off = 0x044 ∨ off = 0x060) ∧ uartEn s i = true then some 0x01 else none
  | .bist => if bistState s = 1 then some 0x01 else none
  | _ => none

/-- R118, R121, R128 to R130, R143: the registers of every block that a write only stores or refuses, read back as they were written (R93, R119);
staged registers. -/
def Obligations.StoresAndStaging : Prop :=
  (∀ (s : State) (p : Path) (a : Addr) (w : Word) (k : PageKind) (i : Nat) (fs : List FieldRow),
    accepts s p a.toNat w = true → pageOf (a.toNat / 0x1000) = some (k, i) → regFields a.toNat = some fs →
    (a.toNat % 0x1000 < 0x040 ∧ a.toNat % 0x1000 ≠ 0x008) ∨
      (0x040 ≤ a.toNat % 0x1000 ∧ fs.any (fun f => f.ty == .rws) = false ∧ (k = .vlog ∨ k = .pwr ∨ k = .isl ∨ k = .nib)) →
    ∃ t, exec (.registerWrite p a w) s = .next (written t p a.toNat) ∧
      Merged (s.reg a.toNat) (t.reg a.toNat) w fs ∧
      regsKept (fun b => b = a.toNat) s t ∧ t = { enterSlot s p with regs := t.regs }) ∧
  (∀ (s : State) (p : Path) (a : Addr) (w : Word) (k : PageKind) (i : Nat) (fs : List FieldRow),
    accepts s p a.toNat w = true → pageOf (a.toNat / 0x1000) = some (k, i) → regFields a.toNat = some fs →
    0x040 ≤ a.toNat % 0x1000 → fs.any (fun f => f.ty == .rws) = false → settingOff k (a.toNat % 0x1000) = true →
    let code := settingCode s k i (a.toNat % 0x1000) (mergeWord (s.reg a.toNat) w fs).toNat
    (∀ c, code = some c → Refused s p a.toNat c (exec (.registerWrite p a w) s)) ∧
    (code = none → ∃ t, exec (.registerWrite p a w) s = .next (written t p a.toNat) ∧ Merged (s.reg a.toNat) (t.reg a.toNat) w fs ∧
      regsKept (fun b => b = a.toNat) s t ∧ t = { enterSlot s p with regs := t.regs } ∧
      ∀ q : Path, let u := written t p a.toNat
        storedReg u q a.toNat k i → ∃ d, readReg u q a.toNat 0 = (u, d) ∧
          ∀ b < 32, (fieldMask (· == .rw) fs).testBit b = true → (fieldMask (· != .rw) fs).testBit b = false → d.getLsbD b = w.getLsbD b)) ∧
  (∀ (s : State) (p : Path) (j : Fin 16) (w : Word) (fs : List FieldRow), let a := R.DLNK_STR_CFG j
    accepts s p a w = true → regFields a = some fs →
    ∃ t, exec (.registerWrite p (BitVec.ofNat 24 a) w) s = .next (written t p a) ∧ Merged (s.reg a) (t.reg a) w fs ∧
      (∀ m, m ≠ j.val → strmOf t m = strmOf s m ∧ t.reg (R.DLNK_STR_STAT m) = s.reg (R.DLNK_STR_STAT m)) ∧
      (strOpen s j = false ∨ strOpen t j = true → regsKept (· = a) s t ∧ t = { enterSlot s p with regs := t.regs }) ∧
      (strOpen s j = true → strOpen t j = false → strmOf t j = noStrm ∧ t.getF (R.DLNK_STR_STAT j) F.DLNK_STR_STAT_CREDIT = 0 ∧
        (t.reg (R.PAGE_IRQ_RAW 0x088)).getLsbD 2 = true ∧ ((∀ c < 32, chanBusy s c = false) →
          regsKept (fun b => b = a ∨ b = R.DLNK_STR_STAT j ∨ b = R.PAGE_IRQ_RAW 0x088) s t ∧
          t = { enterSlot s p with regs := t.regs, dl := { s.dl with str := t.dl.str } }))) ∧
  (∀ (s : State) (p : Path) (a : Addr) (w : Word) (fs : List FieldRow), accepts s p a.toNat w = true →
    isRws a.toNat = true → regFields a.toNat = some fs → 0x040 ≤ a.toNat % 0x1000 →
    (let g := a.toNat / 0x1000
     (stageEn s g = false → Refused s p a.toNat 0x80 (exec (.rwsWrite p a w) s)) ∧
     (stageEn s g = true → inCommit s g = true → Refused s p a.toNat 0x81 (exec (.rwsWrite p a w) s)) ∧
     (stageEn s g = true → inCommit s g = false →
       ∃ t, exec (.rwsWrite p a w) s = .next (written t p a.toNat) ∧
         t.staged a.toNat = mergeWord (s.staged a.toNat) w fs ∧
         (∀ b, b ≠ a.toNat → b ≠ R.PAGE_STAT g → t.staged b = s.staged b) ∧ t.flag (R.PAGE_STAT g) F.PAGE_STAT_COMMIT_PENDING = true ∧
         regsKept (fun b => b = R.PAGE_STAT g) s t ∧ t = { enterSlot s p with regs := t.regs, pend := t.pend }))) ∧
  (∀ (s : State) (p : Path) (g : BitVec 12) (w : Word), accepts s p (4096 * g.toNat + 8) w = true →
    (let new := bitOf w.toNat 1
     (new ≠ stageEn s g.toNat → inCommit s g.toNat = true →
       Refused s p (4096 * g.toNat + 8) 0x81 (exec (.stageEnWrite p g w) s)) ∧
     (new = stageEn s g.toNat ∨ inCommit s g.toNat = false →
       ∃ t, exec (.stageEnWrite p g w) s = .next (written t p (4096 * g.toNat + 8)) ∧
         t.reg (R.PAGE_CTRL g.toNat) = w &&& 3 ∧
         (new = stageEn s g.toNat → t.pend = s.pend ∧ regsKept (fun b => b = R.PAGE_CTRL g.toNat) s t) ∧
         (new = true → stageEn s g.toNat = false → (∀ a ∈ rwsAddrs g.toNat, tabGet (fun _ => none) t.pend a = some (t.reg a)) ∧
           regsKept (fun b => b = R.PAGE_CTRL g.toNat) s t) ∧
         (new = false → stageEn s g.toNat = true → (∀ a, a / 0x1000 = g.toNat → tabGet (fun _ => none) t.pend a = none) ∧
           t.flag (R.PAGE_STAT g.toNat) F.PAGE_STAT_COMMIT_PENDING = false ∧
           regsKept (fun b => b = R.PAGE_CTRL g.toNat ∨ b = R.PAGE_STAT g.toNat) s t) ∧
         (∀ a, a / 0x1000 ≠ g.toNat → tabGet (fun _ => none) t.pend a = tabGet (fun _ => none) s.pend a) ∧
         t = { enterSlot s p with regs := t.regs, pend := t.pend })))

/-- R122, R127, R568. -/
def Obligations.WedgeLatchReset : Prop :=
  (∀ (s : State) (p : Path) (a : Addr) (w : Option Word), live s = true → served s p = true → canIssue s p = true →
    canHang s p a.toNat w = true →
    ∃ t, exec (.accessWedgeTimeout (.one p a w)) s = .next t ∧ respOf t p = .wedged ∧ lastData t p = [] ∧
      (∀ q, q ≠ p → respOf t q = respOf s q ∧ lastData t q = lastData s q) ∧ t.regs = (hangWord s p a.toNat).regs ∧
      (p = .hsp → t.root.hspStatus = some 0xB0#8 ∧ t.root.hspIndex = 0) ∧
      (p ≠ .hsp → t.root.hspStatus = s.root.hspStatus ∧ t.root.hspIndex = s.root.hspIndex) ∧
      t = { enterSlot s p with
        regs := t.regs
        root := { (enterSlot s p).root with
          resp := t.root.resp, data := t.root.data, hspStatus := t.root.hspStatus, hspIndex := t.root.hspIndex }
        fab := { s.fab with mp := if p = .fab then .err 3 0 else s.fab.mp } }) ∧
  (∀ (s : State) (p : Path) (a : Nat), let t := hangWord s p a
    pageWedged t (a / 0x1000) = true ∧ (t.reg (R.PAGE_IRQ_RAW (a / 0x1000))).getLsbD 31 = true ∧
    regsKept (fun b => b = R.PAGE_STAT (a / 0x1000) ∨ b = R.PAGE_IRQ_RAW (a / 0x1000)) s t ∧
    t = { enterSlot s p with regs := t.regs }) ∧
  (∀ (s : State) (a : Addr) (ws : List Word) (w : Word) (l n : Fin 32) (ans : List UwAns), live s = true →
    served s .hsp = true → canIssue s .hsp = true →
    (∀ t, ws.length < 32 → writeBurst .hsp 0 a.toNat ws ans s = (t, 0, .ok) →
      let b := (a.toNat + 4 * ws.length) % 2 ^ 24
      canHang t .hsp b (some w) = true →
      exec (.accessWedgeTimeout (.hspWrite a ws w ans)) s = .next (hspEnd (hangWord t .hsp b) .wedged ws.length [])) ∧
    (∀ t ds, n ≤ l → readBurst .hsp n 0 a.toNat ans s [] = (t, ds, 0, .ok) →
      let b := (a.toNat + 4 * n.val) % 2 ^ 24
      canHang t .hsp b none = true →
      exec (.accessWedgeTimeout (.hspRead a l n ans)) s =
        .next (hspEnd (hangWord t .hsp b) .wedged n (padWords (l.val + 1) ds)))) ∧
  (∀ (s : State) (q : DrReq) (rest : List DrReq) (n : Fin 32) (ans : List UwAns) (t : State), live s = true →
    served s .dlnk = true → canIssue s .dlnk = true → s.dl.rq = q :: rest → q.ty = 0x02 → n.val < q.pay.length →
    writeBurst .dlnk 0 q.addr ((q.pay.take n).map (BitVec.ofNat 32)) ans { s with dl := { s.dl with rq := rest } } = (t, 0, .ok) →
    let b := (q.addr + 4 * n.val) % 2 ^ 24
    canHang t .dlnk b (some (BitVec.ofNat 32 (atD 0 q.pay n))) = true →
    exec (.accessWedgeTimeout (.draught n ans)) s =
      .next (sendCpl (respond (hangWord t .dlnk b) .dlnk .wedged []) q.lane q.src q.tag q.addr 3 0 n [])) ∧
  (∀ (s : State) (ts : List (List Byte)) (a v : Nat) (ans : List UwAns), live s = true → served s .mon = true → canIssue s .mon = true →
    monCmd s = some (.wr, ts) → wrArgs ts = some (a, v) → canHang s .mon a (some (BitVec.ofNat 32 v)) = true →
    exec (.accessWedgeTimeout (.monitor 0 ans)) s =
      .next (monReply (respond (hangWord s .mon a) .mon .wedged []) [errLine 30])) ∧
  (∀ (s : State) (p : Path) (a : Addr) (w : Word), served s p = true → canIssue s p = true → inWindow a.toNat = false →
    devViolation s p a.toNat (some w) = none → pageWedged s (a.toNat / 0x1000) = true →
    ∃ t, exec (.registerWrite p a w) s = .next t ∧ respOf t p = .wedged ∧ t.regs = s.regs ∧ t.pend = s.pend) ∧
  (∀ (s : State) (p : Path) (a : Addr) (v : Nat), acceptsRead s p a.toNat = true →
    countAt (enterSlot s p) a.toNat = some v →
    ∃ t, exec (.timestampLatchRead p a) s = .next (readDone t p (BitVec.ofNat 32 v)) ∧
      latchOf t p a.toNat = v / 2 ^ 32 % 2 ^ 16 ∧
      (∀ (q : Path) (b : Nat), b ≠ a.toNat ∨ q ≠ p → latchOf t q b = latchOf s q b) ∧
      (∀ x : State, (countAt x a.toNat).isSome = true → countAt x (a.toNat + 4) = none →
        readReg x p (a.toNat + 4) 0 = (x, BitVec.ofNat 32 (latchOf x p a.toNat))) ∧
      t = { enterSlot s p with root := { (enterSlot s p).root with latches := t.root.latches } }) ∧
  (∀ (s : State) (p : Path) (w : Word), accepts s p R.SYS_RESET w = true →
    ∃ t, exec (.sysResetWrite p w) s = .next (written t p R.SYS_RESET) ∧
      (let u := enterSlot s p
       (∀ q, q ≠ p → tabGet (fun _ => none) t.root.arm q.code = tabGet (fun _ => none) s.root.arm q.code) ∧
       ((∃ t0, tabGet (fun _ => none) s.root.arm p.code = some t0 ∧ (u.root.ts + 2 ^ 48 - t0) % 2 ^ 48 ≤ 50000) →
         t.root.resetReq = some p ∧ tabGet (fun _ => none) t.root.arm p.code = none) ∧
       ((∀ t0, tabGet (fun _ => none) s.root.arm p.code = some t0 → 50000 < (u.root.ts + 2 ^ 48 - t0) % 2 ^ 48) →
         t.root.resetReq = s.root.resetReq ∧ tabGet (fun _ => none) t.root.arm p.code = some u.root.ts) ∧
       t = { u with root := { u.root with arm := t.root.arm, resetReq := t.root.resetReq } })) ∧
  (∀ (s : State) (p : Path), s.root.resetReq = some p → s.phase ≠ .reset → (p = .mon → s.mon.line = none ∧ s.mon.reply = 0) →
    (p = .dlnk → cplWaits s = false) → exec .sysResetAssert s = .next (fullReset s 8))

/-- R107 to R111, R124: HSP transactions; R93, R116: what a read of one word returns. -/
def Obligations.HspTransactions : Prop :=
  (∀ (s : State) (a : Addr) (ans : List UwAns) (k : PageKind) (i : Nat) (fs : List FieldRow), acceptsRead s .hsp a.toNat = true →
    pageOf (a.toNat / 0x1000) = some (k, i) → regFields a.toNat = some fs → storedReg s .hsp a.toNat k i →
    exec (.hspRead a 0 ans) s = .next (hspEnd (enterSlot s .hsp) .ok 0 [readsAs (s.reg a.toNat) fs])) ∧
  (∀ (s : State) (a : Addr) (ans : List UwAns) (v : VKind), served s .hsp = true → canIssue s .hsp = true →
    violates (enterSlot s .hsp) .hsp a.toNat none = some v →
    ∃ t, exec (.hspRead a 0 ans) s = .next (hspEnd t (.violation v) 0 [0]) ∧ ViolationLogged (enterSlot s .hsp) t .hsp a.toNat false v) ∧
  (∀ (s : State) (a : Addr) (ws : List Word) (ans : List UwAns), 1 ≤ ws.length → ws.length ≤ 32 →
    hspCanWrite s a.toNat ws ans = true → s.phase ≠ .reset → s.phase ≠ .halt →
    ∃ t n r, writeBurst .hsp 0 a.toNat ws ans s = (t, n, r) ∧
      exec (.hspWrite a ws ans) s = .next (hspEnd t r n []) ∧ exec (.hspWrite4 a ws ans) s = .next (hspEnd t r n []) ∧
      (r = .ok → n = 0) ∧
      (r ≠ .ok → ∃ (h : n < ws.length), ∃ t0 m, writeBurst .hsp 0 a.toNat (ws.take n) ans s = (t0, 0, .ok) ∧
        (burstWord t0 .hsp ((a.toNat + 4 * n) % 2 ^ 24) ws[n] (ans.drop m)).1 = t ∧
        (burstWord t0 .hsp ((a.toNat + 4 * n) % 2 ^ 24) ws[n] (ans.drop m)).2.1 = r)) ∧
  (∀ (s : State) (a : Addr) (l : Fin 32) (ans : List UwAns),
    hspCanRead s a.toNat (l.val + 1) ans = true → s.phase ≠ .reset → s.phase ≠ .halt →
    ∃ t ds n r, readBurst .hsp (l.val + 1) 0 a.toNat ans s [] = (t, ds, n, r) ∧
      exec (.hspRead a l ans) s = .next (hspEnd t r n (padWords (l.val + 1) ds)) ∧
      exec (.hspRead4 a l ans) s = .next (hspEnd t r n (padWords (l.val + 1) ds)) ∧
      (padWords (l.val + 1) ds).length = l.val + 1 ∧ (r = .ok → n = 0 ∧ padWords (l.val + 1) ds = ds) ∧
      (r ≠ .ok → n ≤ l.val ∧ ds.length = n ∧ (∀ j, n ≤ j → j ≤ l.val → (padWords (l.val + 1) ds)[j]? = some 0) ∧
        ∃ t0 m, readBurst .hsp n 0 a.toNat ans s [] = (t0, ds, 0, .ok) ∧
          (burstRead t0 .hsp ((a.toNat + 4 * n) % 2 ^ 24) (ans.drop m)).1 = t ∧
          (burstRead t0 .hsp ((a.toNat + 4 * n) % 2 ^ 24) (ans.drop m)).2.1 = r)) ∧
  (∀ (t : State) (r : Resp) (n : Nat) (d : List Word), let v := hspEnd t r n d
    respOf v .hsp = r ∧ lastData v .hsp = d ∧ v.root.hspStatus = some (statusByte r) ∧ v.root.hspIndex = BitVec.ofNat 8 n ∧
    (∀ q, q ≠ .hsp → respOf v q = respOf t q ∧ lastData v q = lastData t q) ∧ v = { t with root := { t.root with
      resp := v.root.resp, data := v.root.data, hspStatus := v.root.hspStatus, hspIndex := v.root.hspIndex } }) ∧
  (∀ (s : State) (a : Addr) (ws : List Word) (l : Fin 32) (ans : List UwAns), s.phase = .halt →
    1 ≤ ws.length → ws.length ≤ 32 →
    exec (.hspWrite a ws ans) s = .next (hspEnd s .halted 0 []) ∧ exec (.hspWrite4 a ws ans) s = .next (hspEnd s .halted 0 []) ∧
    exec (.hspRead a l ans) s = .next (hspEnd s .halted 0 (List.replicate (l.val + 1) 0)) ∧
    exec (.hspRead4 a l ans) s = .next (hspEnd s .halted 0 (List.replicate (l.val + 1) 0))) ∧
  (∀ (s : State) (a : Addr) (n : Fin 33) (ans : List UwAns), s.phase ≠ .reset → s.phase ≠ .halt →
    (∀ ws : List Word, ws.length ≤ 32 → hspCanWrite s a.toNat ws ans = true →
      exec (.hspCsEarlyRise a (some ws) n ans) s = .next (hspQuiet (writeBurst .hsp 0 a.toNat ws ans s).1)) ∧
    (hspCanRead s a.toNat n.val ans = true →
      exec (.hspCsEarlyRise a none n ans) s = .next (hspQuiet (readBurst .hsp n 0 a.toNat ans s []).1))) ∧
  (∀ (s : State) (a : Addr) (n : Fin 33) (ans : List UwAns), exec (.hspCsEarlyRise a (some []) n ans) s = .next (hspQuiet s) ∧
    exec (.hspCsEarlyRise a none 0 ans) s = .next (hspQuiet s)) ∧
  (∀ (s : State) (c : Byte), c.toNat ∉ [0x02, 0x03, 0x32, 0xEB] → s.phase ≠ .reset →
    ∃ t, exec (.hspUndefinedCommand c) s = .next t ∧ t.root.hspStatus = none ∧ respOf t .hsp = .none ∧
      t.getF R.SYS_HSP_ERRCNT F.SYS_HSP_ERRCNT_COUNT =
        satAdd F.SYS_HSP_ERRCNT_COUNT.w (s.getF R.SYS_HSP_ERRCNT F.SYS_HSP_ERRCNT_COUNT) 1 ∧
      regsKept (fun a => a = R.SYS_HSP_ERRCNT) s t ∧
      t = { s with regs := t.regs, root := { s.root with
        resp := t.root.resp, data := t.root.data, hspStatus := none, hspIndex := 0 } })

/-- R96, R105, R123, R246 to R250; R93, R116: what a read of the fabric master port returns. -/
def Obligations.FabricPortAndWindow : Prop :=
  (∀ (s : State) (a : BitVec 22) (w : Option Word), mpReady s = false → exec (.fabricMasterRequest a w) s = .next s) ∧
  (∀ (s : State) (a : BitVec 22) (w : Word), mpReady s = true → outstanding s .fab = false →
    exec (.fabricMasterRequest a (some w)) s = exec (.registerWrite .fab (BitVec.ofNat 24 (4 * a.toNat)) w) s) ∧
  (∀ (s : State) (a : BitVec 22), mpReady s = true → acceptsRead s .fab (4 * a.toNat) = true →
    ∃ t x d, exec (.fabricMasterRequest a none) s = .next t ∧ readReg (enterSlot s .fab) .fab (4 * a.toNat) 0 = (x, d) ∧
      t = readDone x .fab d ∧ t.fab.mp = .ack d) ∧
  (∀ (s : State) (a : BitVec 22) (k : PageKind) (i : Nat) (fs : List FieldRow), mpReady s = true →
    acceptsRead s .fab (4 * a.toNat) = true → pageOf (4 * a.toNat / 0x1000) = some (k, i) → regFields (4 * a.toNat) = some fs →
    storedReg s .fab (4 * a.toNat) k i →
    exec (.fabricMasterRequest a none) s = .next (readDone (enterSlot s .fab) .fab (readsAs (s.reg (4 * a.toNat)) fs))) ∧
  (∀ (s : State) (a : BitVec 22) (v : VKind), mpReady s = true → served s .fab = true → outstanding s .fab = false →
    inWindow (4 * a.toNat) = false → devViolation s .fab (4 * a.toNat) none = some v →
    ∃ t, exec (.fabricMasterRequest a none) s = .next t ∧ ViolationLogged (enterSlot s .fab) t .fab (4 * a.toNat) false v ∧
      respOf t .fab = .violation v ∧ lastData t .fab = [0] ∧ t.fab.mp = .err 1 v.code) ∧
  (∀ (s : State) (p : Path) (a : Addr) (w : Option Word), inWindow a.toNat = true → canIssue s p = true → served s p = true →
    (let u := enterSlot s p
     (∀ v, uwViolation s p a.toNat w.isSome = some v → ∃ t, exec (.userWindowAccess p a w) s = .next t ∧
       respOf t p = .violation v ∧ t.regs = (logViolation u p a.toNat w.isSome v).regs ∧ t.fab.uw = s.fab.uw ∧
       (∀ q, q ≠ p → respOf t q = respOf s q ∧ lastData t q = lastData s q)) ∧
     (uwViolation s p a.toNat w.isSome = none → uwFenced s = true → ∃ t, exec (.userWindowAccess p a w) s = .next t ∧
       respOf t p = .refused ∧ t.reg (R.PAGE_ERR_CODE 0) = BitVec.ofNat 32 (0x83 + 256 * p.code) ∧
       (t.reg (R.PAGE_IRQ_RAW 0)).getLsbD 30 = true ∧ t.fab.uw = s.fab.uw ∧
       regsKept (fun b => b = R.PAGE_ERR_CODE 0 ∨ b = R.PAGE_ERR_ADDR 0 ∨ b = R.PAGE_IRQ_RAW 0) s t ∧
       (∀ q, q ≠ p → respOf t q = respOf s q ∧ lastData t q = lastData s q)) ∧
     (uwViolation s p a.toNat w.isSome = none → uwFenced s = false → ∃ t, exec (.userWindowAccess p a w) s = .next t ∧
       respOf t p = .none ∧ t.fab.uw = s.fab.uw ++ [⟨p, a.toNat, w, effLevel s p⟩] ∧
       t.fab.uwLast = some ⟨p, a.toNat, w, effLevel s p⟩ ∧
       (∀ q, q ≠ p → respOf t q = respOf s q ∧ lastData t q = lastData s q) ∧
       t = { u with
         root := { u.root with resp := t.root.resp, data := t.root.data }
         fab := { s.fab with uw := t.fab.uw, uwLast := t.fab.uwLast } }))) ∧
  (∀ (s : State) (p : Path) (a : Nat) (b : Bool), (p = .fab ∨ inRun s = false ∨ 48 ≤ uwIsland s ∨ a % 4 ≠ 0) →
    uwViolation s p a b = some .unimpl) ∧
  (∀ (s : State) (u : UwAcc) (rest : List UwAcc), s.fab.uw = u :: rest → islandRuns s (uwIsland s) = true →
    (∀ d, ∃ t, exec (.userWindowAnswer (.claim d)) s = .next t ∧ respOf t u.path = .ok ∧
      lastData t u.path = (if u.wdata.isSome then [] else [d]) ∧ t.fab.uw = rest ∧ t.regs = s.regs ∧
      (∀ q, q ≠ u.path → respOf t q = respOf s q ∧ lastData t q = lastData s q)) ∧
    (∃ t, exec (.userWindowAnswer .noclaim) s = .next t ∧ exec .userWindowTimeout s = .next t ∧
      respOf t u.path = .violation .unimpl ∧ t.fab.uw = rest ∧
      t.regs = (logViolation s u.path u.addr u.wdata.isSome .unimpl).regs ∧
      (∀ q, q ≠ u.path → respOf t q = respOf s q ∧ lastData t q = lastData s q)))

/-- The units `us` of `y` apply and acknowledge in `t` (R137 to R139): every unit or none; with the last of them the commit is
DONE. -/
def UnitsApplied (y t : State) (us : List CUnit) : Prop :=
  let v := applyUnits y us
  let left := v.root.cApply.filter (fun u => !us.contains u)
  (left ≠ [] → t = { v with root := { v.root with cApply := left } }) ∧ (left = [] → CommitDone v t v.root.cPages false)

/-- The units `us` of `x` decide in `t` (R134, R137, R140, R604): while none refuses the root waits for the others, and after the
last ACCEPT it sends APPLY, with which the units whose clock does not run take their values at once; a refusal ends the commit,
and the lowest page with a refusing unit is named. -/
def UnitsDecided (x t : State) (us : List CUnit) : Prop :=
  let left := x.root.cWait.filter (fun u => !us.contains u)
  ((∀ v ∈ us, unitRefuses x v = false) →
    (left ≠ [] → t = { x with root := { x.root with cWait := left } }) ∧
    (left = [] → let y := { x with root := { x.root with cWait := [], cPhase := .apply } }
      let now := y.root.cApply.filter (unitStopped y)
      (now = [] → t = y) ∧ (now ≠ [] → UnitsApplied y t now))) ∧
  (∀ v ∈ us, unitRefuses x v = true → ∃ pg, CommitRefused x t x.root.cPages 1 pg ∧
    (∃ r ∈ us, unitRefuses x r = true ∧ unitPage r = pg) ∧ ∀ r ∈ us, unitRefuses x r = true → pg ≤ unitPage r)

/-- R132 to R135, R137, R140, R141, R145, R604, Tables 4.6 and 4.7. That commands taken from a prepared block begin when the commit
ends (afterCommit) is the model's reading (log entry 23). -/
def Obligations.CommitStarts : Prop :=
  (∀ (s : State) (p : Path) (w : Word), accepts s p R.SYS_COMMIT w = true →
    (let u := enterSlot s p
     let pg := bitsOf w.toNat 0 12
     let ps := if bitOf w.toNat 16 then allPages.filter (fun q => stageEn s q && commitPending s q) else [pg]
     let us := (ps.map (unitsOf s)).flatten
     (bitOf w.toNat 31 = false → exec (.commit p w) s = .next (written u p R.SYS_COMMIT)) ∧
     (bitOf w.toNat 31 = true → s.root.cPhase ≠ .idle ∨ (bitOf w.toNat 16 = false ∧ stageEn s pg = false) →
       Refused s p R.SYS_COMMIT 0x82 (exec (.commit p w) s)) ∧
     (bitOf w.toNat 31 = true → s.root.cPhase = .idle → bitOf w.toNat 16 = true ∨ stageEn s pg = true →
       ∃ t, exec (.commit p w) s = .next (written t p R.SYS_COMMIT) ∧
         (∀ q, firstWhere (pageWedged s) ps = some q → CommitRefused u t ps 3 q) ∧
         (∀ q, firstWhere (pageWedged s) ps = none → firstWhere (ownDomainOff s ps) ps = some q → CommitRefused u t ps 4 q) ∧
         (firstWhere (pageWedged s) ps = none → firstWhere (ownDomainOff s ps) ps = none → us = [] → CommitDone u t ps false) ∧
         (firstWhere (pageWedged s) ps = none → firstWhere (ownDomainOff s ps) ps = none → us ≠ [] →
           let x := { u.setN R.SYS_COMMIT_STAT 1 with root := { u.root with
             cPhase := .prepare, cPages := ps, cWait := us, cApply := us } }
           let now := us.filter (fun v => unitStopped u v && !unitHeld u v)
           (now = [] → t = x) ∧ (now ≠ [] → UnitsDecided x t now))))) ∧
  (∀ (s : State) (us : List CUnit), live s = true → s.root.cPhase = .prepare → us ≠ [] →
    (∀ u ∈ us, u ∈ s.root.cWait ∧ unitHeld s u = false) →
    ∃ t, exec (.commitUnitDecide us) s = .next (afterCommit t) ∧ UnitsDecided s t us) ∧
  (∀ s : State, live s = true → s.root.cPhase = .prepare → s.root.cWait ≠ [] →
    ∃ t pg, exec .commitPrepareTimeout s = .next (afterCommit t) ∧ CommitRefused s t s.root.cPages 2 pg ∧
      (∃ v ∈ s.root.cWait, unitPage v = pg) ∧ (∀ v ∈ s.root.cWait, pg ≤ unitPage v))

/-- The registers of generator `g` take their staged values in `v` (R139, R171, R177). A generator whose settings of the source in
use have not changed goes on as it was; else it takes the new primary where that runs, else the new fallback, else it gates
(R172 to R174); off it is gated with CAUSE 3, and a follower shows the generator it follows (R168, R178). That generator 58
stays with the survey in Steep is the model's reading (log entry 35). -/
def GenApplied (s v : State) (g : Nat) : Prop :=
  let prim (x : GenSet) := srcUsed x.kind x.pll x.out x.fol x.d
  let fb (x : GenSet) := srcUsed x.fbKind x.fbPll x.fbOut 0 x.fbD
  let a := genSetOf s.getF g
  let b := genSetOf s.stagedF g
  let takes : Prop := surveyOwns s g = false ∧
    (prim a ≠ prim b ∨ (b.kind = 2 ∧ genActive s g ≠ 1 ∧ fb a ≠ fb b ∧ primaryRuns v g = false))
  let regs (c : Nat) : Prop := c = R.ISL_GEN_CFG g ∨ c = R.ISL_GEN_FB g
  (∀ c, regs c → v.reg c = s.staged c) ∧
  (¬ takes → ClocksOnly s v regs) ∧
  (takes →
    (b.kind = 0 → GenShows s v g 0 3 0) ∧
    (b.kind = 3 → v.reg (R.ISL_GEN_STAT g) = BitVec.ofNat 32
      (if genRuns s b.fol = true then 3 + 65536 * genMhz s b.fol else 64 + 65536 * genMhz s g)) ∧
    (b.kind = 1 ∨ b.kind = 2 →
      (primaryRuns v g = true → GenShows s v g 1 0 (primaryMhz v g)) ∧
      (primaryRuns v g = false → fallbackRuns v g = true → GenShows s v g 2 0 (fallbackMhz v g) ∧
        (v.reg (R.PAGE_IRQ_RAW 5)).getLsbD 2 = true) ∧
      (primaryRuns v g = false → fallbackRuns v g = false → GenShows s v g 0 1 (genMhz s g) ∧
        (v.reg (R.PAGE_IRQ_RAW 5)).getLsbD 3 = true)) ∧
    ClocksOnly s v (fun c => regs c ∨ c = R.ISL_GEN_STAT g ∨ (∃ f ∈ followers v g, c = R.ISL_GEN_STAT f) ∨ c = R.PAGE_IRQ_RAW 5))

/-- The fence registers of island `x` take their staged values in `v`, and what its ports now present reaches the output nibs
bound to them (R230, R256). A fence that applies clears DRAINED, or sets it at once while the island's domain is off, raises
its events and suspends the traced pairs of the island's nibs (R268, R270, R365); one that lifts clears DRAINED (R276). -/
def FenceApplied (s v : State) (x : Nat) : Prop :=
  (∀ a ∈ rwsAddrs (fiPage x), v.reg a = s.staged a) ∧ fenced v x = fenceStaged s x ∧
  (∀ j < 64, ∀ n, boundPort s n = some (x, j) → portNib s x j = some n → nibSrc s n = 1 → isOutput s n = true →
    bankArmed s (n / 48) = true → bankRuns s (n / 48) = true → (nibOutD v n, nibOutE v n) = portOut v x j) ∧
  (fenced s x = false → fenced v x = true → drained v x = !domOn s x ∧
    (v.reg (R.PAGE_IRQ_RAW (fiPage x))).getLsbD 5 = true ∧
    (domOn s x = false → (v.reg (R.PAGE_IRQ_RAW (fiPage x))).getLsbD 6 = true) ∧
    (∀ n j, boundPort s n = some (x, j) → (pairOf v n).step = false ∧ (pairOf v n).pl = [] ∧ (pairOf v n).pv = []) ∧
    (tabWf (fun _ => noPair) s.trc.pair → ∀ n, (∀ j, boundPort s n ≠ some (x, j)) → pairOf v n = pairOf s n)) ∧
  (fenced s x = true → fenced v x = false → drained v x = false) ∧
  (fenced v x = fenced s x → drained v x = drained s x) ∧
  (fenced s x = true ∨ fenced v x = false → v.trc = s.trc ∧ v.cfg = s.cfg) ∧
  (blotRunning s = false → v.cfg = s.cfg ∧ ∀ a, a / 0x1000 = 0x021 → v.reg a = s.reg a) ∧
  regsKept (fun a => a ∈ rwsAddrs (fiPage x) ∨ a = R.FI_ISL_STAT x ∨ a = R.PAGE_IRQ_RAW (fiPage x) ∨ a / 0x1000 = 0x021 ∨
    ∃ i < 7, a = R.UART_STAT (i + 1)) s v ∧
  v = { s with
    regs := v.regs, freeCtr := v.freeCtr, uart := v.uart, nib := nibSensed s.nib v.nib, trc := { s.trc with pair := v.trc.pair }
    fab := { s.fab with crossed := v.fab.crossed, crossQ := v.fab.crossQ }
    cfg := { s.cfg with pause := v.cfg.pause, skip := v.cfg.skip, reload := v.cfg.reload } }

/-- The tracing registers take their staged values in `v` on one edge (R362). A pair whose enable, profile or membership changes
is out of step with nothing pending, its transactions gone, and its standing bit clears if it is disabled; the others are not
disturbed (R363). -/
def TraceApplied (s v : State) : Prop :=
  let new (n : Nat) : Prop := n < 336 ∧ pairSettings s n ≠ pairSettings v n
  (∀ a ∈ rwsAddrs 0x040, v.reg a = s.staged a) ∧
  (∀ n, new n → pairOf v n = noPair ∧ (pairEn v n = false → standing v n = false) ∧
    (pairEn v n = true → standing v n = standing s n)) ∧
  (∀ n, ¬ new n → pairOf v n = pairOf s n) ∧ (∀ n < 336, ¬ new n → standing v n = standing s n) ∧
  (∀ e, e ∈ v.trc.txn ↔ e ∈ s.trc.txn ∧ ¬ new (txStrobe v.getF e.k)) ∧
  regsKept (fun a => a ∈ rwsAddrs 0x040 ∨ (0x40180 ≤ a ∧ a < 0x401B0)) s v ∧
  v = { s with regs := v.regs, trc := { s.trc with pair := v.trc.pair, txn := v.trc.txn } }

/-- A unit of the manual (R47, R177, R215, R256, R362). -/
def realUnit : CUnit → Prop
  | .dom d => d < 64
  | .gen g => g < 66
  | .bank k => k < 7
  | .fence x => x < 48
  | .trc => True

/-- R136 to R139, R141, R122, R604, Table 4.6; R171, R177 (generators), R215, R188 (banks), R230, R256, R268, R276 (fences), R362,
R363 (tracing), R47, R56 (domains). That a held command is answered when it is taken and begins when the commit ends is the
model's choice (log entry 23). -/
def Obligations.CommitApplies : Prop :=
  (∀ (s : State) (us : List CUnit), (∀ u ∈ us, realUnit u ∧ domOf u = none) → let v := applyUnits s us
    ∀ u ∈ us, ∀ a ∈ unitRegs u, v.reg a = s.staged a ∧ v.staged a = v.reg a) ∧
  (∀ (s : State) (g : Fin 66), GenApplied s (applyUnits s [.gen g]) g) ∧
  (∀ (s : State) (x : Fin 48), FenceApplied s (applyUnits s [.fence x]) x) ∧
  (∀ s : State, TraceApplied s (applyUnits s [.trc])) ∧
  (∀ (s : State) (us : List CUnit), live s = true → s.root.cPhase = .apply → us ≠ [] → (∀ u ∈ us, u ∈ s.root.cApply) →
    ∃ t, exec (.commitUnitApply us) s = .next (afterCommit t) ∧
      UnitsApplied s t (s.root.cApply.filter (fun v => us.any (fun u => unitsTogether s u v)))) ∧
  (∀ (s : State) (ks : List Nat), let v := applyUnits s (ks.map .bank)
    (∀ k ∈ ks, ∀ a ∈ rwsAddrs (0x008 + k), v.reg a = s.staged a ∧ v.staged a = v.reg a) ∧
    regsKept (fun b => (∃ k ∈ ks, b ∈ rwsAddrs (0x008 + k)) ∨ ∃ i < 7, b = R.UART_STAT (i + 1)) s v ∧
    v = { s with regs := v.regs, freeCtr := v.freeCtr, uart := v.uart, nib := nibSensed s.nib v.nib }) ∧
  (∀ (s : State) (d : Fin 64), let v := applyUnits s [.dom d]
    (domStaged s d = true → domSt v d = 2) ∧ (domStaged s d = false → domSt v d = if domSt s d = 2 then 1 else 3) ∧
    (domSt s d ≠ 3 → domEn v d = domStaged s d ∧ ∀ e, e ≠ d.val → domSt v e = domSt s e)) ∧
  (∀ (s : State) (u : CUnit), live s = true → s.root.cPhase = .apply → u ∈ s.root.cApply →
    (let v := applyUnits s s.root.cApply
     ∃ x t, exec (.commitApplyTimeout u) s = .next (afterCommit t) ∧ pageWedged x (unitPage u) = true ∧
       (x.reg (R.PAGE_IRQ_RAW (unitPage u))).getLsbD 31 = true ∧
       regsKept (fun b => b = R.PAGE_STAT (unitPage u) ∨ b = R.PAGE_IRQ_RAW (unitPage u)) v x ∧ x = { v with regs := x.regs } ∧
       CommitDone x t s.root.cPages true)) ∧
  (∀ (s : State) (p : Path) (a : Addr) (w : Word) (k : PageKind) (i : Nat) (fs : List FieldRow), canIssue s p = true →
    served s p = true → inWindow a.toNat = false → devViolation s p a.toNat (some w) = none →
    pageWedged s (a.toNat / 0x1000) = false → pageOf (a.toNat / 0x1000) = some (k, i) → regFields a.toNat = some fs →
    steepHolds s (some p) k i = false → heldBack s p a.toNat w = true →
    (let u := enterSlot s p
     exec (.registerWrite p a w) s = .next (written { u with root := { u.root with
       held := s.root.held ++ [⟨p, a.toNat, mergeWord (s.reg a.toNat) w fs⟩] } } p a.toNat))) ∧
  (∀ s : State, s.root.cPhase ≠ .idle ∨ s.root.held = [] → releaseHeld s = s ∧
    (s.bist.pass = none ∨ s.root.cPhase ≠ .idle ∨ s.bist.todo = [] → afterCommit s = s)) ∧
  (∀ (s x : State) (h : HeldCmd) (k : PageKind) (i : Nat), s.root.cPhase = .idle → s.root.held = [h] → live s = true →
    pageOff s (h.addr / 0x1000) = false → pageOf (h.addr / 0x1000) = some (k, i) →
    blockWrite { s with root := { s.root with held := [] } } (some h.path) k i (h.addr % 0x1000) h.word true = .done x →
    releaseHeld s = x)

/-- What the state beside its registers that domain `d` holds is after a switch-off (R51): an island's cells, memories and frames
with its receive queues; the capture front end with tracing; the Inkwell (R296); the Quill with its store (R317); a half of the
time-interval unit with its queues; DRAM, with DDR_RESET_N low (R419); keys; DMA channels; the queues of UART1 to UART7; the
Blotter's place; the clocks' counts. Every other part is unchanged. -/
def DomainLost (s t : State) (d : Nat) : Prop :=
  let gone (n : Nat) (a b : Tab Nat) : Prop := ∀ k, tabGet (fun _ => 0) a k = if k / n = d then 0 else tabGet (fun _ => 0) b k
  (d < 48 → gone 1 t.fab.ff s.fab.ff ∧ gone 12288 t.fab.bram s.fab.bram ∧ gone 32 t.fab.slP s.fab.slP ∧
    gone 64 t.fab.port s.fab.port ∧ gone 20480 t.cfg.mem s.cfg.mem ∧
    (∀ k, tabGet (fun _ => (0, false)) t.fab.bramOut k =
      if k / 48 = d then (0, false) else tabGet (fun _ => (0, false)) s.fab.bramOut k) ∧
    (∀ k, tabGet (fun _ => false) t.fab.slOv k = if k / 32 = d then false else tabGet (fun _ => false) s.fab.slOv k) ∧
    (∀ k, hsGet t k = if k ∈ queueKeys s d then { hsGet s k with queue := [] } else hsGet s k) ∧
    (∀ y < 48, verified t y = if y = d then false else verified s y) ∧
    (∀ y, islSrcOf t y = if y = d then 0 else islSrcOf s y) ∧
    t.fab = { s.fab with
      ff := t.fab.ff, bram := t.fab.bram, bramOut := t.fab.bramOut, slP := t.fab.slP, slOv := t.fab.slOv, port := t.fab.port
      hs := t.fab.hs } ∧
    t.cfg = { s.cfg with mem := t.cfg.mem, islSrc := t.cfg.islSrc }) ∧
  (d = 48 → t.trc = noTrc ∧ t.cap = { noCap with
    ink := s.cap.ink, bpos := s.cap.bpos, ring := s.cap.ring, rate := s.cap.rate, wrap := s.cap.wrap, blocks := s.cap.blocks
    freed := s.cap.freed, spIss := s.cap.spIss, spBlk := s.cap.spBlk, spOut := s.cap.spOut, spFreed := s.cap.spFreed }) ∧
  (d = 49 → t.cap = { s.cap with
    ink := [], bpos := 0, ring := false, rate := false, wrap := false, blocks := 0, freed := 0, spIss := 0, spBlk := 0, spOut := []
    spFreed := 0 }) ∧
  (d = 50 → t.quill = noQuill ∧ ∀ a, storeRaw t a = 0) ∧
  (d = 51 ∨ d = 52 → let h := d - 51
    (∀ k, tbOf t k = if k = h then 0 else tbOf s k) ∧
    (∀ c, (c / 16 = h → tdcQ t c = [] ∧ tabGet (fun _ => 0) t.tdc.due c = 0 ∧ tabGet (fun _ => none) t.tdc.last c = none) ∧
      (c / 16 ≠ h → tdcQ t c = tdcQ s c ∧ tabGet (fun _ => 0) t.tdc.due c = tabGet (fun _ => 0) s.tdc.due c ∧
        tabGet (fun _ => none) t.tdc.last c = tabGet (fun _ => none) s.tdc.last c))) ∧
  (d = 57 → t.mem.resetN = false ∧ t.mem.epoch = s.mem.epoch + 1 ∧
    (∀ b, tabGet (fun _ => none) t.mem.beat b = none ∧ tabGet (fun _ => none) t.mem.tag b = none) ∧ t.mem.fills = [] ∧
    t.mem.fill = none ∧ t.mem.eph = s.mem.eph ∧ t.mem.slot = s.mem.slot ∧ t.mem.kw = s.mem.kw) ∧
  (d = 58 → t.mem = { s.mem with eph := none, slot := [], kw := [] }) ∧
  (d = 59 → t.dma = ⟨[], 0⟩ ∧ ∀ c, chanOf t c = noChan) ∧
  (d = 60 → t.uart.baud0 = s.uart.baud0 ∧ ∀ n, uartOf t n = if n = 0 then uartOf s 0 else noUart) ∧
  (d = 62 → t.cfg = { s.cfg with reload := false, pause := false, skip := false }) ∧
  (d = 63 → t.clk = ⟨[], [], 0, 0, s.clk.restarts⟩) ∧
  (53 ≤ d ∧ d ≤ 56 → (∀ n, laneOf t n = if n / 2 + 53 = d then noLane else laneOf s n) ∧
    t.dl = { s.dl with lane := t.dl.lane }) ∧
  (48 ≤ d → t.fab = s.fab ∧ (d ≠ 62 → t.cfg = s.cfg)) ∧ (d ≠ 48 ∧ d ≠ 49 → t.cap = s.cap) ∧ (d ≠ 48 → t.trc = s.trc) ∧
  (d ≠ 50 → t.quill = s.quill) ∧ (d ≠ 51 ∧ d ≠ 52 → t.tdc = s.tdc) ∧ (d ≠ 57 ∧ d ≠ 58 → t.mem = s.mem) ∧
  (d ≠ 59 → t.dma = s.dma) ∧ (d ≠ 60 → t.uart = s.uart) ∧ (d ≠ 63 → t.clk = s.clk) ∧ (d < 53 ∨ 56 < d → t.dl = s.dl)

/-- R51, R52, R54 to R56, R230, R255, and Table 2.5 for what lies in a domain. A lane domain is switched off with its lanes DISABLED
(R48), so that no capture stream is open on them. RNG_OK at a power-up of CRYPTO is a free value (log entry 91). -/
def Obligations.DomainsSwitch : Prop :=
  (∀ (s : State) (d : Fin 64), live s = true → domSt s d = 2 →
    ∃ t, exec (.domainPowerUpDone d) s = .next t ∧ (∀ e, domSt t e = if e = d.val then 0 else domSt s e) ∧
      (∀ g k i, pageOf g = some (k, i) → pageDomain k i = some d.val → pageOff t g = false) ∧
      regsKept (fun a => (d.val = 58 ∧ a = R.XTS_STAT) ∨ (d.val = 60 ∧ ∃ i < 7, a = R.UART_STAT (i + 1))) s t ∧
      t.flag R.XTS_STAT F.XTS_STAT_EPH_KEY = s.flag R.XTS_STAT F.XTS_STAT_EPH_KEY ∧
      (d.val ≠ 58 → t.freeCtr = s.freeCtr) ∧ (d.val ≠ 60 → t.uart = s.uart) ∧
      t = { s with regs := t.regs, pwr := t.pwr, freeCtr := t.freeCtr, uart := t.uart }) ∧
  (∀ (s : State) (d : Fin 64), live s = true → domSt s d = 3 →
    (∀ k < 16, strOpen s k = true → strLane s k / 2 + 53 ≠ d.val) →
    ∃ t, exec (.domainPowerDownDone d) s = .next t ∧ (∀ e, domSt t e = if e = d.val then 1 else domSt s e) ∧
      (∀ g k i, pageOf g = some (k, i) → pageDomain k i = some d.val → pageOff t g = true) ∧
      (∀ g ∈ domPages d, ∀ a, a / 0x1000 = g → keptOff a = false → a ≠ R.PAGE_STAT g ∨ pageWedged s g = false →
        t.reg a = resetOf a) ∧
      (∀ g ∈ domPages d, pageWedged t g = pageWedged s g) ∧
      regsKept (fun a => (a / 0x1000 ∈ domPages d ∧ keptOff a = false) ∨
        (d.val < 48 ∧ (a = R.CFGC_VERIFIED0 ∨ a = R.CFGC_VERIFIED0 + 4))) s t ∧
      (∀ a, tabGet (fun _ => none) t.pend a = if a / 0x1000 ∈ domPages d then none else tabGet (fun _ => none) s.pend a) ∧
      (∀ p a, latchOf t p a = if a / 0x1000 ∈ domPages d then 0 else latchOf s p a) ∧ DomainLost s t d ∧
      t = { s with
        regs := t.regs, pend := t.pend, pwr := { s.pwr with dom := t.pwr.dom }, root := { s.root with latches := t.root.latches }
        fab := t.fab, cfg := t.cfg, cap := t.cap, trc := t.trc, quill := t.quill, tdc := t.tdc, mem := t.mem, dma := t.dma
        uart := t.uart, clk := t.clk, dl := t.dl }) ∧
  (∀ (s : State) (x : Fin 48), domStaged s x = true → let v := applyUnits s [.dom x]
    domSt v x = 2 ∧ fenced v x = true ∧ drained v x = true ∧ (v.reg (R.PAGE_IRQ_RAW (fiPage x))).getLsbD 6 = true ∧
    ∀ a ∈ [R.FI_CE_CNT x, R.FI_UE_CNT x, R.FI_POISON_CNT x, R.FI_CE_LAST x, R.FI_UE_LAST x, R.FI_WEDGE_INFO x], v.reg a = 0#32) ∧
  (∀ (s : State) (x : Fin 48), domStaged s x = false → let v := applyUnits s [.dom x]
    (∀ j < 64, portOut v x j = (s.mapBit (R.FI_HOLD_D0 x) 4 j, s.mapBit (R.FI_HOLD_OE0 x) 4 j)) ∧
    ∀ j < 64, ∀ n, boundPort s n = some (x.val, j) → portNib s x j = some n → nibSrc s n = 1 → isOutput s n = true →
      bankArmed s (n / 48) = true → bankRuns s (n / 48) = true → (nibOutD v n, nibOutE v n) = portOut v x j)

/-- R148 to R150, R184, R605. That a reference judged bad disqualifies those it times even where it had not qualified, and
which windows count as good then, is the model's reading (log entry 102). -/
def Obligations.ReferencesQualify : Prop :=
  (∀ (s : State) (r : Fin 4) (count : Nat) (thr now : Bool), clkLive s = true → s.flag (R.CLK_REF_CTRL r) F.CLK_REF_CTRL_EN = true →
    ∃ t, exec (.refWindowEnd r count thr now) s = .next t ∧
      t.getF (R.CLK_REF_STAT r) F.CLK_REF_STAT_COUNT = count % 2 ^ 24 ∧
      t.flag (R.CLK_REF_STAT r) F.CLK_REF_STAT_ACTIVE = now ∧
      (let n := tabGet (fun _ => 0) s.clk.goodWin r + 1
       (windowGood s r count thr = true → tabGet (fun _ => 0) t.clk.goodWin r = n ∧
         (s.getF (R.CLK_REF_CTRL r) F.CLK_REF_CTRL_QUAL_N ≤ n → refQual t r = true) ∧
         (n < s.getF (R.CLK_REF_CTRL r) F.CLK_REF_CTRL_QUAL_N → refQual t r = refQual s r) ∧
         (∀ q : Fin 4, q ≠ r → refQual t q = refQual s q))) ∧
      (windowGood s r count thr = false → tabGet (fun _ => 0) t.clk.goodWin r = 0 ∧ refQual t r = false ∧
        bitOf t.clk.disq r = true ∧ (refQual s r = true → (t.reg (R.PAGE_IRQ_RAW 0x004)).getLsbD (24 + r) = true) ∧
        (refQual s r = true ∨ bitOf s.clk.disq r = false →
          ∀ q : Fin 4, q ≠ r → s.getF (R.CLK_REF_CTRL q) F.CLK_REF_CTRL_TIMEBASE = r.val + 1 → refQual t q = false)) ∧
      regsKept (fun a => (∃ q : Fin 4, a = R.CLK_REF_STAT q) ∨ (0x4100 ≤ a ∧ a < 0x4200) ∨ a = R.PAGE_IRQ_RAW 0x004) s t ∧
      t = { s with regs := t.regs, clk := t.clk }) ∧
  (∀ (s : State) (r : Fin 4), clkLive s = true → ∃ t, exec (.refEdgesStop r) s = .next t ∧
    t.flag (R.CLK_REF_STAT r) F.CLK_REF_STAT_ACTIVE = false ∧ tabGet (fun _ => 0) t.clk.goodWin r = 0 ∧ refQual t r = false ∧
    bitOf t.clk.disq r = true ∧ (refQual s r = true → (t.reg (R.PAGE_IRQ_RAW 0x004)).getLsbD (24 + r) = true) ∧
    (refQual s r = true ∨ bitOf s.clk.disq r = false →
      ∀ q : Fin 4, q ≠ r → s.getF (R.CLK_REF_CTRL q) F.CLK_REF_CTRL_TIMEBASE = r.val + 1 → refQual t q = false) ∧
    regsKept (fun a => (∃ q : Fin 4, a = R.CLK_REF_STAT q) ∨ (0x4100 ≤ a ∧ a < 0x4200) ∨ a = R.PAGE_IRQ_RAW 0x004) s t ∧
    t = { s with regs := t.regs, clk := t.clk }) ∧
  (∀ (s : State) (p : Path) (r : Fin 4) (reg : Fin 3) (w : Word), let a := refConfigReg r reg
    accepts s p a w = true →
    (s.phase = .steep ∧ r = 0 → Refused s p a 0x02 (exec (.refConfigWrite p r reg w) s)) ∧
    (¬ (s.phase = .steep ∧ r = 0) → ∃ t fs, regFields a = some fs ∧ exec (.refConfigWrite p r reg w) s = .next (written t p a) ∧
      t.reg a = mergeWord (s.reg a) w fs ∧ tabGet (fun _ => 0) t.clk.goodWin r = 0 ∧
      (reg = 0 → bitOf w.toNat 0 = false → refQual t r = false) ∧
      (reg ≠ 0 ∨ bitOf w.toNat 0 = true → ∀ q : Fin 4, refQual t q = refQual s q) ∧
      regsKept (fun b => b = a ∨ (∃ q : Fin 4, b = R.CLK_REF_STAT q) ∨ (0x4100 ≤ b ∧ b < 0x4200) ∨ b = R.PAGE_IRQ_RAW 0x004) s t ∧
      t = { enterSlot s p with regs := t.regs, clk := t.clk }))

/-- R152 to R156, R159, R183, R184, Table 5.1. That refusal 0x01 goes before 0x02, and ACQ_CAUSE 2 before 3, is the model's choice
(log entry 27). -/
def Obligations.PllAcquires : Prop :=
  (∀ (s : State) (p : Path) (k reg : Fin 4) (w : Word), let a := pllConfigReg k reg
    accepts s p a w = true →
    (let held := s.flag R.CLK_SYNC_STAT F.CLK_SYNC_STAT_ARMED = true ∧ bitOf (s.getF R.CLK_SYNC_CFG F.CLK_SYNC_CFG_PLLMASK) k = true
     (held → Refused s p a 0x01 (exec (.pllConfigWrite p k reg w) s)) ∧
     (¬ held → s.phase = .steep ∧ k = 0 → Refused s p a 0x02 (exec (.pllConfigWrite p k reg w) s)) ∧
     (¬ held → ¬ (s.phase = .steep ∧ k = 0) → ∃ t fs, regFields a = some fs ∧
       exec (.pllConfigWrite p k reg w) s = .next (written t p a) ∧ t.reg a = mergeWord (s.reg a) w fs ∧
       (t.flag (R.CLK_PLL_CTRL k) F.CLK_PLL_CTRL_EN = false → pllSt t k = 0) ∧
       (t.flag (R.CLK_PLL_CTRL k) F.CLK_PLL_CTRL_EN = true → pllSt t k = 1 ∧ (∀ r, bestRef s k = some r → pllCur t k = r) ∧
         (bestRef s k = none → pllCur t k = 7 ∧ t.getF (R.CLK_PLL_STAT k) F.CLK_PLL_STAT_ACQ_CAUSE = 1 ∧
           (t.reg (R.PAGE_IRQ_RAW 0x004)).getLsbD (20 + k) = true)) ∧ pllX t k = noPll ∧
       regsKept (fun b => b = a ∨ (0x4100 ≤ b ∧ b < 0x4200) ∨ b = R.PAGE_IRQ_RAW 0x004) s t ∧
       t = { enterSlot s p with regs := t.regs, clk := t.clk }))) ∧
  (∀ (s : State) (p : Path) (k : Fin 4) (w : Word), let a := R.CLK_PLL_REFSEL k
    accepts s p a w = true →
    (s.phase = .steep ∧ k = 0 → Refused s p a 0x02 (exec (.pllRefselWrite p k w) s)) ∧
    (¬ (s.phase = .steep ∧ k = 0) → ∃ t fs, regFields a = some fs ∧ exec (.pllRefselWrite p k w) s = .next (written t p a) ∧
      t.reg a = mergeWord (s.reg a) w fs ∧ (pllSt s k = 0 → pllSt t k = 0) ∧
      regsKept (fun b => b = a ∨ (0x4100 ≤ b ∧ b < 0x4200) ∨ b = R.PAGE_IRQ_RAW 0x004) s t ∧
      t = { enterSlot s p with regs := t.regs, clk := t.clk })) ∧
  (∀ (s : State) (k : Fin 4) (mhz : Nat), clkLive s = true → pllSt s k = 1 → pllCur s k ≠ 7 → (pllX s k).go = false →
    ∃ t, exec (.pllCalibrationDone k mhz) s = .next t ∧ t.reg (R.CLK_PLL_VCOF k) = BitVec.ofNat 32 (mhz % 2 ^ 13) ∧ pllSt t k = 1 ∧
      (mhz * 100 < 3200 * 98 ∨ mhz * 100 > 6400 * 102 → t.getF (R.CLK_PLL_STAT k) F.CLK_PLL_STAT_ACQ_CAUSE = 2 ∧
        (t.reg (R.PAGE_IRQ_RAW 0x004)).getLsbD (20 + k) = true ∧ (pllX t k).go = false) ∧
      (¬ (mhz * 100 < 3200 * 98 ∨ mhz * 100 > 6400 * 102) →
        (∃ q < 4, outDiv s k q ≠ 0 ∧ mhz * 100 > 1600 * 102 * outDiv s k q) →
        t.getF (R.CLK_PLL_STAT k) F.CLK_PLL_STAT_ACQ_CAUSE = 3 ∧ (t.reg (R.PAGE_IRQ_RAW 0x004)).getLsbD (20 + k) = true) ∧
      (¬ (mhz * 100 < 3200 * 98 ∨ mhz * 100 > 6400 * 102) →
        (∀ q < 4, outDiv s k q ≠ 0 → mhz * 100 ≤ 1600 * 102 * outDiv s k q) → pllX t k = { noPll with go := true }) ∧
      regsKept (fun b => (0x4100 ≤ b ∧ b < 0x4200) ∨ b = R.PAGE_IRQ_RAW 0x004) s t ∧ t = { s with regs := t.regs, clk := t.clk }) ∧
  (∀ (s : State) (k : Fin 4) (count : Nat), clkLive s = true →
    pllSt s k = 2 ∨ ((pllSt s k = 1 ∨ pllSt s k = 3) ∧ (pllX s k).go = true) →
    ∃ t, exec (.pllLockWindowEnd k count) s = .next t ∧ t.reg (R.CLK_PLL_WINCNT k) = BitVec.ofNat 32 (count % 2 ^ 21) ∧
      (let ok := windowAgrees s k count
       let x := pllX s k
       (pllSt s k ≠ 2 → ok = true → 2 ≤ x.agree → pllSt t k = 2 ∧ (t.reg (R.PAGE_IRQ_RAW 0x004)).getLsbD k = true ∧
         t.getF (R.CLK_PLL_STAT k) F.CLK_PLL_STAT_ACQ_CAUSE = 0) ∧
       (pllSt s k = 1 → ok = false ∨ x.agree < 2 → 255 ≤ x.wins → pllSt t k = 1 ∧
         t.getF (R.CLK_PLL_STAT k) F.CLK_PLL_STAT_ACQ_CAUSE = 4 ∧ (t.reg (R.PAGE_IRQ_RAW 0x004)).getLsbD (20 + k) = true) ∧
       ((pllSt s k = 2 ∧ ok = false ∧ 1 ≤ x.bad) ∨ (pllSt s k = 3 ∧ (ok = false ∨ x.agree < 2) ∧ 255 ≤ x.wins) →
         pllSt t k ≤ 1 ∧ (t.reg (R.PAGE_IRQ_RAW 0x004)).getLsbD (4 + k) = true ∧
         t.getF (R.CLK_PLL_EVCNT k) F.CLK_PLL_EVCNT_LOL = wrapAdd 16 (s.getF (R.CLK_PLL_EVCNT k) F.CLK_PLL_EVCNT_LOL) 1) ∧
       ((pllSt s k = 2 ∧ (ok = true ∨ x.bad = 0)) ∨ (pllSt s k ≠ 2 ∧ (ok = false ∨ x.agree < 2) ∧ x.wins < 255) →
         pllSt t k = pllSt s k ∧ (pllX t k).bad = (if ok then 0 else x.bad + 1) ∧
         (pllX t k).hist = (if ok then (count :: x.hist).take 4 else x.hist) ∧ (pllX t k).frozen = x.frozen ∧
         (pllSt s k ≠ 2 → (pllX t k).agree = (if ok then x.agree + 1 else 0) ∧ (pllX t k).wins = x.wins + 1))) ∧
      ClocksOnly { s with clk := t.clk } t (fun b => (0x4100 ≤ b ∧ b < 0x4200) ∨ b = R.PAGE_IRQ_RAW 0x004 ∨
        (s.phase = .steep ∧ s.surv.usePll = true ∧ (b = R.ISL_GEN_STAT 58 ∨ ∃ f ∈ followers s 58, b = R.ISL_GEN_STAT f))) ∧
      (s.phase = .steep → s.surv.usePll = true → k = 0 → pllSt s 0 ≠ 2 → pllSt t 0 = 2 →
        genActive t 58 = 1 ∧ genMhz t 58 = vcoMhz s 0 / outDiv s 0 0))

/-- R158, R160, R163 to R166, R184; Table 5.6. -/
def Obligations.SwitchesAndRestarts : Prop :=
  (∀ (s : State) (k : Fin 4), clkLive s = true → pllSt s k = 3 → (pllX s k).go = false →
    ∃ t, exec (.pllSwitchInput k) s = .next t ∧ pllX t k = { noPll with go := true, hist := (pllX s k).hist } ∧ (∀ q, q ≠ k.val → pllX t q = pllX s q) ∧
      t = { s with clk := { s.clk with pll := t.clk.pll } }) ∧
  (∀ (s : State) (k : Fin 4), clkLive s = true → pllSt s k = 2 → s.flag (R.CLK_PLL_STAT k) F.CLK_PLL_STAT_HOLD_PEND = true →
    ∃ t, exec (.pllRevertHoldoffExpire k) s = .next t ∧ pllSt t k = 3 ∧
      pllCur t k = s.getF (R.CLK_PLL_STAT k) F.CLK_PLL_STAT_BETTER ∧
      t.getF (R.CLK_PLL_STAT k) F.CLK_PLL_STAT_BETTER = 7 ∧ t.getF (R.CLK_PLL_STAT k) F.CLK_PLL_STAT_HOLD_PEND = 0 ∧
      t.getF (R.CLK_PLL_EVCNT k) F.CLK_PLL_EVCNT_SWITCHES = wrapAdd 16 (s.getF (R.CLK_PLL_EVCNT k) F.CLK_PLL_EVCNT_SWITCHES) 1 ∧
      (t.reg (R.PAGE_IRQ_RAW 4)).getLsbD (8 + k) = true ∧ (∀ q, q ≠ k.val → pllX t q = pllX s q) ∧
      pllX t k = { noPll with
        hist := (pllX s k).hist
        frozen := if (pllX s k).frozen.isSome then (pllX s k).frozen
          else some ((pllX s k).hist.foldl (· + ·) 0, (pllX s k).hist.length) } ∧
      regsKept (fun a => a = R.CLK_PLL_STAT k ∨ a = R.CLK_PLL_EVCNT k ∨ a = R.PAGE_IRQ_RAW 4) s t ∧
      t = { s with regs := t.regs, clk := { s.clk with pll := t.clk.pll } }) ∧
  (∀ (s : State) (rising ignored : Bool), ∃ t, exec (.syncInEdge rising ignored) s = .next t ∧
    (let acts := clkLive s && s.flag R.CLK_SYNC_STAT F.CLK_SYNC_STAT_ARMED &&
       (rising == !s.flag R.CLK_SYNC_CFG F.CLK_SYNC_CFG_EDGE) && !ignored
     let mask := s.getF R.CLK_SYNC_CFG F.CLK_SYNC_CFG_PLLMASK
     (acts = false → t = s) ∧
     (acts = true → t.flag R.CLK_SYNC_STAT F.CLK_SYNC_STAT_ARMED = false ∧
       t.getF R.CLK_SYNC_STAT F.CLK_SYNC_STAT_COUNT = wrapAdd 16 (s.getF R.CLK_SYNC_STAT F.CLK_SYNC_STAT_COUNT) 1 ∧
       (t.reg (R.PAGE_IRQ_RAW 4)).getLsbD 28 = true ∧
       (∀ q : Fin 4, bitOf t.clk.restart q = (bitOf mask q && pllRuns s q) ∧
         bitOf (t.getF R.CLK_SYNC_STAT F.CLK_SYNC_STAT_SKIPPED) q = (bitOf mask q && !pllRuns s q)) ∧
       regsKept (fun a => a = R.CLK_SYNC_STAT ∨ a = R.PAGE_IRQ_RAW 4) s t ∧
       t = { s with regs := t.regs, clk := { s.clk with restart := t.clk.restart } }))) ∧
  (∀ (s : State) (k : Fin 4), clkLive s = true → bitOf s.clk.restart k = true →
    ∃ t, exec (.pllOutputRestart k) s = .next t ∧ bitOf t.clk.restart k = false ∧
      (∀ g, tabGet (fun _ => 0) t.clk.restarts g = tabGet (fun _ => 0) s.clk.restarts g + (if g ∈ syncGens s k then 1 else 0)) ∧
      t = { s with clk := { s.clk with restart := t.clk.restart, restarts := t.clk.restarts } }) ∧
  (∀ (s : State) (p : Path) (w : Word),
    (let v := withField w F.CLK_SYNC_CMD_ARM 1
     let steep := s.phase = .steep ∧ bitOf (s.getF R.CLK_SYNC_CFG F.CLK_SYNC_CFG_PLLMASK) 0 = true
     accepts s p R.CLK_SYNC_CMD v = true →
      (steep → Refused s p R.CLK_SYNC_CMD 0x02 (exec (.syncArm p w) s)) ∧
      (¬ steep → ∃ t, exec (.syncArm p w) s = .next (written t p R.CLK_SYNC_CMD) ∧
        t = (enterSlot s p).setF R.CLK_SYNC_STAT F.CLK_SYNC_STAT_ARMED 1 ∧
        t.flag R.CLK_SYNC_STAT F.CLK_SYNC_STAT_ARMED = true ∧ regsKept (· = R.CLK_SYNC_STAT) s t)) ∧
    (let v := withField w F.CLK_SYNC_CMD_DISARM 1
     accepts s p R.CLK_SYNC_CMD v = true → bitOf v.toNat 0 = false →
      ∃ t, exec (.syncDisarm p w) s = .next (written t p R.CLK_SYNC_CMD) ∧
        t = (enterSlot s p).setF R.CLK_SYNC_STAT F.CLK_SYNC_STAT_ARMED 0 ∧
        t.flag R.CLK_SYNC_STAT F.CLK_SYNC_STAT_ARMED = false ∧ regsKept (· = R.CLK_SYNC_STAT) s t))

/-- R168, R172 to R175. That generator 58 takes no fallback while the survey owns it is the model's reading (log entry 35). -/
def Obligations.GeneratorsFallBack : Prop :=
  ∀ (s : State) (g : Fin 66), live s = true →
    (genKind s g = 2 ∨ surveyOwns s g = true → genActive s g = 1 → primaryRuns s g = false →
      (fallbackRuns s g = true → surveyOwns s g = false →
        GenGoes s (exec (.generatorFallback g) s) g 2 0 (fallbackMhz s g) 2) ∧
      (fallbackRuns s g = false ∨ surveyOwns s g = true → GenGoes s (exec (.generatorFallback g) s) g 0 1 (genMhz s g) 3)) ∧
    (genActive s g = 2 → fallbackRuns s g = false → GenGoes s (exec (.generatorFallbackStop g) s) g 0 2 (genMhz s g) 3) ∧
    (genActive s g = 0 → genCause s g = 2 → fallbackRuns s g = true → primaryRuns s g = false →
      GenGoes s (exec (.generatorFallbackStop g) s) g 2 0 (fallbackMhz s g) 2) ∧
    (awayFromPrimary s g = true → primaryRuns s g = true → s.flag (R.ISL_GEN_FB g) F.ISL_GEN_FB_AUTO_RET = true →
      GenGoes s (exec (.generatorReturn g) s) g 1 0 (primaryMhz s g) 4)

/-- R175, R186 to R188, R193, R195, R196, R226, R228, R229, R478, R577, R609. That a pad outside the range of R31 is one that carries
injected current is the model's reading (log entry 37); that every change of a pad is sampled is the model's
choice (log entry 24). -/
def Obligations.PadsAndPorts : Prop :=
  (∀ (s : State) (n : Fin 336) (mv : Option Int) (either : Bool), ∃ t, exec (.padLevelChange n mv either) s = .next t ∧
    (∀ q, fieldMv t q = if q = n.val then mv else fieldMv s q) ∧
    (let s1 := { s with nib := { s.nib with field := t.nib.field } }
     let k := n.val / 48
     let was := tabGet (fun _ => false) s.nib.cmp n
     let lvl := compareAt s1 n either
     let runs := s.phase ≠ .reset ∧ bankRuns s k = true
     let same := bankInjected s k = bankInjected s1 k
     (bankInjected s1 k = true ↔ ∃ q < 336, q / 48 = k ∧ ∃ v, fieldMv s1 q = some v ∧ (v < 0 ∨ (bankMv s k : Int) + 300 < v)) ∧
     (bankInjected s1 k = true → lvl = either) ∧
     (∀ lo hi, bankInjected s1 k = false → padMv s1 n = some (lo, hi) →
       let hyst : Int := hystMv (nibCfg s n F.NIB_NIB_CFG_HYST)
       let vio : Int := bankMv s k
       let level : Int := nibCfg s n F.NIB_NIB_CFG_THR * vio * 100 + (if was then -51200 * hyst else 51200 * hyst)
       let band : Int := vio * 1024 + 1024000 + hyst * 15360
       (level + band < lo * 102400 → lvl = true) ∧ (hi * 102400 < level - band → lvl = false)) ∧
     (∀ q, q ≠ n.val → (same ∨ q / 48 ≠ k) →
       ¬ (runs ∧ ∃ m, (m = n.val ∨ (¬ same ∧ m / 48 = k)) ∧ nibPair s m = some q) →
       tabGet (fun _ => false) t.nib.cmp q = tabGet (fun _ => false) s.nib.cmp q ∧ nibIn t q = nibIn s q ∧
       nibOutD t q = nibOutD s q ∧ nibOutE t q = nibOutE s q) ∧
     (¬ runs ∨ (same ∧ nibPair s n ≠ some n.val) → tabGet (fun _ => false) t.nib.cmp n = lvl) ∧
     (same → ¬ runs → t = { s with nib := { s.nib with field := t.nib.field, cmp := t.nib.cmp } }) ∧
     (¬ runs → regsKept (fun _ => False) s t ∧
       t = { s with freeCtr := t.freeCtr, nib := { s.nib with field := t.nib.field, cmp := t.nib.cmp } }) ∧
     (runs → (same → nibPair s n ≠ some n.val → nibIn t n = lvl ∧
         ∀ i < 7, s.getF (R.UART_MAP (i + 1)) F.UART_MAP_RX_NIB = n → domOn s 60 = true → genRuns s 63 = true →
           t.getF (R.UART_STAT (i + 1)) F.UART_STAT_LINE = b2n lvl) ∧
       (¬ same → ∀ q < 336, q / 48 = k → nibIn t q = tabGet (fun _ => false) t.nib.cmp q) ∧
       (∀ o i, same → nibPair s n = some o → nibPair s o = some i → i ≠ o → nibSrc s o = 0 → isOutput s o = true →
         bankArmed s (o / 48) = true → bankRuns s (o / 48) = true → nibOutD t o = nibIn t i ∧ nibOutE t o = true) ∧
       (∀ q, same → nibPair s n ≠ some q → nibOutD t q = nibOutD s q ∧ nibOutE t q = nibOutE s q) ∧
       regsKept (fun a => ∃ i < 7, a = R.UART_STAT (i + 1)) s t ∧
       t = { s with
         regs := t.regs, freeCtr := t.freeCtr, uart := t.uart, nib := { nibSensed s.nib t.nib with field := t.nib.field } }))) ∧
  (∀ (s : State) (x : Fin 48) (j : Fin 64) (d e : Bool), s.phase = .kiln ∨ s.phase = .run → genRuns s x = true →
    domOn s x = true → fenced s x = false → ∃ t, exec (.nibPortChange x j d e) s = .next t ∧ portOut t x j = (d, e) ∧
      (∀ k, k ≠ 64 * x.val + j.val → tabGet (fun _ => 0) t.fab.port k = tabGet (fun _ => 0) s.fab.port k) ∧
      (∀ n, portNib s x j = some n → boundPort s n = some (x.val, j.val) → nibSrc s n = 1 → isOutput s n = true →
        bankArmed s (n / 48) = true → bankRuns s (n / 48) = true → nibOutD t n = d ∧ nibOutE t n = e) ∧
      (∀ n, portNib s x j = some n → bankRuns s (n / 48) = false → t.nib = s.nib ∧
        (directPort s x n = false → crossWait t x j =
          if (crossWait s x j).length < 4 then crossWait s x j ++ [b2n d + 2 * b2n e] else crossWait s x j)) ∧
      (∀ q, portNib s x j ≠ some q → nibOutD t q = nibOutD s q ∧ nibOutE t q = nibOutE s q ∧ nibIn t q = nibIn s q) ∧
      regsKept (fun a => ∃ i < 7, a = R.UART_STAT (i + 1)) s t ∧
      t = { s with
        regs := t.regs, freeCtr := t.freeCtr, uart := t.uart, nib := nibSensed s.nib t.nib
        fab := { s.fab with port := t.fab.port, crossed := t.fab.crossed, crossQ := t.fab.crossQ } })

/-- R201 to R214, R218 to R220, Tables 6.1, 6.2 and 6.7. The timestamp's error is a free value (log entry 2). -/
def Obligations.CutoversSwitch : Prop :=
  (∀ (s : State) (p : Path) (w : Word),
    let v := cutWord w 0
    let g := bitsOf w.toNat 0 5
    let force := bitOf w.toNat 10
    let code := if s.phase ≠ .run then some 0x07 else if groupActive s g = true then some 0x01
      else if members s g = [] then some 0x02 else if groupOneClock s (members s g) = false then some 0x03
      else if bitOf w.toNat 8 = false ∧ (∃ n ∈ members s g, nibPair s n = none) then some 0x06
      else if force = true ∧ p = .fab then some 0x05 else if force = false ∧ groupDiverged s g = true then some 0x04 else none
    accepts s p R.CUT_CMD v = true →
    (∀ c, code = some c → Refused s p R.CUT_CMD c (exec (.cutoverRequest p w) s)) ∧
    (code = none → ∃ t, exec (.cutoverRequest p w) s = .next (written t p R.CUT_CMD) ∧
      groupState t g = (if bitOf w.toNat 9 then 1 else 2) ∧ t.getF (R.CUT_GRP_STAT g) F.CUT_GRP_STAT_RESULT = 0 ∧
      t.getF (R.CUT_GRP_STAT g) F.CUT_GRP_STAT_TARGET = bitsOf w.toNat 8 1 ∧
      t.getF (R.CUT_GRP_STAT g) F.CUT_GRP_STAT_FORCED = b2n force ∧ regsKept (· = R.CUT_GRP_STAT g) s t ∧
      (∀ h, h ∈ t.nib.evt ↔ if bitOf w.toNat 9 then h ∈ s.nib.evt ∨ (h = g ∧ pulseUnderWay s g = true) else h ∈ s.nib.evt ∧ h ≠ g) ∧
      t = { enterSlot s p with regs := t.regs, nib := { s.nib with evt := t.nib.evt } })) ∧
  (∀ (s : State) (p : Path) (w : Word),
    let v := cutWord w 1
    let g := bitsOf w.toNat 0 5
    accepts s p R.CUT_CMD v = true →
    (s.phase ≠ .run → Refused s p R.CUT_CMD 0x07 (exec (.cutoverCancel p w) s)) ∧
    (s.phase = .run → groupState s g ≠ 1 → exec (.cutoverCancel p w) s = .next (written (enterSlot s p) p R.CUT_CMD)) ∧
    (s.phase = .run → groupState s g = 1 → ∃ t, exec (.cutoverCancel p w) s = .next (written t p R.CUT_CMD) ∧
      groupState t g = 0 ∧ t.getF (R.CUT_GRP_STAT g) F.CUT_GRP_STAT_RESULT = 4 ∧
      (t.reg (R.PAGE_IRQ_RAW 0x010)).getLsbD 3 = true ∧ g ∉ t.nib.evt ∧
      regsKept (fun a => a = R.CUT_GRP_STAT g ∨ a = R.PAGE_IRQ_RAW 0x010) s t ∧
      t = { enterSlot s p with regs := t.regs, nib := { s.nib with evt := t.nib.evt } })) ∧
  (∀ (s : State) (g : Fin 32), s.phase = .run → groupState s g = 1 → g.val ∈ s.nib.evt →
    ∃ t, exec (.quietPointEvent g) s = .next t ∧ (∀ h, h ∈ t.nib.evt ↔ (h ∈ s.nib.evt ∧ h ≠ g.val)) ∧
      (groupGated s g = true → t.regs = s.regs) ∧
      (groupGated s g = false → groupDiverged s g = true → s.flag (R.CUT_GRP_STAT g) F.CUT_GRP_STAT_FORCED = false →
        groupState t g = 0 ∧ t.getF (R.CUT_GRP_STAT g) F.CUT_GRP_STAT_RESULT = 3 ∧
        (t.reg (R.PAGE_IRQ_RAW 0x010)).getLsbD 2 = true) ∧
      (groupGated s g = false → groupDiverged s g = false ∨ s.flag (R.CUT_GRP_STAT g) F.CUT_GRP_STAT_FORCED = true →
        groupState t g = 2 ∧ t.getF (R.CUT_GRP_STAT g) F.CUT_GRP_STAT_RESULT = 0) ∧
      regsKept (fun a => a = R.CUT_GRP_STAT g ∨ a = R.PAGE_IRQ_RAW 0x010) s t ∧
      t = { s with regs := t.regs, nib := { s.nib with evt := t.nib.evt } }) ∧
  (∀ (s : State) (g : Fin 32), s.phase = .run → groupState s g = 1 → g.val ∈ s.nib.evt → groupGated s g = false →
    exec (.cutoverTimeout g true) s = exec (.quietPointEvent g) s) ∧
  (∀ (s : State) (g : Fin 32) (same : Bool), s.phase = .run → groupState s g = 1 →
    same = false ∨ g.val ∉ s.nib.evt ∨ groupGated s g = true →
    ∃ t, exec (.cutoverTimeout g same) s = .next t ∧ groupState t g = 0 ∧
      t.getF (R.CUT_GRP_STAT g) F.CUT_GRP_STAT_RESULT = 2 ∧ (t.reg (R.PAGE_IRQ_RAW 0x010)).getLsbD 1 = true ∧
      g.val ∉ t.nib.evt ∧ regsKept (fun a => a = R.CUT_GRP_STAT g ∨ a = R.PAGE_IRQ_RAW 0x010) s t ∧
      t = { s with regs := t.regs, nib := { s.nib with evt := t.nib.evt } }) ∧
  (∀ (s : State) (g : Fin 32), s.phase = .run → groupState s g = 2 → groupGated s g = false →
    ∃ t, exec (.cutoverSwitch g) s = .next t ∧
      (let target := s.getF (R.CUT_GRP_STAT g) F.CUT_GRP_STAT_TARGET
       (∀ n ∈ members s g, nibSrc t n = target ∧
         (nibSrc s n ≠ target →
           (target = 0 → ∀ i, nibPair s n = some i → i ∉ members s g → nibOutD t n = nibIn s i ∧ nibOutE t n = true) ∧
           (target = 1 → (nibOutD t n, nibOutE t n) = fabricValue s n)) ∧
         (nibSrc s n = target → nibOutD t n = nibOutD s n ∧ nibOutE t n = nibOutE s n)) ∧
       (∀ n, n ∉ members s g → nibSrc t n = nibSrc s n ∧ nibOutD t n = nibOutD s n ∧ nibOutE t n = nibOutE s n ∧
         nibIn t n = nibIn s n)) ∧
      groupState t g = 0 ∧ t.getF (R.CUT_GRP_STAT g) F.CUT_GRP_STAT_RESULT = 1 ∧
      (t.reg (R.PAGE_IRQ_RAW 0x010)).getLsbD 0 = true ∧ g.val ∉ t.nib.evt ∧
      (domOn s 48 = false → t.reg (R.CUT_GRP_SW_TS_LO g) = 0 ∧ t.reg (R.CUT_GRP_SW_TS_HI g) = 0) ∧
      (domOn s 48 = true → ∃ e < 7, (t.reg (R.CUT_GRP_SW_TS_LO g)).toNat + 2 ^ 32 * (t.reg (R.CUT_GRP_SW_TS_HI g)).toNat =
        (s.cap.ts + e + (2 ^ 48 - 3)) % 2 ^ 48) ∧
      regsKept (fun a => a = R.CUT_GRP_STAT g ∨ a = R.CUT_GRP_SW_TS_LO g ∨ a = R.CUT_GRP_SW_TS_HI g ∨
        a = R.PAGE_IRQ_RAW 0x010 ∨ ∃ i < 7, a = R.UART_STAT (i + 1)) s t ∧
      t = { s with
        regs := t.regs, freeCtr := t.freeCtr, uart := t.uart
        nib := { nibSensed s.nib t.nib with evt := t.nib.evt, src := t.nib.src } })

/-- R233 to R239, R252, R253. -/
def Obligations.BlockMemories : Prop :=
  (∀ (s : State) (x : Fin 48) (m : Fin 24) (b : Fin 2) (w : Fin 512) (flip : BitVec 72), islandRuns s x = true →
    ∃ t, exec (.bramRead x m b w flip none) s = .next t ∧
      (let v := Nat.xor (bramGet s x m w) flip.toNat
       let key := 2 * (x.val * 24 + m.val) + b.val
       (∀ k, tabGet (fun _ => 0) t.fab.bram k = if k = bramKey x m w then v else tabGet (fun _ => 0) s.fab.bram k) ∧
       (∀ k, tabGet (fun _ => (0, false)) t.fab.bramOut k =
         if k = key then (eccData v, !eccUsable v) else tabGet (fun _ => (0, false)) s.fab.bramOut k) ∧
       (eccClass v = .good → t.regs = s.regs) ∧
       (∀ i, eccClass v = .correctable i →
         t.getF (R.FI_CE_CNT x) F.FI_CE_CNT_N = satAdd 16 (s.getF (R.FI_CE_CNT x) F.FI_CE_CNT_N) 1 ∧
         t.reg (R.FI_CE_LAST x) = BitVec.ofNat 32 (lastInfo m w 1 (syndrome v)) ∧
         (t.reg (R.PAGE_IRQ_RAW (fiPage x))).getLsbD 2 = true ∧
         regsKept (fun a => a = R.FI_CE_CNT x ∨ a = R.FI_CE_LAST x ∨ a = R.PAGE_IRQ_RAW (fiPage x)) s t) ∧
       (eccUsable v = false →
         t.getF (R.FI_UE_CNT x) F.FI_UE_CNT_N = satAdd 16 (s.getF (R.FI_UE_CNT x) F.FI_UE_CNT_N) 1 ∧
         t.reg (R.FI_UE_LAST x) = BitVec.ofNat 32 (lastInfo m w (if eccClass v = .poisoned then 3 else 1) (syndrome v)) ∧
         (t.reg (R.PAGE_IRQ_RAW (fiPage x))).getLsbD 3 = true ∧
         regsKept (fun a => a = R.FI_UE_CNT x ∨ a = R.FI_UE_LAST x ∨ a = R.PAGE_IRQ_RAW (fiPage x)) s t)) ∧
      t = { s with regs := t.regs, fab := { s.fab with bram := t.fab.bram, bramOut := t.fab.bramOut } }) ∧
  (∀ (s : State) (x : Fin 48) (m : Fin 24) (b : Fin 2) (w : Fin 512) (d : BitVec 64), islandRuns s x = true →
    ∃ t, exec (.bramWriteFull x m b w d none) s = .next t ∧
      (∀ k, tabGet (fun _ => 0) t.fab.bram k =
        if k = bramKey x m w then eccWord d.toNat else tabGet (fun _ => 0) s.fab.bram k) ∧
      t = { s with fab := { s.fab with bram := t.fab.bram } }) ∧
  (∀ (s : State) (x : Fin 48) (m : Fin 24) (b : Fin 2) (w : Fin 512) (d : BitVec 64) (be : BitVec 8) (flip : BitVec 72),
    islandRuns s x = true → be ≠ 255#8 → ∃ t, exec (.bramWritePartial x m b w d be flip none) s = .next t ∧
      (let v := Nat.xor (bramGet s x m w) flip.toNat
       (∀ k, tabGet (fun _ => 0) t.fab.bram k = if k = bramKey x m w then
           (if eccUsable v then eccWord (mergeBytes 8 d.toNat (eccData v) be.toNat)
            else poisonWord (mergeBytes 8 d.toNat (dataOf v) be.toNat))
         else tabGet (fun _ => 0) s.fab.bram k) ∧
       (eccClass v = .good ∨ eccClass v = .poisoned → t.regs = s.regs) ∧
       (∀ i, eccClass v = .correctable i →
         t.getF (R.FI_CE_CNT x) F.FI_CE_CNT_N = satAdd 16 (s.getF (R.FI_CE_CNT x) F.FI_CE_CNT_N) 1 ∧
         t.reg (R.FI_CE_LAST x) = BitVec.ofNat 32 (lastInfo m w 1 (syndrome v)) ∧
         (t.reg (R.PAGE_IRQ_RAW (fiPage x))).getLsbD 2 = true ∧
         regsKept (fun a => a = R.FI_CE_CNT x ∨ a = R.FI_CE_LAST x ∨ a = R.PAGE_IRQ_RAW (fiPage x)) s t) ∧
       (eccClass v = .uncorrectable →
         t.getF (R.FI_UE_CNT x) F.FI_UE_CNT_N = satAdd 16 (s.getF (R.FI_UE_CNT x) F.FI_UE_CNT_N) 1 ∧
         t.getF (R.FI_POISON_CNT x) F.FI_POISON_CNT_N = satAdd 16 (s.getF (R.FI_POISON_CNT x) F.FI_POISON_CNT_N) 1 ∧
         t.reg (R.FI_UE_LAST x) = BitVec.ofNat 32 (lastInfo m w 2 (syndrome v)) ∧
         (t.reg (R.PAGE_IRQ_RAW (fiPage x))).getLsbD 3 = true ∧ (t.reg (R.PAGE_IRQ_RAW (fiPage x))).getLsbD 4 = true ∧
         regsKept (fun a => a = R.FI_UE_CNT x ∨ a = R.FI_UE_LAST x ∨ a = R.FI_POISON_CNT x ∨
           a = R.PAGE_IRQ_RAW (fiPage x)) s t)) ∧
      t = { s with regs := t.regs, fab := { s.fab with bram := t.fab.bram } }) ∧
  (∀ (s : State) (x : Fin 48) (m : Fin 24) (w : Fin 512) (d e : BitVec 64) (be ce : BitVec 8), islandRuns s x = true →
    (let v := bramGet s x m w
     let out (t : State) (b : Nat) := tabGet (fun _ => (0, false)) t.fab.bramOut (2 * (x.val * 24 + m.val) + b)
     (∃ t, exec (.bramWritePartial x m 0 w d be 0#72 (some (.write w e ce 0#72))) s = .next t ∧
       exec (.bramWritePartial x m 1 w e ce 0#72 (some (.write w d be 0#72))) s = .next t ∧
       (eccUsable v = true → bramGet t x m w = eccWord (mergeBytes 8 e.toNat (mergeBytes 8 d.toNat (eccData v) be.toNat) ce.toNat))) ∧
     (∃ t, exec (.bramRead x m 0 w 0#72 (some (.write w e ce 0#72))) s = .next t ∧ out t 0 = (eccData v, !eccUsable v) ∧
       bramGet t x m w = eccWrite v e.toNat ce.toNat) ∧
     (∃ t, exec (.bramRead x m 1 w 0#72 (some (.write w d be 0#72))) s = .next t ∧ out t 1 = (eccData v, !eccUsable v) ∧
       bramGet t x m w = eccWrite v d.toNat be.toNat) ∧
     (∃ t, exec (.bramWriteFull x m 0 w d (some (.write w e ce 0#72))) s = .next t ∧
       bramGet t x m w = eccWord (mergeBytes 8 e.toNat d.toNat ce.toNat)))) ∧
  (∀ (s : State) (p : Path) (x : Fin 48) (w : Word), accepts s p (R.FI_ECC_CLR x) (withField w F.FI_ECC_CLR_CLR 1) = true →
    ∃ t, exec (.fiEccClr p x w) s = .next (written t p (R.FI_ECC_CLR x)) ∧
      (∀ a, t.reg a = if a = R.FI_CE_CNT x ∨ a = R.FI_UE_CNT x ∨ a = R.FI_POISON_CNT x ∨ a = R.FI_CE_LAST x ∨ a = R.FI_UE_LAST x
        then 0 else s.reg a) ∧ t = { enterSlot s p with regs := t.regs })

/-- R225 to R227, R242 to R244, R268 to R270. -/
def Obligations.SlicesAndHandshakes : Prop :=
  (∀ (s : State) (x : Fin 48) (k : Fin 32) (a : BitVec 27) (b : BitVec 18) (c : BitVec 48) (z : SliceZ) (sub sat : Bool),
    islandRuns s x = true → ¬ (z = .cascade ∧ k = 0) → ∃ t, exec (.sliceOperation x k a b c z sub sat) s = .next t ∧
      (let pOf (i : Nat) : Int := signedOf 48 (tabGet (fun _ => 0) s.fab.slP (x.val * 32 + i))
       let zv : Int := match z with
         | .zero => 0
         | .p => pOf k
         | .c => c.toInt
         | .cascade => signedOf 48 (tabGet (fun _ => 0) s.fab.slP (x.val * 32 + k - 1))
       let r : Int := if sub then zv - a.toInt * b.toInt else zv + a.toInt * b.toInt
       let lim : Int := if r > 0x7FFFFFFFFFFF then 0x7FFFFFFFFFFF else if r < -0x800000000000 then -0x800000000000 else r
       (∀ q, tabGet (fun _ => 0) t.fab.slP q = if q = x.val * 32 + k then (BitVec.ofInt 48 (if sat then lim else r)).toNat
         else tabGet (fun _ => 0) s.fab.slP q) ∧
       (∀ q, tabGet (fun _ => false) t.fab.slOv q = if q = x.val * 32 + k then sat && lim != r
         else tabGet (fun _ => false) s.fab.slOv q)) ∧
      t = { s with fab := { s.fab with slP := t.fab.slP, slOv := t.fab.slOv } }) ∧
  (∀ (s : State) (h : HsPort) (d : Option (BitVec 64)) (took y : Nat) (crosses : Bool), let q := hsGet s (hsKey h)
    hsDst h = some y → live s = true → hsBound q h = true → (d ≠ none → takes s (hsSrc h) = true ∧ q.wait.length < 4) →
    (took ≠ 0 → takes s y = true) → ∃ t, exec (.handshakeTransfer h d took crosses) s = .next t ∧
      (let r := hsGet t (hsKey h)
       (takes s y = false → r.wait = q.wait ++ d.toList ∧ r.queue = q.queue) ∧
       (takes s y = true → r.queue ++ r.wait = q.queue.drop took ++ q.wait ++ d.toList ∧
         (crosses = true → r.wait ≠ [] → 4 ≤ r.queue.length) ∧ (crosses = false → r.queue = q.queue.drop took) ∧
         (q.queue.length ≤ 4 → r.queue.length ≤ 4)) ∧ r.ends = hsEnds h) ∧
      (∀ k, k ≠ hsKey h → hsGet t k = hsGet s k) ∧ t = { s with fab := { s.fab with hs := t.fab.hs } }) ∧
  (∀ (s : State) (c : Crossing) (y : Nat), crossDst s c = some y → y < 48 → takes s y = true →
    (∀ h, c = .hs h → let q := hsGet s (hsKey h); hsBound q h = true ∧ q.wait ≠ [] ∧ q.queue.length < 4) →
    (c = .window → s.fab.uw ≠ []) →
    ∃ t, exec (.handshakeWedge c) s = .next t ∧ t.flag (R.PAGE_STAT (fiPage y)) F.PAGE_STAT_WEDGED = true ∧
      (t.reg (R.PAGE_IRQ_RAW (fiPage y))).getLsbD 31 = true ∧
      (∀ h, c = .hs h → t.reg (R.FI_WEDGE_INFO y) = BitVec.ofNat 32 (hsPortNo h + 256)) ∧
      (c = .master → t.reg (R.FI_WEDGE_INFO y) = 260#32) ∧ (c = .window → t.reg (R.FI_WEDGE_INFO y) = 261#32) ∧
      regsKept (fun a => a = R.PAGE_STAT (fiPage y) ∨ a = R.PAGE_IRQ_RAW (fiPage y) ∨ a = R.FI_WEDGE_INFO y) s t ∧
      t = { s with regs := t.regs }) ∧
  (∀ (s : State) (x : Fin 48), live s = true → fenced s x = true → drained s x = false →
    (domOn s x = true → launchedDone s x = true ∧ uwDone s x = true) → ∃ t, exec (.islandDrained x) s = .next t ∧
      drained t x = true ∧ (t.reg (R.PAGE_IRQ_RAW (fiPage x))).getLsbD 6 = true ∧
      regsKept (fun a => a = R.FI_ISL_STAT x ∨ a = R.PAGE_IRQ_RAW (fiPage x)) s t ∧ t = { s with regs := t.regs })

/-- R271 to R274, Tables 8.3, 8.4 and 8.6. Flip-flops, ports and probes of a loaded island drive free values (log entry 10). -/
def Obligations.PartialReconfiguration : Prop :=
  (∀ (s : State) (p : Path) (w : Word),
    let x := s.getF R.CFGC_PR_ISLAND F.CFGC_PR_ISLAND_ISL
    let code := if s.cfg.pr ≠ none then some 1 else if s.phase ≠ .run then some 2 else if domSt s x ≠ 0 then some 3
      else if ¬ (fenced s x = true ∧ drained s x = true) then some 4 else none
    accepts s p R.CFGC_PR_CMD (withField w F.CFGC_PR_CMD_GO 1) = true →
    (∀ c, code = some c → Refused s p R.CFGC_PR_CMD c (exec (.prRequest p w) s)) ∧
    (code = none → ∃ t, exec (.prRequest p w) s = .next (written t p R.CFGC_PR_CMD) ∧ verified t x = false ∧
      (∀ y : Fin 48, y.val ≠ x → verified t y = verified s y) ∧ t.reg R.CFGC_PR_STAT = 1 ∧
      t.cfg = { s.cfg with pr := some (x, s.regN R.CFGC_PR_SRC / 4096 * 4096) } ∧
      regsKept (fun a => a = R.CFGC_PR_STAT ∨ a = R.CFGC_VERIFIED0 + 4 * (x / 32)) s t ∧
      t = { enterSlot s p with regs := t.regs, cfg := t.cfg })) ∧
  (∀ (s : State) (x : Fin 64) (a : Nat) (bad : Option (Fin 1024)), s.cfg.pr = some (x.val, a) → live s = true → domOn s x = true →
    let st := s.getF R.CFGC_PR_STAT F.CFGC_PR_STAT_STATE
    let n := min (queuedEntries s x) 0xFFFF
    let crcOk := (crc32 (flashBytes s (a + 32) 262144)).toNat = flashWord s (a + 12)
    let failed (t : State) (why d : Nat) : Prop := t.reg R.CFGC_PR_STAT = BitVec.ofNat 32 (5 + 256 * why + 65536 * d) ∧
      (t.reg (R.PAGE_IRQ_RAW 0x020)).getLsbD 1 = true ∧ islSrcOf t x = 0 ∧ verified t x = verified s x
    (s.reg R.CFGC_PR_STAT = 1 → ∃ t, exec (.prComplete bad false) s = .next t ∧ t.cfg.pr = none ∧
      (sectionHeaderOk s x a = false → failed t 4 0 ∧ t.cfg.mem = s.cfg.mem ∧ t.fab = s.fab) ∧
      (sectionHeaderOk s x a = true → FramesLoaded s t x a ∧ (¬ crcOk → failed t 5 n) ∧ (crcOk → bad ≠ none → failed t 6 n) ∧
        (crcOk → bad = none → t.reg R.CFGC_PR_STAT = BitVec.ofNat 32 (4 + 65536 * n) ∧
          (t.reg (R.PAGE_IRQ_RAW 0x020)).getLsbD 0 = true ∧ islSrcOf t x = a ∧ verified t x = true)) ∧
      (∀ y : Fin 48, y.val ≠ x.val → verified t y = verified s y ∧ islSrcOf t y = islSrcOf s y) ∧
      regsKept (fun a => a = R.CFGC_PR_STAT ∨ a = R.PAGE_IRQ_RAW 0x020 ∨ a = R.CFGC_VERIFIED0 + 4 * (x / 32)) s t ∧
      t = { s with
        regs := t.regs, freeCtr := t.freeCtr
        cfg := { s.cfg with mem := t.cfg.mem, islSrc := t.cfg.islSrc, read := t.cfg.read, pr := none }
        fab := { s.fab with
          ff := t.fab.ff, bram := t.fab.bram, hs := t.fab.hs, port := t.fab.port, probe := t.fab.probe } }) ∧
    (st = 1 → sectionHeaderOk s x a = true → ∃ t, exec (.prComplete bad true) s = .next t ∧
      t.reg R.CFGC_PR_STAT = BitVec.ofNat 32 (2 + 65536 * n) ∧ regsKept (· = R.CFGC_PR_STAT) s t ∧
      (∀ k, hsGet t k = if k ∈ queueKeys s x then { hsGet s k with queue := [] } else hsGet s k) ∧
      t = { s with regs := t.regs, cfg := { s.cfg with read := some (a, 262176) }, fab := { s.fab with hs := t.fab.hs } }) ∧
    (st = 2 → ∃ t, exec (.prComplete bad true) s = .next t ∧ t.getF R.CFGC_PR_STAT F.CFGC_PR_STAT_STATE = 3 ∧
      regsKept (· = R.CFGC_PR_STAT) s t ∧
      (∀ i < 20480, tabGet (fun _ => 0) t.cfg.mem (x.val * 20480 + i) = eccWord (sectionWord s a i)) ∧
      (∀ i < 12288, tabGet (fun _ => 0) t.fab.bram (x.val * 12288 + i) = eccWord (sectionWord s a (20480 + i))) ∧
      t = { s with regs := t.regs, cfg := { s.cfg with mem := t.cfg.mem }, fab := { s.fab with bram := t.fab.bram } }) ∧
    (st = 3 → exec (.prComplete bad true) s = exec (.prComplete bad false) s ∧ ∃ t, exec (.prComplete bad true) s = .next t ∧
      (let same := (∀ i < 20480, tabGet (fun _ => 0) s.cfg.mem (x.val * 20480 + i) = eccWord (sectionWord s a i)) ∧
         ∀ i < 12288, tabGet (fun _ => 0) s.fab.bram (x.val * 12288 + i) = eccWord (sectionWord s a (20480 + i))
       (¬ crcOk → t.getF R.CFGC_PR_STAT F.CFGC_PR_STAT_STATE = 5 ∧ t.getF R.CFGC_PR_STAT F.CFGC_PR_STAT_REASON = 5) ∧
       (crcOk → bad ≠ none ∨ ¬ same → t.getF R.CFGC_PR_STAT F.CFGC_PR_STAT_STATE = 5 ∧
         t.getF R.CFGC_PR_STAT F.CFGC_PR_STAT_REASON = 6 ∧ verified t x = verified s x) ∧
       (crcOk → bad = none → same → t.getF R.CFGC_PR_STAT F.CFGC_PR_STAT_STATE = 4 ∧ verified t x = true ∧ islSrcOf t x = a)) ∧
      t.cfg.pr = none ∧ t.cfg.mem = s.cfg.mem ∧ t.fab.bram = s.fab.bram))

/-- R279 to R282, R284, Table 8.8. -/
def Obligations.BlotterScrubs : Prop :=
  ∀ (s : State) (flips : List (Fin 32 × BitVec 72)) (x f : Nat), blotLive s = true → s.cfg.pause = false → s.cfg.reload = false →
    (let x0 := s.getF R.BLOT_STAT F.BLOT_STAT_ISL
     let here := s.cfg.skip = true ∨ scrubbable s x0 = true
     (here → x = x0 ∧ f = s.getF R.BLOT_STAT F.BLOT_STAT_FRAME) ∧
     (¬ here → f = 0 ∧ (scrubFrom s x0 = some x ∨ (scrubFrom s x0 = none ∧ scrubFrom s 0 = some x)))) →
    ∃ t, exec (.blotterFrameRead flips) s = .next t ∧
      (let v := cfgGet (upsetFrame s x f flips) x f
       let bad := ∃ w < 32, eccUsable (v w) = false
       let fixed := ((List.range 32).filter (fun w => isCorrectable (v w))).length
       (∀ k, (∀ w < 32, k ≠ cfgKey x f w) → tabGet (fun _ => 0) t.cfg.mem k = tabGet (fun _ => 0) (upsetFrame s x f flips).cfg.mem k) ∧
       (∀ w < 32, (s.cfg.skip = false → ¬ bad → isCorrectable (v w) = true → cfgGet t x f w = eccWord (eccData (v w))) ∧
         (s.cfg.skip = true ∨ bad ∨ isCorrectable (v w) = false → cfgGet t x f w = v w)) ∧
       (s.cfg.skip = true → ¬ bad →
         regsKept (fun a => a = R.BLOT_STAT ∨ a = R.BLOT_CYCLES ∨ a = R.PAGE_IRQ_RAW 0x021) s t ∧ BlotMoves s t x 639) ∧
       (s.cfg.skip = false → ¬ bad →
         t.getF R.BLOT_CORR_CNT F.BLOT_CORR_CNT_N = satAdd 16 (s.getF R.BLOT_CORR_CNT F.BLOT_CORR_CNT_N) fixed ∧
         (0 < fixed → (t.reg (R.PAGE_IRQ_RAW 0x021)).getLsbD 1 = true) ∧ BlotMoves s t x f ∧
         regsKept (fun a => a = R.BLOT_STAT ∨ a = R.BLOT_CYCLES ∨ a = R.PAGE_IRQ_RAW 0x021 ∨ a = R.BLOT_CORR_CNT ∨
           a = R.BLOT_LAST_CORR) s t) ∧
       (bad →
         t.getF R.BLOT_UNCORR_CNT F.BLOT_UNCORR_CNT_N = satAdd 16 (s.getF R.BLOT_UNCORR_CNT F.BLOT_UNCORR_CNT_N) 1 ∧
         (t.reg (R.PAGE_IRQ_RAW 0x021)).getLsbD 2 = true ∧ verified t x = false ∧
         (let last (o : Nat) := t.reg R.BLOT_LAST_UNCORR = BitVec.ofNat 32 (f + 65536 * x + 16777216 * o)
          let kept := regsKept (fun a => a = R.BLOT_STAT ∨ a = R.BLOT_CYCLES ∨ a = R.PAGE_IRQ_RAW 0x021 ∨ a = R.BLOT_UNCORR_CNT ∨
            a = R.BLOT_LAST_UNCORR ∨ a = R.CFGC_VERIFIED0 + 4 * (x / 32)) s t
          let crit := s.mapBit R.CFGC_CRIT0 4 x
          let again := s.flag R.BLOT_CTRL F.BLOT_CTRL_RELOAD
          (crit = true → last 4 ∧ HaltEntered s t 4 (x + 65536 * f) 0) ∧
          (crit = false → again = false → last 1 ∧ kept ∧ BlotMoves s t x (if s.cfg.skip then 639 else f)) ∧
          (crit = false → again = true → s.cfg.skip = true → last 5 ∧ kept ∧ BlotMoves s t x 639) ∧
          (crit = false → again = true → s.cfg.skip = false → t.cfg.reload = true ∧ kept)))) ∧
      (t.phase = .run → t = { s with regs := t.regs, cfg := t.cfg })

/-- R279 to R281, R283, R285, Table 8.8. That CNT_CLR leaves CYCLES is a reading (log entry 110). -/
def Obligations.BlotterReloads : Prop :=
  (∀ (s : State) (flips : List (Fin 32 × BitVec 72)), let x := s.getF R.BLOT_STAT F.BLOT_STAT_ISL
    let f := s.getF R.BLOT_STAT F.BLOT_STAT_FRAME
    let img (w : Nat) := eccWord (leNat (((flashBytes s (islSrcOf s x + 32 + 256 * f) 256).drop (8 * w)).take 8))
    blotLive s = true → s.cfg.reload = true → s.cfg.pr = none → ∃ t, exec (.blotterReload flips) s = .next t ∧
      (let good := ∀ w < 32, cfgGet t x f w = img w
       let last (o : Nat) := t.reg R.BLOT_LAST_UNCORR = BitVec.ofNat 32 (f + 65536 * x + 16777216 * o)
       (∀ k, (∀ w < 32, k ≠ cfgKey x f w) → tabGet (fun _ => 0) t.cfg.mem k = tabGet (fun _ => 0) s.cfg.mem k) ∧ (flips = [] → good) ∧
       (good → last 2 ∧ verified t x = true ∧ (t.reg (R.PAGE_IRQ_RAW 0x021)).getLsbD 3 = true ∧
         t.getF R.BLOT_RELOAD_CNT F.BLOT_RELOAD_CNT_N = satAdd 16 (s.getF R.BLOT_RELOAD_CNT F.BLOT_RELOAD_CNT_N) 1 ∧
         t.reg R.BLOT_RELFAIL_CNT = s.reg R.BLOT_RELFAIL_CNT) ∧
       (¬ good → last 3 ∧ verified t x = verified s x ∧ (t.reg (R.PAGE_IRQ_RAW 0x021)).getLsbD 4 = true ∧
         t.getF R.BLOT_RELFAIL_CNT F.BLOT_RELFAIL_CNT_N = satAdd 16 (s.getF R.BLOT_RELFAIL_CNT F.BLOT_RELFAIL_CNT_N) 1 ∧
         t.reg R.BLOT_RELOAD_CNT = s.reg R.BLOT_RELOAD_CNT)) ∧ BlotMoves s t x f ∧
      regsKept (fun a => a = R.BLOT_STAT ∨ a = R.BLOT_CYCLES ∨ a = R.PAGE_IRQ_RAW 0x021 ∨ a = R.BLOT_RELOAD_CNT ∨
        a = R.BLOT_RELFAIL_CNT ∨ a = R.BLOT_LAST_UNCORR ∨ a = R.CFGC_VERIFIED0 + 4 * (x / 32)) s t ∧
      t = { s with regs := t.regs, cfg := t.cfg }) ∧
  (∀ (s : State) (y : Nat), blotLive s = true → s.cfg.pause = true → (scrubFrom s 0).getD 0 = y →
    ∃ t, exec .blotterIntervalExpire s = .next t ∧ t.getF R.BLOT_STAT F.BLOT_STAT_ISL = y ∧
      t.getF R.BLOT_STAT F.BLOT_STAT_FRAME = 0 ∧ t.cfg.pause = false ∧ blotRunning t = true ∧ regsKept (· = R.BLOT_STAT) s t ∧
      t = { s with regs := t.regs, cfg := { s.cfg with pause := false } }) ∧
  (∀ (s : State) (p : Path) (w : Word) (y : Nat), accepts s p R.BLOT_CTRL w = true → (scrubFrom s 0).getD 0 = y →
    ∃ t, exec (.blotterCtrlWrite p w) s = .next (written t p R.BLOT_CTRL) ∧
      t.flag R.BLOT_CTRL F.BLOT_CTRL_RUN = bitOf w.toNat 0 ∧
      (bitOf w.toNat 0 = true → s.phase = .run → blotRunning s = false → blotRunning t = true ∧ t.cfg.pause = false ∧
        t.getF R.BLOT_STAT F.BLOT_STAT_ISL = y ∧ t.getF R.BLOT_STAT F.BLOT_STAT_FRAME = 0) ∧
      (bitOf w.toNat 0 = true → (s.phase ≠ .run ∨ blotRunning s = true) → t.reg R.BLOT_STAT = s.reg R.BLOT_STAT ∧ t.cfg = s.cfg) ∧
      (bitOf w.toNat 0 = false → t.cfg = s.cfg ∧
        blotRunning t = (blotRunning s && !(s.cfg.pause || (!s.cfg.reload && (blotPos s).isNone)))) ∧
      regsKept (fun a => a = R.BLOT_CTRL ∨ a = R.BLOT_STAT) s t ∧ t = { enterSlot s p with regs := t.regs, cfg := t.cfg }) ∧
  (∀ (s : State) (p : Path) (w : Word), accepts s p R.BLOT_CNT_CLR (withField w F.BLOT_CNT_CLR_CLR 1) = true →
    ∃ t, exec (.blotCntClr p w) s = .next (written t p R.BLOT_CNT_CLR) ∧
      (∀ a, t.reg a = if a = R.BLOT_CORR_CNT ∨ a = R.BLOT_UNCORR_CNT ∨ a = R.BLOT_RELOAD_CNT ∨ a = R.BLOT_RELFAIL_CNT ∨
        a = R.BLOT_LAST_CORR ∨ a = R.BLOT_LAST_UNCORR then 0 else s.reg a) ∧ t = { enterSlot s p with regs := t.regs })

/-- STOP or TRIG of a capture whose post-trigger words are all stored: it is DONE by then, and the command refused (R295, R312,
Table 9.3). -/
def LateRefused (p : Path) (o : Out) : Prop :=
  ∃ t, o = .next t ∧ CaptureDone t 1 ∧ respOf t p = .refused ∧ t.reg (R.PAGE_ERR_CODE 0x030) = BitVec.ofNat 32 (6 + 256 * p.code)

/-- R292 to R296, Tables 9.2, 9.3 and 9.5. A write that waits for its slot (R114) meets the timestamp after the wait. -/
def Obligations.CaptureControl : Prop :=
  (∀ (s : State) (p : Path) (w : Word),
    let gs := groupsOn s
    let full := s.flag R.CAP_CTRL F.CAP_CTRL_MODE
    let len := (gs.map (fun g => if groupDe s g then 2 else 1)).sum
    let code := if s.phase ≠ .run then some 0x07 else if capActive s = true ∨ spillBusy s = true then some 0x01
      else if gs = [] then some 0x02 else if 25 < (gs.filter (groupDe s)).length then some 0x03
      else if full = true ∧ 56 < len then some 0x04 else if spillOn s = true ∧ domOn s 57 = false then some 0x05 else none
    accepts s p R.CAP_CMD (withField w F.CAP_CMD_ARM 1) = true →
    (∀ c, code = some c → Refused s p R.CAP_CMD c (exec (.captureArm p w) s)) ∧
    (code = none → ∃ t, exec (.captureArm p w) s = .next (written t p R.CAP_CMD) ∧ CaptureOnly (enterSlot s p) t ∧
      t.reg R.CAP_STAT = BitVec.ofNat 32 (1 + 512 * b2n (spillOn s) + 65536 * (if full then len else 0)) ∧
      (∀ a ∈ [R.INK_WR, R.INK_RD, R.INK_OLDEST, R.INK_FILL, R.INK_LOST, R.INK_THR_DROP, R.INK_FULL_INFO, R.INK_TRIG_IDX,
        R.INK_SPILL_WR, R.INK_SPILL_RD, R.INK_SPILL_OLDEST], t.reg a = 0) ∧
      (let c := (enterSlot s p).cap
       let e := edgeTs (enterSlot s p)
       t.cap = { noCap with
         ts := c.ts, samp := c.samp, sampF := c.sampF, s1 := c.s1, s2 := c.s2, s3 := c.s3, hist := c.hist, ledge := c.ledge
         ports := c.ports, fresh := c.fresh, trig := c.trig, ink := c.ink, fq := [(10 * 2 ^ 60 + e, 0)], bpos := 1, hi := some (e / 2 ^ 36) }))) ∧
  (∀ (s : State) (p : Path) (w : Word), accepts s p R.CAP_CMD (withField w F.CAP_CMD_STOP 1) = true → bitOf w.toNat 0 = false →
    (capActive s = false → Refused s p R.CAP_CMD 0x06 (exec (.captureStop p w) s)) ∧
    (capActive s = true → postDue s = true → LateRefused p (exec (.captureStop p w) s)) ∧
    (capActive s = true → postDue s = false → ∃ t, exec (.captureStop p w) s = .next (written t p R.CAP_CMD) ∧ CaptureDone t 2 ∧
      trigsDue t = [] ∧ CaptureTraps (enterSlot s p) t)) ∧
  (∀ (s : State) (p : Path) (w : Word), accepts s p R.CAP_CMD (withField w F.CAP_CMD_TRIG 1) = true →
    bitOf w.toNat 0 = false → bitOf w.toNat 1 = false →
    (capActive s = false → Refused s p R.CAP_CMD 0x06 (exec (.captureTrig p w) s)) ∧
    (capActive s = true → postDue s = true → LateRefused p (exec (.captureTrig p w) s)) ∧
    (capActive s = true → postDue s = false →
      ∃ t, exec (.captureTrig p w) s = .next (written t p R.CAP_CMD) ∧ Triggered (enterSlot s p) t 0xFF ∧
      CaptureTraps (enterSlot s p) t)) ∧
  (∀ (s : State) (arg : Nat) (more : List Nat), live s = true → domOn s 48 = true → genRuns s 55 = true → s.cap.stop = false →
    trigsDue s = arg :: more →
    ∃ t, exec .captureTrigger s = .next t ∧ t.cap.trig = s.cap.trig.erase (0, arg) ∧ trigsDue t = more ∧ CaptureTraps s t ∧
      (capActive s = false → t = { s with cap := { s.cap with trig := s.cap.trig.erase (0, arg) } }) ∧
      (capActive s = true → Triggered s t arg)) ∧
  (∀ s : State, live s = true → domOn s 48 = true → capState s = 2 → (∃ n, s.cap.post = some n ∧ s.regN R.CAP_POST ≤ n) →
    ∃ t, exec .capturePostDone s = .next t ∧ CaptureDone t 1 ∧ CaptureOnly s t)

/-- R287 to R291, R297 to R311, R376, Table 9.6. Edges that come as commands, and the write port's share of each, are the model's
(log entry 3); a spill of a stopped capture ends under R306. -/
def Obligations.InkwellRuns : Prop :=
  (∀ (s : State) (pr : List (Fin 64 × Bool)) (fall : List (Fin 336 × Bool)) (e : Nat), live s = true → domOn s 48 = true → genRuns s 55 = true →
    fullDue s = false → postDue s = false → throttleOffDue s = false → traceDue s = false → quillSettled s = true →
    inkEdgesOk s e = true →
    ∃ t, exec (.captureSample pr fall e) s = .next t ∧ t.cap.ts = wrapAdd 48 s.cap.ts 1 ∧ t.cap.fresh = true ∧
      t.cap.samp = sampleNow { s with fab := t.fab } ∧
      t.cap.sampF = fallTab t.cap.samp fall ∧
      t.cap.trig = (s.cap.trig.filter (fun q => q.1 != 0)).map (fun q => (q.1 - 1, q.2)) ∧
      (s.cap.stop = true → capActive s = true → CaptureDone t 2) ∧
      (capActive s = true → s.cap.stop = false → trigsDue s = [] → e = 0 → s.cap.gap = false → s.cap.lost = 0 →
        (s.flag R.CAP_CTRL F.CAP_CTRL_MODE = false → ∀ g, groupsOn s = [g] → TransStored s t g) ∧
        (s.flag R.CAP_CTRL F.CAP_CTRL_MODE = true → FrameStored s t ∧
          (throttling s = true → s.cap.thr % 2 ^ s.getF R.INK_CTRL F.INK_CTRL_THR_SHIFT ≠ 0 → t.cap.fq = s.cap.fq ∧
            t.getF R.INK_THR_DROP F.INK_THR_DROP_N = satAdd 32 (s.getF R.INK_THR_DROP F.INK_THR_DROP_N) 1))) ∧
      CaptureTraps { s with fab := t.fab, trc := t.trc, tdc := t.tdc } t ∧ t.fab = { s.fab with probe := t.fab.probe } ∧
      t.tdc = { s.tdc with tb := t.tdc.tb } ∧
      (∀ h < 2, tbOf t h = if tbWithCap s h then (tbOf s h + 1) % 2 ^ 64 else tbOf s h) ∧
      (trcRun s = false → t.trc = s.trc)) ∧
  (∀ (s : State) (pr : List (Fin 64 × Bool)) (fall : List (Fin 336 × Bool)) (e : Nat), live s = true → domOn s 48 = true → genRuns s 55 = false →
    fullDue s = false → postDue s = false → throttleOffDue s = false → inkEdgesOk s e = true →
    ∃ t, exec (.captureSample pr fall e) s = .next t ∧ t.cap.ts = s.cap.ts ∧ t.cap.samp = s.cap.samp ∧ CaptureOnly s t ∧
      (e = 0 → t = s)) ∧
  (∀ s : State, let c := fullCause s
    let x := s.getF R.INK_CTRL F.INK_CTRL_TRAP_CTX
    let trap := s.flag R.INK_CTRL F.INK_CTRL_TRAP_EN = true ∧ ctxRuns s x = true
    let full := { s.cap with ring := s.cap.ring || c == 1, rate := s.cap.rate || c == 2 }
    live s = true → domOn s 49 = true → capActive s = true → throttling s = false → c ≠ 0 →
    ∃ t, exec .inkwellFull s = .next t ∧ t.getF R.INK_FULL_INFO F.INK_FULL_INFO_CAUSE = c ∧
      t.getF R.INK_FULL_INFO F.INK_FULL_INFO_COUNT = satAdd 16 (s.getF R.INK_FULL_INFO F.INK_FULL_INFO_COUNT) 1 ∧
      (t.reg (R.PAGE_IRQ_RAW 0x031)).getLsbD 0 = true ∧
      (trap → t.getF (R.QCX_STAT x) F.QCX_STAT_PEND = Nat.lor (s.getF (R.QCX_STAT x) F.QCX_STAT_PEND) 2) ∧
      (¬ trap → t.reg (R.QCX_STAT x) = s.reg (R.QCX_STAT x)) ∧
      (inkPolicy s = 0 → trap → capState t = capState s ∧ t.cap = full) ∧
      ((inkPolicy s = 0 ∧ ¬ trap) ∨ inkPolicy s = 1 → CaptureDone t 3) ∧
      (inkPolicy s = 2 → capState t = capState s ∧ t.cap = { full with wrap := true }) ∧
      (inkPolicy s = 3 → throttling t = true ∧ (t.reg (R.PAGE_IRQ_RAW 0x031)).getLsbD 1 = true ∧ Marked s t 5
        (if s.flag R.CAP_CTRL F.CAP_CTRL_MODE then s.getF R.INK_CTRL F.INK_CTRL_THR_SHIFT else 0) 0) ∧
      CaptureOnly (s.setReg (R.QCX_STAT x) (t.reg (R.QCX_STAT x))) t) ∧
  (∀ s : State, live s = true → domOn s 49 = true → capActive s = true → throttling s = true →
    unconsumed s ≤ s.getF R.INK_LOWWAT F.INK_LOWWAT_BLOCKS → ∃ t, exec .throttleOff s = .next t ∧ throttling t = false ∧
      t.cap.ring = false ∧ t.cap.rate = false ∧ (t.reg (R.PAGE_IRQ_RAW 0x031)).getLsbD 2 = true ∧ Marked s t 6 0 0 ∧ CaptureOnly s t) ∧
  (∀ (s : State) (n : Nat), live s = true → n ∈ s.cap.spOut → ∃ t, exec (.spillLineAck n) s = .next t ∧
      t.cap.spOut = s.cap.spOut.erase n ∧ s.cap.freed ≤ t.cap.freed ∧
      (t.cap.spOut = [] → t.cap.freed = max s.cap.freed (min s.cap.spBlk s.cap.blocks)) ∧
      (t.cap.spOut = [] → capState s = 3 → spillTotal s ≤ s.cap.spBlk → spillBusy t = false) ∧
      (t.cap.spOut ≠ [] → spillBusy t = spillBusy s) ∧
      t.cap = { s.cap with spOut := t.cap.spOut, freed := t.cap.freed, rate := s.cap.rate && t.cap.freed == s.cap.freed } ∧
      CaptureOnly s t) ∧
  (∀ (s : State) (p : Path) (spill : Bool) (w : Word), let a := if spill then R.INK_SPILL_RD else R.INK_RD
    let m := if spill then spillSize s else 512
    let v := bitsOf w.toNat 0 (if spill then 20 else 9)
    let lo := if spill then oldestSpill s else oldestBlock s
    let hi := if spill then spillDone s else s.cap.blocks
    let held (b : Nat) := v < m ∧ lo ≤ b ∧ b ≤ hi ∧ b % m = v
    accepts s p a w = true →
    (spillOn s ≠ spill ∨ (∀ b, ¬ held b) → Refused s p a 0x02 (exec (.inkRdWrite p spill w) s)) ∧
    (∀ b, spillOn s = spill → held b → (∀ b', held b' → b ≤ b') → ∃ t, exec (.inkRdWrite p spill w) s = .next (written t p a) ∧
      t.regN a = v ∧ t.cap = { (enterSlot s p).cap with freed := if spill then s.cap.freed else b
                                                        spFreed := if spill then b else s.cap.spFreed } ∧
      CaptureOnly (enterSlot s p) t)) ∧
  (∀ (s : State) (p : Path) (flip : BitVec 72), acceptsRead s p R.INK_WIN_LO = true →
    (let i := s.getF R.INK_WIN_ADDR F.INK_WIN_ADDR_WORD
     let v := Nat.xor (tabGet (fun _ => 0) s.cap.ink i) flip.toNat
     let d := match eccClass v with | .correctable _ => eccData v | _ => dataOf v
     ∃ t, exec (.inkWindowRead p false flip) s = .next (readDone t p (BitVec.ofNat 32 d)) ∧ t.regN R.INK_WIN_HI = d / 2 ^ 32 % 2 ^ 32 ∧
      tabGet (fun _ => 0) t.cap.ink i = v ∧ t.getF R.INK_WIN_ADDR F.INK_WIN_ADDR_WORD = i ∧
      t.flag R.INK_WIN_ADDR F.INK_WIN_ADDR_UE = !eccUsable v ∧
      (eccClass v = .good → t.reg R.INK_CE_CNT = s.reg R.INK_CE_CNT ∧ t.reg R.INK_UE_CNT = s.reg R.INK_UE_CNT) ∧
      (∀ q, eccClass v = .correctable q → t.getF R.INK_CE_CNT F.INK_CE_CNT_N = satAdd 16 (s.getF R.INK_CE_CNT F.INK_CE_CNT_N) 1 ∧
        (t.reg (R.PAGE_IRQ_RAW 0x031)).getLsbD 3 = true) ∧
      (eccUsable v = false → t.getF R.INK_UE_CNT F.INK_UE_CNT_N = satAdd 16 (s.getF R.INK_UE_CNT F.INK_UE_CNT_N) 1 ∧
        (t.reg (R.PAGE_IRQ_RAW 0x031)).getLsbD 4 = true) ∧
      regsKept (fun a => a = R.INK_WIN_ADDR ∨ a = R.INK_WIN_LO ∨ a = R.INK_WIN_HI ∨ a = R.INK_CE_CNT ∨ a = R.INK_UE_CNT ∨
        a = R.PAGE_IRQ_RAW 0x031) s t ∧
      t = { enterSlot s p with regs := t.regs, cap := { (enterSlot s p).cap with ink := t.cap.ink } })) ∧
  (∀ (s : State) (p : Path) (flip : BitVec 72), acceptsRead s p R.INK_WIN_HI = true →
    ∃ t, exec (.inkWindowRead p true flip) s = .next (readDone t p (s.reg R.INK_WIN_HI)) ∧
      t.getF R.INK_WIN_ADDR F.INK_WIN_ADDR_WORD = (s.getF R.INK_WIN_ADDR F.INK_WIN_ADDR_WORD + 1) % 2 ^ 18 ∧
      regsKept (· = R.INK_WIN_ADDR) s t ∧ t = { enterSlot s p with regs := t.regs })

/-- R323, R332, R333, R341, Table 10.6. That START keeps DBL is the model's reading (log entry 111). -/
def Obligations.QuillStartsAndStops : Prop :=
  (∀ (s : State) (p : Path) (x : Fin 8) (w : Word), let a := R.QCX_CMD x
    accepts s p a (withField w F.QCX_CMD_START 1) = true →
    let base := s.regN (R.QCX_BASE x)
    let top := s.regN (R.QCX_LIMIT x)
    let within := fun n => base ≤ n ∧ n ≤ top
    let ok := base ≤ top ∧ within (s.regN (R.QCX_START_ADDR x)) ∧ within (s.regN (R.QCX_VBASE x)) ∧ within (s.regN (R.QCX_VBASE x) + 5)
    (s.phase ≠ .run → Refused s p a 0x07 (exec (.quillStart p x w) s)) ∧
    (s.phase = .run → ctxRuns s x = true → Refused s p a 0x02 (exec (.quillStart p x w) s)) ∧
    (s.phase = .run → ctxRuns s x = false → ¬ ok → Refused s p a 0x03 (exec (.quillStart p x w) s)) ∧
    (s.phase = .run → ctxRuns s x = false → ok → ∃ t, exec (.quillStart p x w) s = .next (written t p a) ∧
      ctxState t x = 1 ∧ ctxOf t x = { noCtx with pc := s.regN (R.QCX_START_ADDR x) } ∧ t.reg (R.QCX_DT_STAT x) = 0 ∧
      t.flag (R.QCX_STAT x) F.QCX_STAT_DBL = s.flag (R.QCX_STAT x) F.QCX_STAT_DBL ∧
      t.getF (R.QCX_STAT x) F.QCX_STAT_PEND = s.getF (R.QCX_STAT x) F.QCX_STAT_PEND ∧
      (∀ y, y ≠ x.val → ctxOf t y = ctxOf s y) ∧ t.quill.store = (storeLands s).quill.store ∧
      regsKept (fun b => b = R.QCX_STAT x ∨ b = R.QCX_DT_STAT x) s t ∧
      t = { enterSlot s p with regs := t.regs, quill := t.quill, cap := { (enterSlot s p).cap with fresh := t.cap.fresh } })) ∧
  (∀ (s : State) (p : Path) (x : Fin 8) (w : Word), let a := R.QCX_CMD x
    accepts s p a (withField w F.QCX_CMD_STOP 1) = true → bitOf w.toNat 0 = false →
    (ctxState s x = 0 → exec (.quillStop p x w) s = .next (written (enterSlot s p) p a)) ∧
    (ctxState s x ≠ 0 → ∃ t, exec (.quillStop p x w) s = .next (written t p a) ∧ ctxState t x = 0 ∧
      t.getF (R.QCX_STAT x) F.QCX_STAT_PEND = 0 ∧ (ctxOf t x).cnt = (ctxOf s x).cnt ∧ (ctxOf t x).tmr = (ctxOf s x).tmr ∧
      (ctxOf t x).trun % 4 = 0 ∧ (ctxOf t x).dt = none ∧ t.reg (R.QCX_DT_STAT x) = 0 ∧
      t.getF (R.QCX_STAT x) F.QCX_STAT_DBL = (if ctxState s x = 3 then 0 else s.getF (R.QCX_STAT x) F.QCX_STAT_DBL) ∧
      (∀ y, y ≠ x.val → ctxOf t y = ctxOf s y) ∧ t.quill.store = s.quill.store ∧
      regsKept (fun b => b = R.QCX_STAT x ∨ b = R.QCX_DT_STAT x) s t ∧
      t = { enterSlot s p with regs := t.regs, quill := t.quill })) ∧
  (∀ (s : State) (p : Path) (x : Fin 8) (w : Word), let a := R.QCX_CMD x
    accepts s p a (withField w F.QCX_CMD_TRAP 1) = true → bitOf w.toNat 0 = false → bitOf w.toNat 1 = false →
    (ctxRuns s x = false → Refused s p a 0x04 (exec (.quillHostTrap p x w) s)) ∧
    (ctxRuns s x = true → ∃ t, exec (.quillHostTrap p x w) s = .next (written t p a) ∧
      t.getF (R.QCX_STAT x) F.QCX_STAT_PEND = Nat.lor (s.getF (R.QCX_STAT x) F.QCX_STAT_PEND) 1 ∧ ctxState t x = ctxState s x ∧
      regsKept (fun b => b = R.QCX_STAT x) s t ∧ t = { enterSlot s p with regs := t.regs }))

/-- R318, R321, R322, R324, R328, R329, R333 to R335, Tables 10.1 and 10.3. A timer started before the edge counts on the edge
of the word (log entry 101). CSTOP reaches the capture engine on its next edge (R312), where CaptureSample tells its effect. -/
def Obligations.QuillWords : Prop :=
  (∀ (s : State) (x : Fin 8), canRun s x 1 = true → ∃ t, exec (.quillNop x) s = .next t ∧
    QuillWord s t x id (fun _ => False) ∧ CaptureSees s t x) ∧
  (∀ (s : State) (x : Fin 8), canRun s x 2 = true → ∃ t, exec (.quillCinc x) s = .next t ∧
    let k := wOperand (wordT s x)
    let n := wrapAdd 48 (cntOf s x k) 1
    QuillWord s t x (fun q => if wordActs s x then { q with cnt := tabSet (fun _ => 0) q.cnt k n } else q) (· = R.QCX_STAT x) ∧
    CaptureSees s t x ∧
    t.reg (R.QCX_STAT x) = (if wordActs s x = true ∧ n = 0 ∧ s.flag (R.QCX_CTRL x) F.QCX_CTRL_OVF_TRAP = true then raiseCause s x 5 else s).reg (R.QCX_STAT x)) ∧
  (∀ (s : State) (x : Fin 8), canRun s x 3 = true → ∃ t, exec (.quillCclr x) s = .next t ∧
    QuillWord s t x (fun q => { q with cnt := (ctxOf t x).cnt }) (fun _ => False) ∧ CaptureSees s t x ∧
    (∀ k, cntOf t x k = if wordActs s x = true ∧ bitOf (wOperand (wordT s x)) k = true then 0 else cntOf s x k)) ∧
  (∀ (s : State) (x : Fin 8), canRun s x 4 = true → ∃ t, exec (.quillTstart x) s = .next t ∧
    let n := wOperand (wordT s x)
    QuillWord s t x (fun q => if wordActs s x then { q with tmr := tabSet (fun _ => 0) q.tmr n 0, trun := (ctxOf t x).trun } else q)
      (fun _ => False) ∧ CaptureSees s t x ∧
    (wordActs s x = true → ∀ i, bitOf (ctxOf t x).trun i = (bitOf (ctxOf s x).trun i || i == n || i == 2 + n))) ∧
  (∀ (s : State) (x : Fin 8), canRun s x 5 = true → ∃ t, exec (.quillTstop x) s = .next t ∧
    let n := wOperand (wordT s x)
    QuillWord s t x (fun q => if wordActs s x then { q with trun := (ctxOf t x).trun } else q) (fun _ => False) ∧ CaptureSees s t x ∧
    (wordActs s x = true → ∀ i, bitOf (ctxOf t x).trun i = (bitOf (ctxOf s x).trun i && i != n))) ∧
  (∀ (s : State) (x : Fin 8), canRun s x 6 = true → ∃ t, exec (.quillIrq x) s = .next t ∧
    QuillWord s t x id (fun _ => False) ∧ CaptureSees s t x ∧
    (wordActs s x = true → ∀ j < 4, bitOf (wOperand (wordT s x)) j = true → (t.reg (R.PAGE_IRQ_RAW (0x034 + x))).getLsbD (4 + j) = true)) ∧
  (∀ (s : State) (x : Fin 8), canRun s x 7 = true → ∃ t, exec (.quillCstop x) s = .next t ∧
    QuillWord s t x id (fun _ => False) ∧ t.cap.stop = (s.cap.stop || (wordActs s x && capActive s)) ∧
    CaptureSees { s with cap := { s.cap with stop := t.cap.stop } } t x) ∧
  (∀ (s : State) (x : Fin 8), canRun s x 8 = true → ∃ t, exec (.quillSetpol x) s = .next t ∧
    QuillWord s t x id (· = R.INK_CTRL) ∧ CaptureSees s t x ∧
    t.reg R.INK_CTRL = (if wordActs s x = true ∧ domOn s 49 = true then
      BitVec.ofNat 32 (withBits (s.regN R.INK_CTRL) 0 2 (wOperand (wordT s x))) else s.reg R.INK_CTRL)) ∧
  (∀ (s : State) (x : Fin 8), canRun s x 9 = true → ∃ t, exec (.quillHalt x) s = .next t ∧
    QuillWord s t x (fun q => if wordActs s x then { q with rett := false, dt := none, trun := q.trun / 4 * 4 } else q)
      (· = R.QCX_STAT x) ∧ CaptureSees s t x ∧
    (wordActs s x = true → ctxState t x = 0 ∧ t.getF (R.QCX_STAT x) F.QCX_STAT_PEND = 0 ∧ t.reg (R.QCX_DT_STAT x) = 0 ∧
      (t.reg (R.PAGE_IRQ_RAW (0x034 + x))).getLsbD 3 = true) ∧
    (wordActs s x = false → t.reg (R.QCX_STAT x) = s.reg (R.QCX_STAT x))) ∧
  (∀ (s : State) (x : Fin 8), canRun s x 10 = true → ∃ t, exec (.quillRett x) s = .next t ∧
    QuillWord s t x (fun q => if wordActs s x = false then q else if (pendCause s x).isSome then { q with rett := true }
      else { q with pc := s.getF (R.QCX_TF_INFO x) F.QCX_TF_INFO_PC }) (· = R.QCX_STAT x) ∧ CaptureSees s t x ∧
    ctxState t x = (if wordActs s x = true ∧ pendCause s x = none then 1 else ctxState s x) ∧
    t.getF (R.QCX_STAT x) F.QCX_STAT_PEND = s.getF (R.QCX_STAT x) F.QCX_STAT_PEND)

/-- R325 to R331, R333, R558, R563, R564, Table 10.4. In a halt a context goes on up to the gating of its clock: the further cause is
that of the device as it was before (log entry 16). `flip` are the upsets of the word's 99 bits. OPC of a BOUNDS frame is 0, no word being read. -/
def Obligations.MicroTraps : Prop :=
  (∀ (s : State) (x : Fin 8) (flip : BitVec 99) (k : Nat), turnOk s x = true → ctxState s x = 1 →
    faultCause (trapTurn s x flip.toNat) x = some k ∨ (faultCause (trapTurn s x flip.toNat) x = none ∧ pendCause s x = some k) →
    ∃ t, exec (.microTrap x flip) s = .next t ∧ TrapTaken s t x flip.toNat k false) ∧
  (∀ (s : State) (x : Fin 8) (flip : BitVec 99) (k : Nat), turnOk s x = true → ctxState s x = 2 → (ctxOf s x).rett = true →
    pendCause s x = some k → ∃ t, exec (.microTrap x flip) s = .next t ∧ TrapTaken s t x flip.toNat k true) ∧
  (∀ (s : State) (x : Fin 8) (flip : BitVec 99) (k : Nat), turnOk s x = true → ctxState s x = 2 → (ctxOf s x).rett = false →
    faultCause (trapTurn s x flip.toNat) x = some k →
    (s.flag (R.QCX_CTRL x) F.QCX_CTRL_CRIT = false → ∃ t, exec (.microTrap x flip) s = .next t ∧ ctxState t x = 3 ∧
      t.flag (R.QCX_STAT x) F.QCX_STAT_DBL = true ∧ t.getF (R.QCX_STAT x) F.QCX_STAT_DBL_CAUSE = k ∧
      (t.reg (R.PAGE_IRQ_RAW (0x034 + x))).getLsbD 2 = true ∧ t.getF (R.QCX_STAT x) F.QCX_STAT_PEND = 0 ∧
      t.reg (R.QCX_DT_STAT x) = 0 ∧ (ctxOf t x).dt = none ∧ (ctxOf t x).trun % 4 = 0 ∧
      QuillKeeps s t x flip.toNat [R.QCX_STAT x, R.QCX_DT_STAT x, R.PAGE_IRQ_RAW (0x034 + x)]) ∧
    (s.flag (R.QCX_CTRL x) F.QCX_CTRL_CRIT = true → s.phase = .kiln ∨ s.phase = .run →
      ∃ t, exec (.microTrap x flip) s = .next t ∧ HaltEntered s t 3 (x + 16 * k) (s.regN (R.QCX_TF_INFO x)) ∧
      t.flag (R.QCX_STAT x) F.QCX_STAT_DBL = true ∧ t.getF (R.QCX_STAT x) F.QCX_STAT_DBL_CAUSE = k)) ∧
  (∀ (s : State) (x : Fin 8) (flip : BitVec 99) (k : Nat), s.phase = .halt → turnOk (beforeHalt s) x = true → ctxState s x = 2 →
    (ctxOf s x).rett = false → s.flag (R.QCX_CTRL x) F.QCX_CTRL_CRIT = true →
    faultCause (trapTurn (beforeHalt s) x flip.toNat) x = some k →
    AlsoRecorded s (exec (.microTrap x flip) s) 3 (x + 16 * k) (s.regN (R.QCX_TF_INFO x)))

/-- R316, R335, R337, R338, R342, Table 10.9. A word written during a Quill edge waits for the end of the edge (R337), and a read of its
address gives it already (R113). -/
def Obligations.QuillStoreAndLimits : Prop :=
  (∀ (s : State) (p : Path) (i : Fin 2) (w : Word), let a := R.QST_W0 + 4 * i.val
    accepts s p a w = true → ∃ t, exec (.qstWriteHold p i w) s = .next (written t p a) ∧ qstGet t (some p) (i + 1) = w.toNat ∧
      (∀ q j, j < 4 → q ≠ some p ∨ j ≠ i.val + 1 → qstGet t q j = qstGet s q j) ∧
      t = { enterSlot s p with quill := { s.quill with qst := t.quill.qst } }) ∧
  (∀ (s : State) (p : Path) (w : Word), accepts s p R.QST_W2 w = true →
    let at0 := qstGet s (some p) 0
    let d := qstGet s (some p) 1 + 2 ^ 32 * qstGet s (some p) 2 + 2 ^ 64 * w.toNat
    ∃ t, exec (.qstStoreWrite p w) s = .next (written t p R.QST_W2) ∧
      (edgeOver s = true → t.quill.wr = [] ∧
        ∀ b, storeRaw t b = if b = at0 then d + 2 ^ 96 * parity3 d else storeRaw (storeLands s) b) ∧
      (edgeOver s = false → t.quill.store = s.quill.store ∧ t.quill.wr = s.quill.wr ++ [(at0, d + 2 ^ 96 * parity3 d)]) ∧
      qstGet t (some p) 0 = (at0 + 1) % 4096 ∧
      (∀ q j, j < 4 → q ≠ some p ∨ j ≠ 0 → qstGet t q j = qstGet s q j) ∧
      t = { enterSlot s p with quill := { s.quill with qst := t.quill.qst, store := t.quill.store, wr := t.quill.wr } }) ∧
  (∀ (s : State) (p : Path) (flip : BitVec 99), acceptsRead s p R.QST_W0 = true →
    let at0 := qstGet s (some p) 0
    let v := Nat.xor (storeRead (storeLands s) at0) flip.toNat
    ∃ t, exec (.qstRead p 0 flip) s = .next (readDone t p (BitVec.ofNat 32 v)) ∧
      (edgeOver s = true → storeRead (storeLands s) at0 = storeRaw (storeLands s) at0) ∧
      (edgeOver s = false → ∀ d, s.quill.wr.getLast? = some (at0, d) → storeRead (storeLands s) at0 = d) ∧
      (∀ b, storeRead t b = if b = at0 then v else storeRead (storeLands s) b) ∧ qstGet t (some p) 3 = v % 2 ^ 96 ∧
      (∀ q j, j < 4 → q ≠ some p ∨ j ≠ 3 → qstGet t q j = qstGet s q j) ∧ t.reg R.QST_STAT = BitVec.ofNat 32 (b2n (parityBad v)) ∧
      (parityBad v = true → (t.reg (R.PAGE_IRQ_RAW 0x03C)).getLsbD 0 = true) ∧
      regsKept (fun b => b = R.QST_STAT ∨ (b = R.PAGE_IRQ_RAW 0x03C ∧ parityBad v = true)) s t ∧
      t = { enterSlot s p with
        regs := t.regs, quill := { (storeLands s).quill with qst := t.quill.qst, store := t.quill.store, wr := t.quill.wr } }) ∧
  (∀ (s : State) (p : Path) (flip : BitVec 99), acceptsRead s p R.QST_W1 = true →
    exec (.qstRead p 1 flip) s = .next (readDone (storeLands (enterSlot s p)) p (BitVec.ofNat 32 (qstGet s (some p) 3 / 2 ^ 32)))) ∧
  (∀ (s : State) (p : Path) (flip : BitVec 99), acceptsRead s p R.QST_W2 = true →
    ∃ t, exec (.qstRead p 2 flip) s = .next (readDone t p (BitVec.ofNat 32 (qstGet s (some p) 3 / 2 ^ 64))) ∧
      qstGet t (some p) 0 = (qstGet s (some p) 0 + 1) % 4096 ∧
      (∀ q j, j < 4 → q ≠ some p ∨ j ≠ 0 → qstGet t q j = qstGet s q j) ∧
      t = { enterSlot s p with quill := { (storeLands s).quill with qst := t.quill.qst } }) ∧
  (∀ (s : State) (p : Path) (x : Fin 8) (k : Fin 6) (w : Word), let a := limitHiReg x k
    accepts s p a w = true → ∃ t, exec (.limitHiWrite p x k w) s = .next (written t p a) ∧
      t.reg (a - 4) = (heldGet s (some p) (a - 4)).getD (s.reg (a - 4)) ∧ t.getF a F.QCX_LIM_HI_L = w.toNat % 2 ^ 16 ∧
      regsKept (fun b => b = a ∨ b = a - 4) s t ∧ t = { enterSlot s p with regs := t.regs }) ∧
  (∀ (s : State) (p : Path) (x : Fin 8) (w : Word), let a := R.QCX_DT_CLR x
    accepts s p a (withField w F.QCX_DT_CLR_CLR 1) = true → ∃ t, exec (.quillDtClr p x w) s = .next (written t p a) ∧
      t.reg (R.QCX_DT_LAST x) = 0 ∧ t.reg (R.QCX_DT_MAX x) = 0 ∧ t.reg (R.QCX_TRIG_CNT x) = 0 ∧
      regsKept (fun b => b ∈ [R.QCX_DT_LAST x, R.QCX_DT_MAX x, R.QCX_TRIG_CNT x]) s t ∧ t = { enterSlot s p with regs := t.regs })

/-- R346 to R351, R354, R355, R357, R360, R361, R367, Table 11.2. `divDue`: 1 MISSING, 2 EXTRA (R349); `edgeDue`: a change of the side
since the last capture edge that it was matched on (R346). -/
def Obligations.TracingCompares : Prop :=
  (∀ (s : State) (n : Fin 336) (legacy : Bool), trcLive s = true → pairEn s n = true → isData s n = false → divDue s n = 0 →
    edgeDue s n legacy = true →
    let p := pairOf s n
    let ks := ((txOn s.getF).filter (fun k => txStrobe s.getF k == n.val && txDelay s k == 0)).reverse
    let e : TEdge := ⟨pairTs s n, if legacy then p.cl else p.cv, p.cl, if legacy then (legacyEdge s n).bind (·.prev) else none,
      ks.map (fun k => (k, wordNow s k legacy)),
      if legacy then ks.map (fun k => (k, (txData s.getF k).map (legacyEdge s))) else []⟩
    ∃ t, exec (.traceEdge n legacy) s = .next t ∧ (∀ m, m ≠ n.val → pairOf t m = pairOf s m) ∧ t.trc.q = s.trc.q ∧
      TraceOnly s t (fun b => standRegs b ∨ (0x40300 ≤ b ∧ b < 0x40380)) ∧
      ((if legacy then p.pv else p.pl) = [] → t.regs = s.regs ∧ t.trc.txn = s.trc.txn ∧
        pairOf t n = if legacy then { p with l := p.cl, pl := p.pl ++ [e] } else { p with v := p.cv, pv := p.pv ++ [e] }) ∧
      (∀ o os, (if legacy then p.pv else p.pl) = o :: os →
        let l := if legacy then e else o
        let v := if legacy then o else e
        let lead := (l.t + 2 ^ 48 - v.t) % 2 ^ 48
        let i := profIx s.getF n
        MatchCounted (setPair s n (if legacy then { p with l := p.cl, pv := os } else { p with v := p.cv, pl := os })) t n ∧
        (lead < 2 ^ 47 → t.reg (R.TRC_PSTAT_EARLY i) = BitVec.ofNat 32 (max (s.regN (R.TRC_PSTAT_EARLY i)) lead)) ∧
        (2 ^ 47 ≤ lead → t.reg (R.TRC_PSTAT_LATE i) = BitVec.ofNat 32 (max (s.regN (R.TRC_PSTAT_LATE i)) ((v.t + 2 ^ 48 - l.t) % 2 ^ 48))) ∧
        t.trc.txn = s.trc.txn ++ ((txOn s.getF).filter (fun k => txStrobe s.getF k == n.val && (l.lvl == txRising s k && v.lvl == txRising s k))).map
          (fun k => ⟨k, l, v⟩))) ∧
  (∀ (s : State) (n : Fin 336) (e : TEdge) (more : List TEdge), trcLive s = true → pairEn s n = true → isData s n = false →
    let p := pairOf s n
    let kind := divDue s n
    kind ≠ 0 → (if kind = 1 then p.pl else p.pv) = e :: more → recordTurn s n = true →
    let tdc := if kind = 1 then tdcTime s n ⟨e.t, e.lvl, e.prev⟩ else none
    ∃ t, exec (.traceDivergence n) s = .next t ∧
      Recorded s t (recWords (recWord0 n kind (b2n (!more.isEmpty)) (b2n e.l) tdc 0 0 0) e.t (decideAge s e) tdc) ∧
      pairOf t n = { p with step := false, fresh := false, pl := [], pv := [], clean := 0 } ∧ standing t n = true ∧
      (∀ m, m ≠ n.val → pairOf t m = pairOf s m ∧ standing t m = standing s m) ∧ t.trc.txn = s.trc.txn ∧ TraceOnly s t recRegs) ∧
  (∀ (s : State) (n : Fin 336), trcLive s = true → pairEn s n = true → isData s n = false → resyncDue s n = true →
    exec (.traceResync n) s = .next (let p := pairOf s n
      setPair s n { p with step := true, l := p.cl, v := p.cv, pl := [], pv := [] })) ∧
  (∀ (s : State) (k : Fin 8) (x : TTxn), trcLive s = true → firstWhere (fun t => t.k == k.val && txnTurn s t) s.trc.txn = some x →
    let wl := wordOf k x.l
    let diff := Nat.xor wl (wordOf k x.v)
    let ds := txData s.getF k
    ∃ t, exec (.transactionDecide k) s = .next t ∧ t.trc.txn = s.trc.txn.erase x ∧
      (∀ m, m ∉ ds → pairOf t m = pairOf s m ∧ standing t m = standing s m) ∧
      TraceOnly s t (fun b => recRegs b ∨ b = R.TRC_TX_DIV k) ∧
      (diff = 0 → (∀ m ∈ ds, MatchCounted s t m) ∧ t.trc.q = s.trc.q ∧ t.reg (R.TRC_TX_DIV k) = s.reg (R.TRC_TX_DIV k) ∧
        t.reg R.TRC_DIV_CNT = s.reg R.TRC_DIV_CNT) ∧
      (diff ≠ 0 → t.getF (R.TRC_TX_DIV k) F.TRC_TX_DIV_N = satAdd 32 (s.getF (R.TRC_TX_DIV k) F.TRC_TX_DIV_N) 1 ∧
        (let i := (setBits diff 48).headD 0
         let tdc := (lastOf x i).bind (tdcTime s (atD 0 ds i))
         Recorded s t (recWords (recWord0 (atD 0 ds i) 3 0 (b2n (bitOf wl i)) tdc k i (b2n (1 < popCount diff 48))) x.l.t
           (decideAge s x.l) tdc)) ∧
        (∀ i < ds.length, bitOf diff i = true → standing t (atD 0 ds i) = true ∧ (pairOf t (atD 0 ds i)).clean = 0) ∧
        (∀ i < ds.length, bitOf diff i = false → standing t (atD 0 ds i) = standing s (atD 0 ds i) ∧
          pairOf t (atD 0 ds i) = pairOf s (atD 0 ds i)))) ∧
  (∀ (s : State) (p : Path) (w : Word), accepts s p R.TRC_CTRL w = true →
    (bitOf w.toNat 0 = true → s.phase ≠ .run → Refused s p R.TRC_CTRL 0x07 (exec (.traceRunWrite p w) s)) ∧
    (bitOf w.toNat 0 = trcRun s → bitOf w.toNat 0 = false ∨ s.phase = .run →
      exec (.traceRunWrite p w) s = .next (written (enterSlot s p) p R.TRC_CTRL)) ∧
    (bitOf w.toNat 0 = true → s.phase = .run → trcRun s = false → ∃ t, exec (.traceRunWrite p w) s = .next (written t p R.TRC_CTRL) ∧
      trcRun t = true ∧ t.trc = { s.trc with pair := [], txn := [] } ∧ TraceOnly (enterSlot s p) t (· = R.TRC_CTRL)) ∧
    (bitOf w.toNat 0 = false → trcRun s = true → ∃ t, exec (.traceRunWrite p w) s = .next (written t p R.TRC_CTRL) ∧
      trcRun t = false ∧ t.trc = { s.trc with pair := [], txn := [], q := [] } ∧ (∀ j < 11, t.reg (R.TRC_STAND j) = 0) ∧
      TraceOnly (enterSlot s p) t (fun b => b = R.TRC_CTRL ∨ ∃ j < 11, b = R.TRC_STAND j))) ∧
  (∀ (s : State) (p : Path), acceptsRead s p (R.TRC_Q_W 0) = true →
    let lt := fun ws => tabSet (fun _ => []) s.trc.latch p.code ws
    (s.trc.q = [] → exec (.traceQueuePop p) s = .next (readDone { enterSlot s p with trc := { s.trc with latch := lt [] } } p 0)) ∧
    (∀ r q, s.trc.q = r :: q → exec (.traceQueuePop p) s =
      .next (readDone { enterSlot s p with trc := { s.trc with q := q, latch := lt r.2 } } p (BitVec.ofNat 32 (atD 0 r.2 0))))) ∧
  (∀ (s : State) (p : Path) (w : Word), accepts s p R.TRC_STAT_CLR (withField w F.TRC_STAT_CLR_CLR 1) = true →
    let l := [R.TRC_Q_LOST, R.TRC_DIV_CNT] ++ (List.range 16).map R.TRC_PSTAT_EARLY ++ (List.range 16).map R.TRC_PSTAT_LATE ++
      (List.range 8).map R.TRC_TX_DIV
    ∃ t, exec (.trcStatClr p w) s = .next (written t p R.TRC_STAT_CLR) ∧ (∀ b ∈ l, t.reg b = 0) ∧ regsKept (· ∈ l) s t ∧
      t = { enterSlot s p with regs := t.regs })

/-- R370 to R378, R381, R382, R384, R387 to R390, Tables 12.1, 12.2 and 12.4. The edges of each half since its last command (`a.1`,
`b.1`) and the interpolator step (`a.2`, `b.2`) come with the edge; the one capture cycle that R376 leaves open is a free value (log
entry 2), and so is by how much a timestamp is off, within 32 LSBs (log entry 42). A half on one clock with the capture engine counts
with the capture timestamp, and, while single capture edges come as commands, on those alone (log entry 3). -/
def Obligations.IntervalsTimed : Prop :=
  (∀ (s : State) (p : Path) (w : Word), let a := R.TDC_CMD 0
    accepts s p a (withField w F.TDC_CMD_ZERO 1) = true →
    let ok := domOn s 51 = true ∧ domOn s 52 = true ∧ oneClock s 58 59 = true
    (¬ ok → Refused s p a 0x03 (exec (.tdcZero p w) s)) ∧
    (ok → ∃ t, exec (.tdcZero p w) s = .next (written t p a) ∧ tbOf t 0 = 0 ∧ tbOf t 1 = 0 ∧
      (let u := enterSlot s p
       (∀ c, tabGet (fun _ => none) t.tdc.last c = (tabGet (fun _ => none) u.tdc.last c).map (fun l =>
         (l + 2 ^ 64 - tdcP s (c / 16) * tbOf u (c / 16) % 2 ^ 64) % 2 ^ 64)) ∧
       t = { u with tdc := { u.tdc with tb := t.tdc.tb, last := t.tdc.last, late := [] } }))) ∧
  (∀ (s : State) (p : Path) (c : Fin 36) (w : Word), let a := tdcConfigReg c
    c.val < 8 → s.phase = .steep → canIssue s p = true → devViolation s p a (some w) = none → pageWedged s (a / 0x1000) = false →
    Refused s p a 0x01 (exec (.tdcChannelConfigWrite p c w) s)) ∧
  (∀ (s : State) (p : Path) (c : Fin 36) (w : Word), let a := tdcConfigReg c
    accepts s p a w = true → c.val < 32 →
    let was := chEn s c
    let en := bitOf w.toNat 0
    let clocked := genMhz s (58 + c / 16) ∈ [50, 100, 200, 400]
    (was = true → w.toNat / 2 ≠ s.regN a / 2 → Refused s p a 0x02 (exec (.tdcChannelConfigWrite p c w) s)) ∧
    (was = false → en = true → s.phase ≠ .run → Refused s p a 0x05 (exec (.tdcChannelConfigWrite p c w) s)) ∧
    (was = false → en = true → s.phase = .run → ¬ clocked → Refused s p a 0x04 (exec (.tdcChannelConfigWrite p c w) s)) ∧
    (was = false → en = true → s.phase = .run → clocked → ∃ t, exec (.tdcChannelConfigWrite p c w) s = .next (written t p a) ∧
      t.reg a = w ∧ tdcQ t c = [] ∧ t.reg (R.TDC_CH_LOST c) = 0 ∧ t.reg (R.TDC_CH_MISSED c) = 0 ∧ t.reg (R.TDC_CH_EDGES c) = 0 ∧
      (∀ d, d ≠ c.val → tdcQ t d = tdcQ s d) ∧
      (∀ j, tabGet (fun _ => 0) t.tdc.presc j = if bitOf w.toNat 4 = true ∧ j = bitsOf w.toNat 20 2 then 0
        else tabGet (fun _ => 0) s.tdc.presc j) ∧
      regsKept (fun b => b ∈ [a, R.TDC_CH_LOST c, R.TDC_CH_MISSED c, R.TDC_CH_EDGES c]) s t ∧
      t = { enterSlot s p with
        regs := t.regs
        tdc := { (enterSlot s p).tdc with q := t.tdc.q, last := t.tdc.last, due := t.tdc.due, late := t.tdc.late, presc := t.tdc.presc } }) ∧
    (was = true ∨ en = false → (was = true → w.toNat / 2 = s.regN a / 2) →
      ∃ t, exec (.tdcChannelConfigWrite p c w) s = .next (written t p a) ∧ t.reg a = w ∧ regsKept (· = a) s t ∧
        t = { enterSlot s p with regs := t.regs })) ∧
  (∀ (s : State) (p : Path) (c : Fin 36) (w : Word), let a := tdcConfigReg c
    let k := c.val - 32
    accepts s p a w = true → 32 ≤ c.val →
    let was := s.flag a F.TIN_TIN_CFG_EN
    (was = true → w.toNat / 2 ≠ s.regN a / 2 → Refused s p a 0x01 (exec (.tdcChannelConfigWrite p c w) s)) ∧
    ((was = true → w.toNat / 2 = s.regN a / 2) → ∃ t, exec (.tdcChannelConfigWrite p c w) s = .next (written t p a) ∧ t.reg a = w ∧
      (∀ j, tabGet (fun _ => 0) t.tdc.presc j = if bitOf w.toNat 0 = true ∧ was = false ∧ j = k then 0
        else tabGet (fun _ => 0) s.tdc.presc j) ∧
      (∀ j, tabGet (fun _ => 0) t.tdc.hz j = if bitOf w.toNat 0 = true ∧ was = false ∧ j = k then 0
        else tabGet (fun _ => 0) s.tdc.hz j) ∧
      (∀ j, tabGet (fun _ => none) t.tdc.cmp j = if bitOf w.toNat 0 = true ∧ was = false ∧ j = k then none
        else tabGet (fun _ => none) s.tdc.cmp j) ∧
      regsKept (· = a) s t ∧
      t = { enterSlot s p with
        regs := t.regs, tdc := { (enterSlot s p).tdc with presc := t.tdc.presc, hz := t.tdc.hz, cmp := t.tdc.cmp } })) ∧
  (∀ (s : State) (p : Path) (c : Fin 32), acceptsRead s p (R.TDC_CH_Q_W0 c) = true →
    let u := enterSlot s p
    let held := tabGet (fun _ => none) u.tdc.late c
    let late := fun o : TOver => held = some o ∧ o.cnt = tbOf u (c / 16)
    ((∀ o, ¬ late o) → tdcQ s c = [] → ∃ t, exec (.tdcQueuePop p c) s = .next (readDone t p 0) ∧ (∀ i, tdcLatched t p.code c i = 0) ∧
      tdcQ t c = [] ∧ t = { enterSlot s p with tdc := { (enterSlot s p).tdc with latch := t.tdc.latch, late := t.tdc.late } }) ∧
    (∀ o e q, late o → o.q = e :: q → ∃ t, exec (.tdcQueuePop p c) s = .next (readDone t p (BitVec.ofNat 32 e.t)) ∧ tdcQ t c = q ∧
      t.reg (R.TDC_CH_LOST c) = BitVec.ofNat 32 o.lost ∧ tabGet (fun _ => 0) t.tdc.due c = o.since ∧
      t.getF (R.TDC_CH_EDGES c) F.TDC_CH_EDGES_N = wrapAdd 32 (s.getF (R.TDC_CH_EDGES c) F.TDC_CH_EDGES_N)
        (b2n (chCfg s c F.TDC_CH_CFG_OVF == 0)) ∧
      ((t.reg (R.PAGE_IRQ_RAW (0x050 + c / 8))).getLsbD (8 + c % 8) =
        (o.irq && (s.reg (R.PAGE_IRQ_RAW (0x050 + c / 8))).getLsbD (8 + c % 8))) ∧
      regsKept (fun b => b ∈ [R.TDC_CH_LOST c, R.TDC_CH_EDGES c, R.PAGE_IRQ_RAW (0x050 + c / 8)]) s t ∧
      t = { u with regs := t.regs, tdc := { u.tdc with latch := t.tdc.latch, q := t.tdc.q, late := t.tdc.late, due := t.tdc.due } }) ∧
    (∀ e q, (∀ o, ¬ late o) → tdcQ s c = e :: q → ∃ t, exec (.tdcQueuePop p c) s = .next (readDone t p (BitVec.ofNat 32 e.t)) ∧ tdcQ t c = q ∧
      tdcLatched t p.code c 1 = BitVec.ofNat 32 (e.t / 2 ^ 32) ∧ tdcLatched t p.code c 2 = BitVec.ofNat 32 e.cts ∧
      tdcLatched t p.code c 3 = BitVec.ofNat 32 (e.cts / 2 ^ 32 + 65536 * e.flags) ∧ (∀ d, d ≠ c.val → tdcQ t d = tdcQ s d) ∧
      (∀ r : Path, r ≠ p → ∀ d i, tdcLatched t r.code d i = tdcLatched s r.code d i) ∧
      t = { enterSlot s p with tdc := { (enterSlot s p).tdc with latch := t.tdc.latch, q := t.tdc.q, late := t.tdc.late } })) ∧
  (∀ (s : State) (c : Fin 32), live s = true → tdcDomOn s (c.val / 16) = true → exec (.tdcRecalibrate c) s = .next s) ∧
  (∀ (s : State) (k : Fin 4) (active : Bool), live s = true → tdcDomOn s 0 = true → genRuns s 58 = true →
    s.flag (R.TIN_TIN_CFG k) F.TIN_TIN_CFG_EN = true → ∃ t, exec (.tinFreqWindow k active) s = .next t ∧
      t.reg (R.TIN_TIN_FREQ k) = BitVec.ofNat 32 (tabGet (fun _ => 0) s.tdc.hz k) ∧ t.reg (R.TIN_TIN_STAT k) = BitVec.ofNat 32 (b2n active) ∧
      regsKept (fun b => b = R.TIN_TIN_FREQ k ∨ b = R.TIN_TIN_STAT k) s t ∧
      t = { s with regs := t.regs, tdc := { s.tdc with hz := tabSet (fun _ => 0) s.tdc.hz k 0 } }) ∧
  (∀ (s : State) (src : TdcSrc) (rising : Bool) (a b0 : Nat × Nat), live s = true →
    (∀ n, src = .nib n → tabGet (fun _ => false) s.nib.cmp n = rising) →
    (∀ k vp vn, src = .tin k vp vn → tinNow s k rising = !rising ∧ tinLevel s k vp vn (!rising) rising = rising) →
    let b := if oneClock s 58 59 then a else b0
    let runs := fun h => tdcDomOn s h && genRuns s (58 + h)
    let n := if tbWithCap s 0 then a.1 else if tbWithCap s 1 then b.1 else 0
    let count := fun h => if tbWithCap s h then (if capQuiet s then n else 0) else if h = 0 then a.1 else b.1
    let tb := fun h => if runs h then (tbOf s h + count h) % 2 ^ 64 else tbOf s h
    let tinTakes := fun k : Fin 4 => tdcDomOn s 0 && s.flag (R.TIN_TIN_CFG k) F.TIN_TIN_CFG_EN &&
      slopeTakes (s.getF (R.TIN_TIN_CFG k) F.TIN_TIN_CFG_SLOPE) rising && (genRuns s 58 || genRuns s 59)
    let pass := match src with
      | .nib n => slopeTakes (nibCfg s n F.NIB_NIB_CFG_SLOPE) rising
      | .tin k _ _ => tinTakes k && tabGet (fun _ => 0) s.tdc.presc k % 2 ^ s.getF (R.TIN_TIN_CFG k) F.TIN_TIN_CFG_PRESC == 0
    ∃ t, exec (.tdcEdge src rising a b0) s = .next t ∧ (∀ h < 2, tbOf t h = tb h) ∧
      (t.cap.ts = if capQuiet s = true ∧ n ≠ 0 then wrapAdd 48 s.cap.ts n else s.cap.ts) ∧
      (∀ k vp vn, src = .tin k vp vn → tdcDomOn s 0 = true → tabGet (fun _ => none) t.tdc.cmp k = some rising ∧
        tabGet (fun _ => 0) t.tdc.hz k = tabGet (fun _ => 0) s.tdc.hz k + b2n (tinTakes k && genRuns s 58) ∧
        tabGet (fun _ => 0) t.tdc.presc k = tabGet (fun _ => 0) s.tdc.presc k + b2n (tinTakes k)) ∧
      (∀ c < 32, (pass = true → c ∉ tdcTakers s src (c / 16)) → tdcQ t c = tdcQ s c ∧ t.reg (R.TDC_CH_LOST c) = s.reg (R.TDC_CH_LOST c) ∧
        t.reg (R.TDC_CH_MISSED c) = s.reg (R.TDC_CH_MISSED c) ∧ t.reg (R.TDC_CH_EDGES c) = s.reg (R.TDC_CH_EDGES c)) ∧
      (∀ c < 32, pass = true → c ∈ tdcTakers s src (c / 16) →
        let h := c / 16
        let per := tdcP s h
        let raw := (per * tb h + (if h = 0 then a.2 else b.2) % per) % 2 ^ 64
        let early := ∃ l, tabGet (fun _ => none) s.tdc.last c = some l ∧ (raw + 2 ^ 64 - l) % 2 ^ 64 < per
        let full := 1024 ≤ (tdcQ s c).length
        let due := tabGet (fun _ => 0) s.tdc.due c
        (early → tdcQ t c = tdcQ s c ∧ tabGet (fun _ => 0) t.tdc.due c = Nat.lor due 2 ∧
          t.getF (R.TDC_CH_MISSED c) F.TDC_CH_MISSED_N = satAdd 32 (s.getF (R.TDC_CH_MISSED c) F.TDC_CH_MISSED_N) 1) ∧
        (¬ early → full → t.getF (R.TDC_CH_LOST c) F.TDC_CH_LOST_N = satAdd 32 (s.getF (R.TDC_CH_LOST c) F.TDC_CH_LOST_N) 1 ∧
          (t.reg (R.PAGE_IRQ_RAW (0x050 + c / 8))).getLsbD (8 + c % 8) = true ∧
          ∃ o e, tabGet (fun _ => none) t.tdc.late c = some o ∧ o.cnt = tb h ∧ o.lost = s.regN (R.TDC_CH_LOST c) ∧ o.q = tdcQ s c ++ [e]) ∧
        (¬ early → full → chCfg s c F.TDC_CH_CFG_OVF = 0 → tdcQ t c = tdcQ s c ∧ tabGet (fun _ => 0) t.tdc.due c = Nat.lor due 4) ∧
        (¬ early → ¬ full ∨ chCfg s c F.TDC_CH_CFG_OVF ≠ 0 → ∃ e : TEnt,
          tdcQ t c = (if 1024 ≤ (tdcQ s c).length then (tdcQ s c).drop 1 else tdcQ s c) ++ [e] ∧
          (∃ d : Int, -32 ≤ d ∧ d ≤ 32 ∧
            (e.t : Int) = ((raw : Int) + d + signedOf 16 (s.getF (R.TDC_CH_OFS c) F.TDC_CH_OFS_OFS)) % (2 ^ 64 : Nat)) ∧
          (domOn s 48 = false → e.cts = 0) ∧ (domOn s 48 = true → oneClock s (58 + h) 55 = true → e.cts = wrapAdd 48 t.cap.ts 1) ∧
          (domOn s 48 = true → e.cts = wrapAdd 48 t.cap.ts 1 ∨ e.cts = wrapAdd 48 t.cap.ts 2) ∧
          e.flags = b2n rising + 2 * ((if 1024 ≤ (tdcQ s c).length then Nat.lor due 4 else due) % 8) + 16 * b2n (domOn s 48) + 2 ^ 15 ∧
          tabGet (fun _ => 0) t.tdc.due c = 0 ∧
          t.getF (R.TDC_CH_EDGES c) F.TDC_CH_EDGES_N = wrapAdd 32 (s.getF (R.TDC_CH_EDGES c) F.TDC_CH_EDGES_N) 1 ∧
          ((tdcQ s c).length < 1024 → (tdcQ s c).length + 1 = s.getF (R.TDC_CH_WM c) F.TDC_CH_WM_N →
            (t.reg (R.PAGE_IRQ_RAW (0x050 + c / 8))).getLsbD (c % 8) = true))) ∧
      regsKept (fun x => (∃ c < 32, x = R.TDC_CH_LOST c ∨ x = R.TDC_CH_MISSED c ∨ x = R.TDC_CH_EDGES c ∨ x = R.PAGE_IRQ_RAW (0x050 + c / 8)) ∨
        (∃ k vp vn, src = .tin k vp vn ∧ x = R.TIN_TIN_STAT k)) s t ∧
      t = { s with regs := t.regs, cap := capTicked s.cap t.cap, tdc := { t.tdc with latch := s.tdc.latch }, freeCtr := t.freeCtr }) ∧
  (∀ (s : State) (k : Fin 4) (vp vn : Int) (rising : Bool) (a b0 : Nat × Nat), live s = true →
    let cfg := R.TIN_TIN_CFG k
    let v : Int := if s.flag cfg F.TIN_TIN_CFG_MODE then vp else vp - vn
    let thr := signedOf 12 (s.getF cfg F.TIN_TIN_CFG_THR)
    let half : Int := match s.getF cfg F.TIN_TIN_CFG_HYST with
      | 0 => 0
      | 1 => 5
      | 2 => 10
      | _ => 20
    let near : Int := 2 * thr.natAbs + 1000
    (rising = true → 200 * v < 200 * (thr + half) - near → exec (.tdcEdge (.tin k vp vn) rising a b0) s = .next s) ∧
    (rising = false → 200 * (thr - half) + near < 200 * v → exec (.tdcEdge (.tin k vp vn) rising a b0) s = .next s) ∧
    (∀ was, tabGet (fun _ => none) s.tdc.cmp k = some was → was = rising → exec (.tdcEdge (.tin k vp vn) rising a b0) s = .next s))

/-- The controller has entered FAIL (R417): its state, the failed step, the interrupt, and no fill under way. -/
def MemFailed (s t : State) (err : Nat) : Prop :=
  memState t = 5 ∧ t.getF R.MEMC_STAT F.MEMC_STAT_TRAIN_ERR = err ∧ (t.reg (R.PAGE_IRQ_RAW 0x060)).getLsbD 1 = true ∧
  t.mem = { s.mem with fill := none, reached := [], alerts := 0 } ∧ regsKept (fun b => b = R.MEMC_STAT ∨ b = R.PAGE_IRQ_RAW 0x060) s t ∧
  t = { s with regs := t.regs, mem := t.mem }

/-- Line `i` holds zero plaintext under the keys `k`, and its tag word the tag of that line (R403, R408, R409, R418). -/
def LineZeroed (t : State) (k : KeySet) (i : Nat) : Prop :=
  let ct := xtsEncLine k.k1 k.k2 i (List.replicate 64 0#8)
  lineBeats t i = beatsOf false 16 ct ∧ tagOf t i = tagBeats (lineTag k i ct)

/-- R395, R396, R402, R405, R417 to R419, R423, Tables 13.1, 13.3 and 13.4. The model's choices (log entry 32): INIT releases
DDR_RESET_N, a FILL counts as in flight (a STOP is refused 0x05), and alerts count for each command. -/
def Obligations.MemoryController : Prop :=
  (∀ (s : State) (p : Path) (w : Word), let a := R.MEMC_CMD
    accepts s p a (withField w F.MEMC_CMD_INIT 1) = true →
    (memState s ≠ 0 → Refused s p a 0x02 (exec (.memcInit p w) s)) ∧
    (memState s = 0 → ddrClockOk s = false → Refused s p a 0x03 (exec (.memcInit p w) s)) ∧
    (memState s = 0 → ddrClockOk s = true → ∃ t, exec (.memcInit p w) s = .next (written t p a) ∧ t.reg R.MEMC_STAT = 1 ∧
      dataTopMib t = (if integOn s then capacityMib s * 7 / 8 else capacityMib s) ∧
      (keyIdMode s = true → t.flag R.XTS_STAT F.XTS_STAT_EPH_KEY = false ∧ t.mem = { s.mem with resetN := true } ∧ t.freeCtr = s.freeCtr) ∧
      (keyIdMode s = false → t.flag R.XTS_STAT F.XTS_STAT_EPH_KEY = true ∧ ∃ k : KeySet, t.mem = { s.mem with eph := some k, resetN := true } ∧
        k.k1.length = 32 ∧ k.k2.length = 32 ∧ k.kt.length = 32) ∧
      regsKept (fun b => b = R.MEMC_STAT ∨ b = R.MEMC_DATA_TOP ∨ b = R.XTS_STAT) s t ∧
      t = { enterSlot s p with regs := t.regs, mem := t.mem, freeCtr := t.freeCtr })) ∧
  (∀ (s : State) (p : Path) (w : Word), let a := R.MEMC_CMD
    accepts s p a (withField w F.MEMC_CMD_STOP 1) = true →
    (inflight s ≠ 0 → Refused s p a 0x05 (exec (.memcStop p w) s)) ∧
    (inflight s = 0 → memState s = 0 → exec (.memcStop p w) s = .next (written (enterSlot s p) p a)) ∧
    (inflight s = 0 → memState s ≠ 0 → ∃ t, exec (.memcStop p w) s = .next (written t p a) ∧ memState t = 0 ∧
      t.mem = { s.mem with
        beat := [], tag := [], fills := [], fill := none, reached := [], epoch := s.mem.epoch + 1, alerts := 0, resetN := false } ∧
      regsKept (· = R.MEMC_STAT) s t ∧ t = { enterSlot s p with regs := t.regs, mem := t.mem })) ∧
  (∀ (s : State) (p : Path) (w : Word), let a := R.MEMC_CMD
    accepts s p a (withField w F.MEMC_CMD_FILL 1) = true →
    let lo := s.getF R.MEMC_FILL_BASE F.MEMC_FILL_BASE_LINE
    let k := s.getF R.MEMC_FILL_BASE F.MEMC_FILL_BASE_SLOT
    let n := s.getF R.MEMC_FILL_LEN F.MEMC_FILL_LEN_LINES
    let ok := memState s = 3 ∧ lo + n ≤ 16384 * dataTopMib s ∧ (keyIdMode s = true → slotKeys s k ≠ none)
    (¬ ok → Refused s p a 0x04 (exec (.memcFill p w) s)) ∧
    (ok → ∃ t, exec (.memcFill p w) s = .next (written t p a) ∧ memState t = 4 ∧
      t.mem = { s.mem with fill := some (lo, n, k), reached := [], ctl := t.mem.ctl } ∧ 0 < inflight t ∧
      regsKept (fun b => b = R.MEMC_STAT ∨ b = R.MEMC_INFLIGHT) s t ∧
      t = { enterSlot s p with regs := t.regs, mem := t.mem, freeCtr := t.freeCtr })) ∧
  (∀ (s : State) (fail : Fin 6), memLive s = true → memState s = 1 →
    (fail.val ≠ 0 → ∃ t, exec (.memcTrainDone fail) s = .next t ∧ MemFailed s t fail) ∧
    (fail.val = 0 → keyIdMode s = false → integOn s = true → ∃ t, exec (.memcTrainDone fail) s = .next t ∧ memState t = 2 ∧
      0 < inflight t ∧ regsKept (fun b => b = R.MEMC_STAT ∨ b = R.MEMC_INFLIGHT) s t ∧
      t = { s with regs := t.regs, mem := { s.mem with ctl := t.mem.ctl }, freeCtr := t.freeCtr }) ∧
    (fail.val = 0 → keyIdMode s = true ∨ integOn s = false → ∃ t, exec (.memcTrainDone fail) s = .next t ∧ memState t = 3 ∧
      (t.reg (R.PAGE_IRQ_RAW 0x060)).getLsbD 0 = true ∧ regsKept (fun b => b = R.MEMC_STAT ∨ b = R.PAGE_IRQ_RAW 0x060) s t ∧
      t = { s with regs := t.regs })) ∧
  (∀ (s : State) (step : Fin 6), memLive s = true → memState s = 1 → step.val ≠ 0 →
    ∃ t, exec (.memcTrainTimeout step) s = .next t ∧ MemFailed s t step) ∧
  (∀ (s : State) (k : KeySet), memLive s = true → memState s = 2 → s.mem.eph = some k →
    ∃ t, exec .memcFillDone s = .next t ∧ memState t = 3 ∧ (t.reg (R.PAGE_IRQ_RAW 0x060)).getLsbD 0 = true ∧
      (∀ i < 16384 * dataTopMib s, LineZeroed t (sized s k) i) ∧
      (∀ i, 16384 * dataTopMib s ≤ i → lineBeats t i = lineBeats s i ∧ tagOf t i = tagOf s i) ∧
      regsKept (fun b => b = R.MEMC_STAT ∨ b = R.PAGE_IRQ_RAW 0x060) s t ∧ t = { s with regs := t.regs, mem := t.mem }) ∧
  (∀ (s : State) (lo n j : Nat) (k : KeySet), memLive s = true → memState s = 4 → s.mem.fill = some (lo, n, j) →
    (if keyIdMode s then slotKeys s j else s.mem.eph) = some k →
    ∃ t, exec .memcFillDone s = .next t ∧ memState t = 3 ∧ (t.reg (R.PAGE_IRQ_RAW 0x060)).getLsbD 2 = true ∧ t.mem.fill = none ∧
      (∀ i, lo ≤ i → i < lo + n → i ∉ s.mem.reached → LineZeroed t (sized s k) i) ∧
      (∀ i, i < lo ∨ lo + n ≤ i → lineBeats t i = lineBeats s i ∧ tagOf t i = tagOf s i) ∧
      (∀ i ∈ s.mem.reached, (tabGetRun (fun _ => none) s.mem.beat (16 * i) 16).all Option.isSome = true →
        lineBeats t i = lineBeats s i) ∧
      regsKept (fun b => b = R.MEMC_STAT ∨ b = R.PAGE_IRQ_RAW 0x060) s t ∧ t = { s with regs := t.regs, mem := t.mem }) ∧
  (∀ (s : State) (again : Bool), memLive s = true → memState s = 3 ∨ memState s = 4 →
    let n := if again then s.mem.alerts + 1 else 1
    (n < 4 → exec (.ddrAlert again) s = .next { s with mem := { s.mem with alerts := n } }) ∧
    (4 ≤ n → ∃ t, exec (.ddrAlert again) s = .next t ∧ MemFailed s t 6)) ∧
  (∀ (s : State) (p : Path) (w : Word), accepts s p R.MEMC_ECC_CLR (withField w F.MEMC_ECC_CLR_CLR 1) = true →
    let l := [R.MEMC_CE_CNT, R.MEMC_UE_CNT, R.MEMC_POISON_CNT, R.MEMC_TAG_UE_CNT, R.MEMC_ERR_CNT, R.MEMC_CE_LAST, R.MEMC_UE_LAST,
      R.MEMC_LAST_REQ]
    ∃ t, exec (.memcEccClr p w) s = .next (written t p R.MEMC_ECC_CLR) ∧ (∀ b ∈ l, t.reg b = 0) ∧ regsKept (· ∈ l) s t ∧
      t = { enterSlot s p with regs := t.regs }) ∧
  (∀ (s : State) (p : Path) (w : Word), accepts s p R.XTS_CTRL w = true →
    (memState s ≠ 0 → domOn s 57 = true → Refused s p R.XTS_CTRL 0x01 (exec (.xtsCtrlWrite p w) s)) ∧
    (memState s = 0 ∨ domOn s 57 = false → ∃ t, exec (.xtsCtrlWrite p w) s = .next (written t p R.XTS_CTRL) ∧ t.reg R.XTS_CTRL = w ∧
      regsKept (· = R.XTS_CTRL) s t ∧ t = { enterSlot s p with regs := t.regs }))

/-- What a change of slot `k` leaves alone: the other slots, the other bits of LOADED, every other register, the key words of the
other paths; and the path's own unless they are loaded (R424). -/
def SlotChanged (s t : State) (p : Path) (k : Nat) (v : Option KeySet) : Prop :=
  slotKeys t k = v ∧ (∀ j, j ≠ k → slotKeys t j = slotKeys s j) ∧
  (∀ j < 16, bitOf (t.regN R.KEYS_LOADED) j = if j = k then v.isSome else bitOf (s.regN R.KEYS_LOADED) j) ∧
  (∀ q i, i < 24 → q ≠ some p → kwGet t q i = kwGet s q i) ∧ regsKept (· = R.KEYS_LOADED) s t ∧
  t = { enterSlot s p with regs := t.regs, mem := { s.mem with slot := t.mem.slot, kw := t.mem.kw }, freeCtr := t.freeCtr }

/-- R405, R406, R407, R422, R424, Table 13.8. The drawn key set is a free value (log entry 2). -/
def Obligations.KeySlots : Prop :=
  (∀ (s : State) (p : Path) (w : Word), let a := R.KEYS_CMD
    accepts s p a (withField w F.KEYS_CMD_LOAD 1) = true →
    let k := s.getF R.KEYS_SEL F.KEYS_SEL_SLOT
    let words := fun n => kwBytes s (some p) n 4
    (slotBusy s k = true → Refused s p a 0x01 (exec (.keyLoad p w) s)) ∧
    (slotBusy s k = false → ∃ t v, exec (.keyLoad p w) s = .next (written t p a) ∧ SlotChanged s t p k (some v) ∧
      (∀ i < 24, kwGet t (some p) i = 0) ∧ v.k1.length = 32 ∧ v.k2.length = 32 ∧ v.kt.length = 32 ∧
      v.k1.take 16 = words 0 ∧ v.k2.take 16 = words 8 ∧ v.kt.take 16 = words 16 ∧
      (s.flag R.XTS_CTRL F.XTS_CTRL_KSIZE = true → t.freeCtr = s.freeCtr ∧
        v.k1.drop 16 = words 4 ∧ v.k2.drop 16 = words 12 ∧ v.kt.drop 16 = words 20))) ∧
  (∀ (s : State) (p : Path) (w : Word), let a := R.KEYS_CMD
    accepts s p a (withField w F.KEYS_CMD_RANDOM 1) = true →
    let k := s.getF R.KEYS_SEL F.KEYS_SEL_SLOT
    (slotBusy s k = true → Refused s p a 0x01 (exec (.keyRandom p w) s)) ∧
    (slotBusy s k = false → s.flag R.XTS_STAT F.XTS_STAT_RNG_OK = false → Refused s p a 0x02 (exec (.keyRandom p w) s)) ∧
    (slotBusy s k = false → s.flag R.XTS_STAT F.XTS_STAT_RNG_OK = true → ∃ t, exec (.keyRandom p w) s = .next (written t p a) ∧
      (∃ v : KeySet, SlotChanged s t p k (some v) ∧ v.k1.length = 32 ∧ v.k2.length = 32 ∧ v.kt.length = 32) ∧ t.mem.kw = s.mem.kw)) ∧
  (∀ (s : State) (p : Path) (w : Word), let a := R.KEYS_CMD
    accepts s p a (withField w F.KEYS_CMD_CLEAR 1) = true →
    let k := s.getF R.KEYS_SEL F.KEYS_SEL_SLOT
    (slotBusy s k = true → Refused s p a 0x01 (exec (.keyClear p w) s)) ∧
    (slotBusy s k = false → ∃ t, exec (.keyClear p w) s = .next (written t p a) ∧ SlotChanged s t p k none ∧ t.mem.kw = s.mem.kw ∧
      t.freeCtr = s.freeCtr))

/-- Phase, element, address and length of the request that a channel makes next of a kind (Table 14.5, R429, R437). -/
def readReq (s : State) (c : Nat) (k : DmaRead) : Nat × Nat × Nat × Nat :=
  let h := chanOf s c
  match k with
  | .desc => (0, h.nw, addr40 s (R.DMA_NEXT_LO c) (R.DMA_NEXT_HI c), 64)
  | .idx => (1, h.ni, (addr40 s (R.DMA_IDX_LO c) (R.DMA_IDX_HI c) + 4 * ((h.i0 + h.ni) % 2 ^ 28)) % 2 ^ 40, 4)
  | .elem => (2, h.nr, elemAddr s c, chanEsize s c)

/-- The channel is to make a request of the kind, and the arbiter grants it (R415, R430 to R432, R435 to R437); a window of a
unit under test does not answer (R515). -/
def readGranted (s : State) (c : Nat) (k : DmaRead) : Bool :=
  canGrant s c && windowAnswers s (readReq s c k).2.2.1 && (match k with
    | .desc => descReady s c
    | .idx => idxReady s c
    | .elem => elemReady s c && srcKind s c == 0)

/-- Of memory nothing changes but whose turn it is, and the controller's own tags in use, which are a free number (R413). -/
def MemKept (s t : State) : Prop := t.mem = { s.mem with spillTurn := t.mem.spillTurn, left := t.mem.left, ctl := t.mem.ctl }

/-- A line of `spill`, or of the DMA engine, was granted (R415): one less is left of the requester's turn, or a turn of its own
begins with its weight. -/
def Granted (s t : State) (spill : Bool) : Prop :=
  t.mem.spillTurn = spill ∧ t.mem.left = (if s.mem.left ≠ 0 ∧ s.mem.spillTurn = spill then s.mem.left - 1
    else s.getF R.MEMC_ARB (if spill then F.MEMC_ARB_W_SPILL else F.MEMC_ARB_W_DMA) - 1)

/-- A request has been answered: it waits, with its response and data, to reach the channel. -/
def Answered (s t : State) (c ph n a code : Nat) (d : List Byte) : Prop :=
  (chanOf t c).fl = (chanOf s c).fl ++ [⟨ph, n, a, code, d⟩]

/-- An error response is counted (R420). -/
def ErrorCounted (s t : State) : Prop :=
  t.getF R.MEMC_ERR_CNT F.MEMC_ERR_CNT_N = satAdd 32 (s.getF R.MEMC_ERR_CNT F.MEMC_ERR_CNT_N) 1 ∧
  (t.reg (R.PAGE_IRQ_RAW 0x060)).getLsbD 5 = true

/-- The line of a request as it stands when the request is performed: a FILL may have reached it, and bits of it may be upset. -/
def lineThen (s : State) (i : Nat) (flips : List (Fin 18 × BitVec 72)) (filled : Bool) : State :=
  upsetLine (if filled then fillReaches s i else s) i flips

/-- An integrity failure of the DMA at address `a` halts the device (R411, Table 19.6); the request stays in flight, with no
answer to come (R414). -/
def IntegrityHalted (s t : State) (c ph n a : Nat) : Prop :=
  HaltEntered s t 1 (a / 64 * 64 % 2 ^ 32) (a / 64 * 64 / 2 ^ 32 % 256 + 4096 * slotOf s a) ∧ Answered s t c ph n a 0 []

/-- R398, R400 to R404, R406, R409 to R412, R417, R420, R439, Table 13.2. Order of the checks: address, readiness, slot, region
(log entry 14). How long the arbiter's turn lasts, and who takes it next, is the model's reading (log entry 32). Which bits are
upset, and how far a FILL has come, is given with the command. -/
def Obligations.MemoryReads : Prop :=
  ∀ (s : State) (c : Fin 32) (k : DmaRead) (flips : List (Fin 18 × BitVec 72)) (filled : Bool), readGranted s c k = true →
    let q := readReq s c k
    let ph := q.1
    let n := q.2.1
    let a := q.2.2.1
    let len := q.2.2.2
    ∃ t, exec (.memoryRead c k flips filled) s = .next t ∧
      (∀ d, d ≠ c.val → chanOf t d = chanOf s d) ∧ t.dma.next = (c + 1) % 32 ∧ Granted s t false ∧
      (2 ^ 40 ≤ a ∨ decodeAddr a = .none → Answered s t c ph n a 1 [] ∧ ErrorCounted s t ∧ MemKept s t) ∧
      (∀ byte, a < 2 ^ 40 → decodeAddr a = .dram byte → dramError s a byte len ≠ 0 →
        Answered s t c ph n a (dramError s a byte len) [] ∧ ErrorCounted s t ∧ MemKept s t) ∧
      (∀ byte key, a < 2 ^ 40 → decodeAddr a = .dram byte → dramError s a byte len = 0 → keysFor s a = some key →
        let i := byte / 64
        let u := lineThen s i flips filled
        let cls := lineClass (lineBeats u i)
        let ct := beatBytes (lineBeats u i)
        let tb := tagOf u i
        let tag := beatData (atD 0 tb 0) + 2 ^ 32 * beatData (atD 0 tb 1)
        let data := ((xtsDecLine key.k1 key.k2 i ct).drop (byte % 64)).take len
        lineBeats t i = lineBeats u i ∧ (∀ j, j ≠ i → lineBeats t j = lineBeats s j ∧ tagOf t j = tagOf s j) ∧
        (2 ≤ cls → Answered s t c ph n a 4 [] ∧ ErrorCounted s t ∧ (t.reg (R.PAGE_IRQ_RAW 0x060)).getLsbD 4 = true ∧
          t.getF R.MEMC_UE_CNT F.MEMC_UE_CNT_N = satAdd 32 (s.getF R.MEMC_UE_CNT F.MEMC_UE_CNT_N) 1 ∧
          t.reg R.MEMC_UE_LAST = BitVec.ofNat 32 (i % 2 ^ 28 + 2 ^ 28 * (if cls = 3 then 1 else 3)) ∧
          t.getF R.MEMC_LAST_REQ F.MEMC_LAST_REQ_UE_SLOT = slotOf s a) ∧
        (cls < 2 → integOn s = false → Answered s t c ph n a 0 data ∧ t.reg R.MEMC_ERR_CNT = s.reg R.MEMC_ERR_CNT ∧
          (cls = 1 → t.getF R.MEMC_CE_CNT F.MEMC_CE_CNT_N = satAdd 32 (s.getF R.MEMC_CE_CNT F.MEMC_CE_CNT_N) 1 ∧
            t.reg R.MEMC_CE_LAST = BitVec.ofNat 32 i ∧ (t.reg (R.PAGE_IRQ_RAW 0x060)).getLsbD 3 = true) ∧
          (cls = 0 → t.reg R.MEMC_CE_CNT = s.reg R.MEMC_CE_CNT)) ∧
        (cls < 2 → integOn s = true → 2 ≤ lineClass tb → Answered s t c ph n a 5 [] ∧ ErrorCounted s t ∧
          t.getF R.MEMC_TAG_UE_CNT F.MEMC_TAG_UE_CNT_N = satAdd 32 (s.getF R.MEMC_TAG_UE_CNT F.MEMC_TAG_UE_CNT_N) 1) ∧
        (cls < 2 → integOn s = true → lineClass tb < 2 → tag = lineTag key i ct → Answered s t c ph n a 0 data ∧
          t.getF R.XTS_CHECKS F.XTS_CHECKS_N = wrapAdd 32 (s.getF R.XTS_CHECKS F.XTS_CHECKS_N) 1) ∧
        (cls < 2 → integOn s = true → lineClass tb < 2 → tag ≠ lineTag key i ct → s.phase = .kiln ∨ s.phase = .run →
          IntegrityHalted s t c ph n a)) ∧
      (∀ w b, a < 2 ^ 40 → decodeAddr a = .tdc w b →
        (len ≠ 16 ∨ b % 16 ≠ 0 ∨ tdcDomOn s (w / 16) = false → Answered s t c ph n a 1 [] ∧ ErrorCounted s t ∧ t.tdc = s.tdc) ∧
        (len = 16 → b % 16 = 0 → tdcDomOn s (w / 16) = true →
          (tdcQ (tdcUndo s w) w = [] → Answered s t c ph n a 0 (List.replicate 16 0#8) ∧ tdcQ t w = []) ∧
          (∀ e r, tdcQ (tdcUndo s w) w = e :: r → Answered s t c ph n a 0 ((entWords e).map (natLE 4)).flatten ∧ tdcQ t w = r) ∧
          ∀ v, v ≠ w → tdcQ t v = tdcQ s v)) ∧
      (∀ b, a < 2 ^ 40 → decodeAddr a = .inkwell b → (domOn s 49 = false → Answered s t c ph n a 1 [] ∧ ErrorCounted s t) ∧
        (domOn s 49 = true → (∃ d, Answered s t c ph n a 0 d) ∨ (Answered s t c ph n a 4 [] ∧ ErrorCounted s t)) ∧ MemKept s t) ∧
      (k = .idx → t.getF (R.DMA_IDX_CUR c) F.DMA_IDX_CUR_N = ((chanOf s c).i0 + (chanOf s c).ni + 1) % 2 ^ 28) ∧
      (k = .elem → srcMode s c = 0 → srcAddr t c = (srcAddr s c + chanEsize s c) % 2 ^ 40) ∧
      (t.phase = s.phase → regsKept (fun b => (∃ w < 32, b ∈ [R.TDC_CH_LOST w, R.TDC_CH_EDGES w, R.PAGE_IRQ_RAW (0x050 + w / 8)]) ∨ b ∈ [R.MEMC_ERR_CNT, R.MEMC_CE_CNT, R.MEMC_UE_CNT, R.MEMC_TAG_UE_CNT, R.MEMC_CE_LAST,
          R.MEMC_UE_LAST, R.MEMC_LAST_REQ, R.MEMC_INFLIGHT, R.XTS_CHECKS, R.PAGE_IRQ_RAW 0x060, R.DMA_IDX_CUR c, R.DMA_SRC_LO c,
          R.DMA_SRC_HI c, R.INK_CE_CNT, R.INK_UE_CNT, R.PAGE_IRQ_RAW 0x031]) s t ∧
        t = { s with
          regs := t.regs, mem := t.mem, dma := t.dma, tdc := t.tdc, cap := { s.cap with ink := t.cap.ink }, freeCtr := t.freeCtr })

/-- Line `i` is stored with its tag (R399, R403, R409), every other line and tag stays. -/
def LineStored (s t : State) (k : KeySet) (i : Nat) (plain : List Byte) (poison : Bool) : Prop :=
  let ct := xtsEncLine k.k1 k.k2 i plain
  lineBeats t i = beatsOf poison 16 ct ∧ (integOn s = true → tagOf t i = tagBeats (lineTag k i ct)) ∧
  ∀ j, j ≠ i → lineBeats t j = lineBeats s j ∧ tagOf t j = tagOf s j

/-- R304, R399, R400 to R404, R406, R409 to R412, R420, R427, R431, Table 13.2. The order of the checks (log entry 14) and the
arbiter's turn (log entry 32) are the model's readings. -/
def Obligations.MemoryWrites : Prop :=
  (∀ (s : State) (c : Fin 32) (flips : List (Fin 18 × BitVec 72)) (filled : Bool),
    canGrant s c = true → writeReady s c = true → dstKind s c = 0 →
    let h := chanOf s c
    let a := dstAddr s c
    let d := tabGet (fun _ => []) h.got h.nw
    ∃ t, exec (.memoryWrite (.dma c) flips filled) s = .next t ∧ (∀ e, e ≠ c.val → chanOf t e = chanOf s e) ∧
      t.dma.next = (c + 1) % 32 ∧ Granted s t false ∧
      ((∀ byte, decodeAddr a ≠ .dram byte) → Answered s t c 3 h.nw a 1 [] ∧ ErrorCounted s t ∧ MemKept s t) ∧
      (∀ byte, decodeAddr a = .dram byte → dramError s a byte d.length ≠ 0 →
        Answered s t c 3 h.nw a (dramError s a byte d.length) [] ∧ ErrorCounted s t ∧ MemKept s t) ∧
      (∀ byte key, decodeAddr a = .dram byte → dramError s a byte d.length = 0 → keysFor s a = some key →
        let i := byte / 64
        let u := lineThen s i flips filled
        let cls := lineClass (lineBeats u i)
        let ct := beatBytes (lineBeats u i)
        let tb := tagOf u i
        let tag := beatData (atD 0 tb 0) + 2 ^ 32 * beatData (atD 0 tb 1)
        let merged := patch (xtsDecLine key.k1 key.k2 i ct) d (byte % 64)
        (d.length = 64 → Answered s t c 3 h.nw a 0 [] ∧ LineStored s t key i d false ∧ t.reg R.MEMC_UE_CNT = s.reg R.MEMC_UE_CNT) ∧
        (d.length ≠ 64 → 2 ≤ cls → Answered s t c 3 h.nw a 0 [] ∧ LineStored s t key i merged true ∧
          (cls = 3 → t.getF R.MEMC_UE_CNT F.MEMC_UE_CNT_N = satAdd 32 (s.getF R.MEMC_UE_CNT F.MEMC_UE_CNT_N) 1 ∧
            t.getF R.MEMC_POISON_CNT F.MEMC_POISON_CNT_N = satAdd 32 (s.getF R.MEMC_POISON_CNT F.MEMC_POISON_CNT_N) 1 ∧
            t.reg R.MEMC_UE_LAST = BitVec.ofNat 32 (i % 2 ^ 28 + 2 ^ 28 * 2))) ∧
        (d.length ≠ 64 → cls < 2 → integOn s = false ∨ (lineClass tb < 2 ∧ tag = lineTag key i ct) →
          Answered s t c 3 h.nw a 0 [] ∧ LineStored s t key i merged false) ∧
        (d.length ≠ 64 → cls < 2 → integOn s = true → 2 ≤ lineClass tb → Answered s t c 3 h.nw a 5 [] ∧ ErrorCounted s t ∧
          lineBeats t i = lineBeats u i) ∧
        (d.length ≠ 64 → cls < 2 → integOn s = true → lineClass tb < 2 → tag ≠ lineTag key i ct → s.phase = .kiln ∨ s.phase = .run →
          IntegrityHalted s t c 3 h.nw a ∧ lineBeats t i = lineBeats u i)) ∧
      (dstMode s c = 0 → dstAddr t c = (dstAddr s c + chanEsize s c) % 2 ^ 40) ∧
      (t.phase = s.phase → regsKept (fun b => b ∈ [R.MEMC_ERR_CNT, R.MEMC_CE_CNT, R.MEMC_UE_CNT, R.MEMC_POISON_CNT, R.MEMC_TAG_UE_CNT,
          R.MEMC_CE_LAST, R.MEMC_UE_LAST, R.MEMC_LAST_REQ, R.MEMC_INFLIGHT, R.XTS_CHECKS, R.PAGE_IRQ_RAW 0x060, R.DMA_DST_LO c,
          R.DMA_DST_HI c]) s t ∧ t = { s with regs := t.regs, mem := t.mem, dma := t.dma, freeCtr := t.freeCtr })) ∧
  (∀ (s : State) (flips : List (Fin 18 × BitVec 72)) (filled : Bool), spillGrant s = true →
    let m := s.cap.spIss
    let a := spillAddr s m
    let len := if s.cap.spBlk < s.cap.blocks then 512 else inkWr s % 512
    let line := spillWords 8 (s.cap.spBlk % 512 * 512 + 8 * (m % 64)) len s
    ∃ t, exec (.memoryWrite .spill flips filled) s = .next t ∧ t.cap.spIss = m + 1 ∧ t.cap.spOut = s.cap.spOut ++ [m] ∧
      t.cap.spBlk = (if m % 64 = 63 then s.cap.spBlk + 1 else s.cap.spBlk) ∧
      t.cap.spFreed = (if regionBlocked s then s.cap.spFreed + 1 else s.cap.spFreed) ∧ t.dma = s.dma ∧
      (spillUrgent s = false → Granted s t true) ∧ (spillUrgent s = true → t.mem.spillTurn = s.mem.spillTurn ∧ t.mem.left = s.mem.left) ∧
      (∀ byte key, decodeAddr a = .dram byte → dramError s a byte 64 = 0 → keysFor s a = some key →
        LineStored s t key (byte / 64) line.2.1 line.2.2) ∧
      (∀ byte, decodeAddr a = .dram byte → dramError s a byte 64 ≠ 0 → ErrorCounted s t ∧ MemKept s t) ∧
      ((∀ byte, decodeAddr a ≠ .dram byte) → ErrorCounted s t ∧ MemKept s t))

/-- A performed command of channel `c`: the other channels, and every register outside `P`, hold what they held. -/
def ChanOnly (s t : State) (p : Path) (c : Nat) (P : Nat → Prop) : Prop :=
  (∀ d, d ≠ c → chanOf t d = chanOf s d) ∧ regsKept P s t ∧ t = { enterSlot s p with regs := t.regs, dma := t.dma }

/-- DONE, ERROR or PAUSED of channel `c` is set in IRQ_RAW: `base` 0, 8 or 16. -/
def dmaRaised (t : State) (c base : Nat) : Prop := (t.reg (R.PAGE_IRQ_RAW (0x070 + c / 8))).getLsbD (base + c % 8) = true

/-- R425, R434 to R437, R440, R441, R443, Tables 14.3, 14.6 and 14.7. A START with COUNT 0, which an earlier transfer has left, is complete
at once: the model's reading (log entry 60). -/
def Obligations.DmaCommands : Prop :=
  (∀ (s : State) (p : Path) (c : Fin 32) (w : Word), let a := R.DMA_CMD c
    accepts s p a (withField w F.DMA_CMD_START 1) = true →
    let e := chanEsize s c
    let bad := srcAddr s c % e ≠ 0 ∨ (dstKind s c ≠ 2 ∧ dstAddr s c % e ≠ 0) ∨
      (srcMode s c = 2 ∧ addr40 s (R.DMA_IDX_LO c) (R.DMA_IDX_HI c) % 4 ≠ 0) ∨
      (chanCfg s c F.DMA_CH_CFG_CHAIN = 1 ∧ addr40 s (R.DMA_NEXT_LO c) (R.DMA_NEXT_HI c) % 64 ≠ 0)
    let closed := dstKind s c = 2 ∧ strOpen s (chanStream s c) = false
    let h0 : Chan := { noChan with tot := chanCount s c, i0 := s.getF (R.DMA_IDX_CUR c) F.DMA_IDX_CUR_N }
    (s.phase ≠ .run → Refused s p a 0x07 (exec (.dmaStart p c w) s)) ∧
    (s.phase = .run → chanSt s c ≠ 0 → Refused s p a 0x02 (exec (.dmaStart p c w) s)) ∧
    (s.phase = .run → chanSt s c = 0 → bad → Refused s p a 0x04 (exec (.dmaStart p c w) s)) ∧
    (s.phase = .run → chanSt s c = 0 → ¬ bad → closed → Refused s p a 0x05 (exec (.dmaStart p c w) s)) ∧
    (s.phase = .run → chanSt s c = 0 → ¬ bad → ¬ closed → ∃ t, exec (.dmaStart p c w) s = .next (written t p a) ∧
      t.getF (R.DMA_STAT c) F.DMA_STAT_RESP = 0 ∧ t.getF (R.DMA_STAT c) F.DMA_STAT_PHASE = 0 ∧
      t.getF (R.DMA_DONE_CNT c) F.DMA_DONE_CNT_N = 0 ∧
      ChanOnly s t p c (fun b => b = R.DMA_STAT c ∨ b = R.DMA_DONE_CNT c ∨ (chanCount s c = 0 ∧ b = R.PAGE_IRQ_RAW (0x070 + c / 8))) ∧
      (0 < chanCount s c → chanSt t c = 1 ∧ chanOf t c = h0) ∧
      (chanCount s c = 0 → chanCfg s c F.DMA_CH_CFG_CHAIN = 0 → chanSt t c = 0 ∧ chanOf t c = noChan ∧ dmaRaised t c 0) ∧
      (chanCount s c = 0 → chanCfg s c F.DMA_CH_CFG_CHAIN = 1 → chanSt t c = 1 ∧ chanOf t c = { h0 with chain := true }))) ∧
  (∀ (s : State) (p : Path) (c : Fin 32) (w : Word), let a := R.DMA_CMD c
    accepts s p a (withField w F.DMA_CMD_PAUSE 1) = true →
    let h := chanOf s c
    (s.phase ≠ .run → Refused s p a 0x07 (exec (.dmaPause p c w) s)) ∧
    (s.phase = .run → chanSt s c ≠ 1 → Refused s p a 0x03 (exec (.dmaPause p c w) s)) ∧
    (s.phase = .run → chanSt s c = 1 → h.chain = true ∨ h.nw ≠ h.tot ∨ h.nr ≠ h.tot →
      (h.fl ≠ [] ∨ (∃ e, h.err = some e ∧ h.nw < e.2.2.2) ∨ (h.err = none ∧ chanDrained h = false) →
        ∃ t, exec (.dmaPause p c w) s = .next (written t p a) ∧ chanSt t c = 2 ∧ chanOf t c = h ∧ ChanOnly s t p c (· = R.DMA_STAT c)) ∧
      (h.err = none → chanDrained h = true →
        ∃ t, exec (.dmaPause p c w) s = .next (written t p a) ∧ chanSt t c = 3 ∧ chanOf t c = h ∧ dmaRaised t c 16 ∧
          ChanOnly s t p c (fun b => b = R.DMA_STAT c ∨ b = R.PAGE_IRQ_RAW (0x070 + c / 8))))) ∧
  (∀ (s : State) (p : Path) (c : Fin 32) (w : Word), let a := R.DMA_CMD c
    accepts s p a (withField w F.DMA_CMD_RESUME 1) = true →
    (s.phase ≠ .run → Refused s p a 0x07 (exec (.dmaResume p c w) s)) ∧
    (s.phase = .run → chanSt s c ≠ 3 → Refused s p a 0x03 (exec (.dmaResume p c w) s)) ∧
    (s.phase = .run → chanSt s c = 3 → ∃ t, exec (.dmaResume p c w) s = .next (written t p a) ∧ chanSt t c = 1 ∧
      chanOf t c = chanOf s c ∧ ChanOnly s t p c (· = R.DMA_STAT c))) ∧
  (∀ (s : State) (p : Path) (c : Fin 32) (w : Word), let a := R.DMA_CMD c
    accepts s p a (withField w F.DMA_CMD_CANCEL 1) = true →
    (s.phase ≠ .run → Refused s p a 0x07 (exec (.dmaCancel p c w) s)) ∧
    (s.phase = .run → chanSt s c ≠ 3 → chanSt s c ≠ 4 → Refused s p a 0x03 (exec (.dmaCancel p c w) s)) ∧
    (s.phase = .run → chanSt s c = 3 ∨ chanSt s c = 4 → ∃ t, exec (.dmaCancel p c w) s = .next (written t p a) ∧ chanSt t c = 0 ∧
      chanOf t c = noChan ∧ ChanOnly s t p c (· = R.DMA_STAT c))) ∧
  (∀ (s : State) (p : Path) (c : Fin 32) (i : Fin 64) (w : Word), let a := bufReg c i
    accepts s p a w = true →
    let busy := chanBusy s c = true ∧ (srcKind s c = 1 ∨ dstKind s c = 1)
    (busy → Refused s p a 0x06 (exec (.dmaBufferWrite p c i w) s)) ∧
    (¬ busy → ∃ t, exec (.dmaBufferWrite p c i w) s = .next (written t p a) ∧ t.reg a = w ∧ regsKept (· = a) s t ∧
      t = { enterSlot s p with regs := t.regs })) ∧
  (∀ (s : State) (p : Path) (c : Fin 32) (a : Addr) (w : Word),
    a.toNat ∈ descRegs c ∨ a.toNat = R.DMA_IDX_CUR c → accepts s p a.toNat w = true →
    (chanSt s c ≠ 0 → Refused s p a.toNat 0x01 (exec (.registerWrite p a w) s)) ∧
    (chanSt s c = 0 → ∃ t, exec (.registerWrite p a w) s = .next (written t p a.toNat) ∧ t.reg a.toNat = w ∧
      regsKept (· = a.toNat) s t ∧ t = { enterSlot s p with regs := t.regs }))

/-- Request `r` of channel `c` has failed (R438); `h` is the channel without it, and `resp`, `ph`, `addr`, `n` say what failed. While other
requests are in flight, or elements before it are to be written, the failure is kept; after that the channel is in ERROR, and its
registers name the failing element as the next (R434). -/
def DmaFailed (s t : State) (c : Nat) (h : Chan) (resp ph addr n : Nat) : Prop :=
  (∀ d, d ≠ c → chanOf t d = chanOf s d) ∧
  (h.fl ≠ [] ∨ h.nw < n → chanOf t c = { h with err := some (resp, ph, addr, n) } ∧ t = { s with dma := t.dma }) ∧
  (h.fl = [] → n ≤ h.nw → chanSt t c = 4 ∧ t.getF (R.DMA_STAT c) F.DMA_STAT_RESP = resp % 16 ∧
    t.getF (R.DMA_STAT c) F.DMA_STAT_PHASE = ph % 4 ∧ addr40 t (R.DMA_ERR_ADDR_LO c) (R.DMA_ERR_ADDR_HI c) = addr % 2 ^ 40 ∧
    dmaRaised t c 8 ∧ chanOf t c = noChan ∧
    (srcMode s c = 0 → (srcAddr t c + (h.nr - n) * chanEsize s c) % 2 ^ 40 = srcAddr s c) ∧
    (dstMode s c = 0 → (dstAddr t c + (h.nw - n) * chanEsize s c) % 2 ^ 40 = dstAddr s c) ∧
    (srcMode s c = 2 → t.getF (R.DMA_IDX_CUR c) F.DMA_IDX_CUR_N = (h.i0 + n) % 2 ^ 28) ∧
    regsKept (fun b => (srcMode s c = 0 ∧ (b = R.DMA_SRC_LO c ∨ b = R.DMA_SRC_HI c)) ∨ (dstMode s c = 0 ∧ (b = R.DMA_DST_LO c ∨
      b = R.DMA_DST_HI c)) ∨ (srcMode s c = 2 ∧ b = R.DMA_IDX_CUR c) ∨ b ∈ [R.DMA_STAT c, R.DMA_ERR_ADDR_LO c, R.DMA_ERR_ADDR_HI c,
      R.PAGE_IRQ_RAW (0x070 + c / 8)]) s t ∧ t = { s with regs := t.regs, dma := t.dma })

/-- An element of channel `c` has been written (R434, R437, R440, Table 14.3); `h` is the channel without it. The last one ends the
transfer or makes the descriptor at NEXT due; a drained channel in PAUSING is PAUSED; otherwise the channel stays as it is. `W` are
further registers that the writing itself changes. -/
def ElementWritten (s t : State) (c : Nat) (h : Chan) (W : Nat → Prop) : Prop :=
  let last := h.fl = [] ∧ h.chain = false ∧ h.nw = h.tot ∧ h.nr = h.tot
  chanCount t c = chanCount s c - 1 ∧
  t.getF (R.DMA_DONE_CNT c) F.DMA_DONE_CNT_N = wrapAdd 28 (s.getF (R.DMA_DONE_CNT c) F.DMA_DONE_CNT_N) 1 ∧
  (∀ d, d ≠ c → chanOf t d = chanOf s d) ∧
  (last → chanCfg s c F.DMA_CH_CFG_CHAIN = 0 → chanSt t c = 0 ∧ chanOf t c = noChan ∧ dmaRaised t c 0) ∧
  (last → chanCfg s c F.DMA_CH_CFG_CHAIN = 1 → chanOf t c = { h with chain := true } ∧
    (chanSt s c = 1 → chanSt t c = 1) ∧ (chanSt s c = 2 → chanSt t c = 3 ∧ dmaRaised t c 16)) ∧
  (¬ last → chanOf t c = h ∧ (chanSt s c = 2 → chanDrained h = true → chanSt t c = 3 ∧ dmaRaised t c 16) ∧
    (chanSt s c = 1 ∨ chanDrained h = false → chanSt t c = chanSt s c)) ∧
  regsKept (fun b => W b ∨ b ∈ [R.DMA_COUNT c, R.DMA_DONE_CNT c, R.DMA_STAT c, R.PAGE_IRQ_RAW (0x070 + c / 8)]) s t

/-- R428, R429, R431, R434 to R440, R469, Tables 14.1 to 14.5. The responses that reach a channel, the elements of its own buffer and of a
capture stream, and the descriptors. A channel whose stream has closed is the subject of R438's RESP 6 and is left out by `strOpen`. -/
def Obligations.DmaTransfers : Prop :=
  (∀ (s : State) (c : Fin 32) (i : Nat) (r : DReq), let h := chanOf s c
    let h1 : Chan := { h with fl := h.fl.eraseIdx i }
    dmaLive s = true → chanBusy s c = true → h.fl[i]? = some r → h.err = none → (dstKind s c = 2 → strOpen s (chanStream s c) = true) →
    (r.ph = 1 ∨ r.ph = 2 → r.resp ≠ 0 →
      ∃ t, exec (.dmaReadResponse c i) s = .next t ∧ DmaFailed s t c h1 r.resp r.ph r.addr r.n) ∧
    (r.ph = 1 → r.resp = 0 → h.nr < h.tot → ∃ t, exec (.dmaReadResponse c i) s = .next t ∧
      chanOf t c = { h1 with idx := h.idx ++ [(r.n, leNat r.data)] } ∧ (∀ d, d ≠ c.val → chanOf t d = chanOf s d) ∧
      t = { s with dma := t.dma }) ∧
    (r.ph = 2 → r.resp = 0 → h.nw < h.tot → r.data ≠ [] → ∃ t, exec (.dmaReadResponse c i) s = .next t ∧
      chanOf t c = { h1 with got := tabSet (fun _ => []) h.got r.n r.data } ∧ (∀ d, d ≠ c.val → chanOf t d = chanOf s d) ∧
      t = { s with dma := t.dma }) ∧
    (r.ph = 3 → dstKind s c = 0 →
      ∃ t, exec (.dmaWriteAck c i) s = .next t ∧ (r.resp ≠ 0 → DmaFailed s t c h1 r.resp 3 r.addr r.n) ∧
        (r.resp = 0 → ElementWritten s t c h1 (fun _ => False) ∧ t = { s with regs := t.regs, dma := t.dma }))) ∧
  (∀ (s : State) (c : Fin 32) (i : Nat), let h := chanOf s c
    dmaLive s = true → chanBusy s c = true → h.fl[i]? = none → h.err = none → (dstKind s c = 2 → strOpen s (chanStream s c) = true) →
    elemReady s c = true → srcKind s c = 1 → h.nw ≤ h.nr →
    ∃ t, exec (.dmaReadResponse c i) s = .next t ∧
      chanOf t c = { h with
        nr := h.nr + 1
        idx := h.idx.filter (fun e => e.1 != h.nr)
        got := tabSet (fun _ => []) h.got h.nr (bufRead s c (elemAddr s c % 256) (chanEsize s c)) } ∧
      (srcMode s c = 0 → srcAddr t c = (srcAddr s c + chanEsize s c) % 2 ^ 40) ∧ (∀ d, d ≠ c.val → chanOf t d = chanOf s d) ∧
      regsKept (fun b => srcMode s c = 0 ∧ (b = R.DMA_SRC_LO c ∨ b = R.DMA_SRC_HI c)) s t ∧ t = { s with regs := t.regs, dma := t.dma }) ∧
  (∀ (s : State) (c : Fin 32) (i : Nat), let h := chanOf s c
    let d := tabGet (fun _ => []) h.got h.nw
    let h1 : Chan := { h with nw := h.nw + 1, got := tabSet (fun _ => []) h.got h.nw [] }
    let dst := fun b => dstMode s c = 0 ∧ (b = R.DMA_DST_LO c ∨ b = R.DMA_DST_HI c)
    dmaLive s = true → h.fl[i]? = none → h.err = none → writeReady s c = true → d.length = chanEsize s c →
    (dstKind s c = 1 → let buf := fun j => bufReg c ((dstAddr s c % 256 / 4 + j) % 64)
      ∃ t, exec (.dmaWriteAck c i) s = .next t ∧ ElementWritten s t c h1 (fun b => dst b ∨ ∃ j < d.length / 4, b = buf j) ∧
        (d.length ≤ 256 → ∀ j < d.length / 4, t.regN (buf j) = leNat ((d.drop (4 * j)).take 4)) ∧
        (dstMode s c = 0 → dstAddr t c = (dstAddr s c + chanEsize s c) % 2 ^ 40) ∧ t = { s with regs := t.regs, dma := t.dma }) ∧
    (dstKind s c = 2 → let k := chanStream s c
      let b := (strmOf s k).buf ++ d
      strOpen s k = true → (strmOf s k).closed = false → b.length < 256 ∨ (b.length = 256 ∧ strCredit s k < 256) →
      ∃ t, exec (.dmaWriteAck c i) s = .next t ∧ ElementWritten s t c h1 dst ∧ strmOf t k = ⟨b, b.length == 256⟩ ∧
        (∀ j, j ≠ k → strmOf t j = strmOf s j) ∧ (dstMode s c = 0 → dstAddr t c = (dstAddr s c + chanEsize s c) % 2 ^ 40) ∧
        t = { s with regs := t.regs, dma := t.dma, dl := { s.dl with str := t.dl.str } })) ∧
  (∀ (s : State) (c : Fin 32) (r : DReq), let h := chanOf s c
    dmaLive s = true → chanBusy s c = true → h.fl = [r] → r.ph = 0 → h.err = none → r.n = h.nw → r.data.length = 64 ∨ r.resp ≠ 0 →
    let ws := wordsLE r.data
    let h1 : Chan := { h with fl := [] }
    (r.resp ≠ 0 → ∃ t, exec (.dmaDescriptorLoad c) s = .next t ∧ DmaFailed s t c h1 r.resp 0 r.addr r.n) ∧
    (r.resp = 0 → descOk s c ws = false → ∃ t, exec (.dmaDescriptorLoad c) s = .next t ∧ DmaFailed s t c h1 7 0 r.addr r.n) ∧
    (r.resp = 0 → descOk s c ws = true → ∃ t, exec (.dmaDescriptorLoad c) s = .next t ∧
      (∀ j < 10, t.regN (atD 0 (descRegs c) j) = atD 0 ws j) ∧ t.reg (R.DMA_IDX_CUR c) = 0 ∧
      t.getF (R.DMA_DONE_CNT c) F.DMA_DONE_CNT_N = 0 ∧ chanOf t c = { noChan with tot := chanCount t c } ∧
      (chanSt s c = 1 → chanSt t c = 1) ∧ (chanSt s c = 2 → chanSt t c = 3 ∧ dmaRaised t c 16) ∧
      (∀ d, d ≠ c.val → chanOf t d = chanOf s d) ∧
      regsKept (fun b => b ∈ descRegs c ∨ b ∈ [R.DMA_IDX_CUR c, R.DMA_DONE_CNT c] ∨ (chanSt s c = 2 ∧ b ∈ [R.DMA_STAT c,
        R.PAGE_IRQ_RAW (0x070 + c / 8)])) s t ∧ t = { s with regs := t.regs, dma := t.dma }))

/-- Lane `n` is in HUNT at a rate with the preset taps, and what it holds of a training is as at its start (Table 15.3, R449). -/
def Hunting (t : State) (n rate : Nat) : Prop :=
  let l := laneOf t n
  laneSt t n = 1 ∧ laneRate t n = rate ∧ t.reg (R.LANE_TAPS n) = lanePreset t n ∧ l.run = 0 ∧ l.target = 0 ∧ l.pmask = 0 ∧
  l.pflags = 0 ∧ l.eqDone = false ∧ l.eq = noEq ∧ l.ans = none ∧ l.sent = 0

/-- A new training has begun (R449, R450, R455): HUNT at rate 0, no rate struck, no partner. -/
def TrainingBegun (t : State) (n : Nat) : Prop :=
  Hunting t n 0 ∧ (laneOf t n).struck = 0 ∧ t.flag (R.LANE_STAT n) F.LANE_STAT_PRESENT = false ∧
  t.flag (R.LANE_STAT n) F.LANE_STAT_DEGRADED = false ∧ t.getF (R.LANE_STAT n) F.LANE_STAT_CAUSE = 0 ∧ t.getF (R.LANE_EYE n) F.LANE_EYE_REQS = 0

/-- The link of a lane that leaves UP is gone (R463, R471), and DOWN is raised. -/
def LinkDropped (t : State) (n : Nat) : Prop :=
  let l := laneOf t n
  l.replay = [] ∧ l.out = [] ∧ l.sess = none ∧ l.keyx = none ∧ l.link = none ∧ l.scan = none ∧ l.txSeq = 0 ∧ l.rxSeq = 0 ∧ l.ackDue = 0 ∧
  l.replays = 0 ∧ l.resent = [] ∧ t.flag (R.LANE_STAT n) F.LANE_STAT_ENC_UP = false ∧ (t.reg (R.PAGE_IRQ_RAW (0x080 + n))).getLsbD 1 = true

/-- Stream `k` is open on lane `n`. -/
def openOn (s : State) (n k : Nat) : Prop := k < 16 ∧ strOpen s k = true ∧ strLane s k = n

/-- The streams of lane `n` have closed (R469), the others are as they were. -/
def StreamsClosed (s t : State) (n : Nat) : Prop :=
  ∀ k < 16, (openOn s n k → strCredit t k = 0 ∧ strmOf t k = noStrm ∧ (t.reg (R.PAGE_IRQ_RAW 0x088)).getLsbD 2 = true) ∧
    (¬ openOn s n k → strmOf t k = strmOf s k ∧ t.reg (R.DLNK_STR_STAT k) = s.reg (R.DLNK_STR_STAT k))

/-- A change of lane `n` and of the registers `W`; DMA channels and the link page change only with a stream that closes. -/
def LaneOnly (s t : State) (n : Nat) (W : Nat → Prop) : Prop :=
  (∀ m, m ≠ n → laneOf t m = laneOf s m) ∧
  regsKept (fun b => W b ∨ ((∃ k, openOn s n k) ∧ (b / 0x1000 = 0x088 ∨ (0x070 ≤ b / 0x1000 ∧ b / 0x1000 < 0x074)))) s t ∧
  ((∀ k, ¬ openOn s n k) → t.dma = s.dma) ∧
  t = { s with regs := t.regs, dma := t.dma, dl := { s.dl with lane := t.dl.lane, str := t.dl.str }, freeCtr := t.freeCtr }

/-- The registers of a lane that its training changes. -/
def laneTrainRegs (n b : Nat) : Prop := b ∈ [R.LANE_STAT n, R.LANE_EYE n, R.LANE_TAPS n, R.PAGE_IRQ_RAW (0x080 + n)]

/-- UP to HUNT at rate 0 (Table 15.3); `W` are further registers that change. -/
def LeftUp (s t : State) (n : Nat) (W : Nat → Prop) : Prop :=
  TrainingBegun t n ∧ LinkDropped t n ∧ StreamsClosed s t n ∧ (laneOf t n).su = (laneOf s n).su ∧
  t.getF (R.LANE_RETRAIN_CNT n) F.LANE_RETRAIN_CNT_N = satAdd 32 (s.getF (R.LANE_RETRAIN_CNT n) F.LANE_RETRAIN_CNT_N) 1 ∧
  LaneOnly s t n (fun b => W b ∨ laneTrainRegs n b ∨ b = R.LANE_RETRAIN_CNT n) ∧ t.freeCtr = s.freeCtr

/-- R444, R445, R449 to R451, R455, R456, R459, R462, Tables 15.3, 15.7 and 15.8. -/
def Obligations.LaneStates : Prop :=
  (∀ (s : State) (p : Path) (n : Fin 8) (reg : Fin 4) (w : Word), let a := laneConfigReg n reg
    canIssue s p = true → served s p = true → devViolation s p a (some w) = none → pageWedged s (a / 0x1000) = false → laneHeld s n = true →
    Refused s p a 0x01 (exec (.laneConfigWrite p n reg w) s)) ∧
  (∀ (s : State) (p : Path) (n : Fin 8) (reg : Fin 4) (w : Word), let a := laneConfigReg n reg
    accepts s p a w = true →
    let dark := reg = 3 ∧ bitOf w.toNat 0 = true ∧ domOn s 58 = false
    let en := if reg = 0 then bitOf w.toNat 0 else s.flag (R.LANE_CFG n) F.LANE_CFG_EN
    (dark → Refused s p a 0x03 (exec (.laneConfigWrite p n reg w) s)) ∧
    (¬ dark → ∃ t, exec (.laneConfigWrite p n reg w) s = .next (written t p a) ∧ t.reg a = w ∧ (laneOf t n).su = none ∧
      (en = true → TrainingBegun t n) ∧
      (en = false → laneSt t n = 0 ∧ laneRate t n = 0 ∧ t.flag (R.LANE_STAT n) F.LANE_STAT_PRESENT = false ∧ laneOf t n = noLane) ∧
      (laneUp s n = true → LinkDropped t n ∧ StreamsClosed s t n) ∧
      LaneOnly (enterSlot s p) t n (fun b => b = a ∨ laneTrainRegs n b))) ∧
  (∀ (s : State) (n : Fin 8), laneLive s n = true → laneSt s n = 1 →
    ∃ t, exec (.laneSynthTimeout n) s = .next t ∧ t.getF (R.LANE_STAT n) F.LANE_STAT_CAUSE = 1 ∧ laneSt t n = 1 ∧
      laneRate t n = laneRate s n ∧ regsKept (· = R.LANE_STAT n) s t ∧ t = { s with regs := t.regs }) ∧
  (∀ (s : State) (n : Fin 8), laneLive s n = true → laneSt s n = 1 → laneRate s n ≠ 0 →
    ∃ t, exec (.laneHuntTimeout n) s = .next t ∧ Hunting t n 0 ∧
      (laneOf t n).struck = Nat.lor (laneOf s n).struck (2 ^ laneRate s n) ∧ (laneOf t n).su = (laneOf s n).su ∧
      LaneOnly s t n (fun b => b = R.LANE_STAT n ∨ b = R.LANE_TAPS n)) ∧
  (∀ (s : State) (n : Fin 8), laneLive s n = true → laneSt s n = 3 →
    ∃ t, exec (.laneRateChange n) s = .next t ∧ Hunting t n ((laneOf s n).target % 8) ∧ (laneOf t n).struck = (laneOf s n).struck ∧
      LaneOnly s t n (fun b => b = R.LANE_STAT n ∨ b = R.LANE_TAPS n)) ∧
  (∀ (s : State) (n : Fin 8), laneLive s n = true → laneSt s n = 4 → (laneOf s n).eq.req ≠ 0 →
    let l := laneOf s n
    ∃ t, exec (.eqRequestLimit n) s = .next t ∧ t.flag (R.LANE_STAT n) F.LANE_STAT_DEGRADED = true ∧
      (t.reg (R.PAGE_IRQ_RAW (0x080 + n))).getLsbD 2 = true ∧ t.getF (R.LANE_EYE n) F.LANE_EYE_REQS = 65536 ∧
      t.reg (R.LANE_TAPS n) = s.reg (R.LANE_TAPS n) ∧
      (bitOf l.pflags 1 = true → laneSt t n = 5 ∧ laneOf t n = { l with eqDone := true, eq := noEq, run := 0, sent := 0 }) ∧
      (bitOf l.pflags 1 = false → laneSt t n = 4 ∧ laneOf t n = { l with eqDone := true, eq := noEq }) ∧ LaneOnly s t n (laneTrainRegs n)) ∧
  (∀ (s : State) (n : Fin 8), laneLive s n = true → laneUp s n = true →
    ∃ t, exec (.laneCvRetrain n) s = .next t ∧ LeftUp s t n (· = R.LANE_CV_CNT n) ∧
      t.getF (R.LANE_CV_CNT n) F.LANE_CV_CNT_N = satAdd 32 (s.getF (R.LANE_CV_CNT n) F.LANE_CV_CNT_N) 16) ∧
  (∀ (s : State) (p : Path) (n : Fin 8) (w : Word), let a := R.LANE_SCAN_CTRL n
    accepts s p a (withField w F.LANE_SCAN_CTRL_GO 1) = true →
    (laneUp s n = false ∨ (laneOf s n).scan ≠ none → Refused s p a 0x02 (exec (.eyeScanStart p n w) s)) ∧
    (laneUp s n = true → (laneOf s n).scan = none → ∃ t, exec (.eyeScanStart p n w) s = .next (written t p a) ∧
      laneOf t n = { laneOf s n with scan := some ⟨(BitVec.ofNat 6 (bitsOf w.toNat 8 6)).toInt,
        (BitVec.ofNat 8 (bitsOf w.toNat 16 8)).toInt, bitsOf w.toNat 24 4⟩ } ∧ t.regs = s.regs ∧
      LaneOnly (enterSlot s p) t n (fun _ => False))) ∧
  (∀ (s : State) (n : Fin 8) (errs : Word) (c : Scan), laneLive s n = true → laneUp s n = true → (laneOf s n).scan = some c →
    (2 ^ (16 + c.dwell) < errs.toNat → exec (.eyeScanDone n errs) s = .next s) ∧
    (errs.toNat ≤ 2 ^ (16 + c.dwell) →
    ∃ t, exec (.eyeScanDone n errs) s = .next t ∧ t.reg (R.LANE_SCAN_ERR n) = errs ∧ (t.reg (R.PAGE_IRQ_RAW (0x080 + n))).getLsbD 3 = true ∧
      laneOf t n = { laneOf s n with scan := none } ∧
      LaneOnly s t n (fun b => b = R.LANE_SCAN_ERR n ∨ b = R.PAGE_IRQ_RAW (0x080 + n))))

/-- What an accepted set says of the partner is noted (Table 15.2, R458): `l` is the lane otherwise. -/
def PartnerNoted (t : State) (n : Nat) (v : Vector Byte 15) : Prop :=
  t.getF (R.LANE_STAT n) F.LANE_STAT_PTYPE = sym v 2 ∧ t.getF (R.LANE_STAT n) F.LANE_STAT_PNODE = sym v 14 ∧
  (laneOf t n).pmask = sym v 3 ∧ (laneOf t n).pflags = sym v 5

/-- R447 to R450, R452, R454, R460, R471, Tables 15.2 and 15.3: what a training ordered set does in each state of the lane. `sent` is how
many sets the device has sent since the last command of the lane, `metric` the eye metric measured (R453). That the search steps up
first, and what step code 3 does, is the model's choice (log entry 72). -/
def Obligations.TrainingSets : Prop :=
  ∀ (s : State) (n : Fin 8) (v : Vector Byte 15) (bad : Bool) (metric : Fin 128) (sent : Nat), let l := laneOf s n
    let o := exec (.trainingSetReceived n v bad metric sent) s
    laneLive s n = true → s.getF (R.LANE_STAT n) F.LANE_STAT_CAUSE ≠ 1 →
    (laneSt s n = 1 ∨ laneSt s n = 2 → bad = true ∨ setAccepted v = false →
      ∃ t, o = .next t ∧ laneOf t n = { l with run := 0 } ∧ t.regs = s.regs ∧ LaneOnly s t n (fun _ => False)) ∧
    (bad = false → setAccepted v = true →
      (laneSt s n = 1 → ∃ t, o = .next t ∧ PartnerNoted t n v ∧ LaneOnly s t n (· = R.LANE_STAT n) ∧
        (l.run < 2 → laneSt t n = 1 ∧ (laneOf t n).run = l.run + 1) ∧
        (2 ≤ l.run → laneSt t n = 2 ∧ t.flag (R.LANE_STAT n) F.LANE_STAT_PRESENT = true ∧ (laneOf t n).run = 0)) ∧
      (laneSt s n = 2 → ∃ t, o = .next t ∧ PartnerNoted t n v ∧ LaneOnly s t n (laneTrainRegs n) ∧ laneRate t n = laneRate s n ∧
        let common := fun r => bitOf (laneMask s n) r = true ∧ bitOf l.struck r = false ∧ bitOf (sym v 3) r = true
        (bitOf (sym v 5) 0 = false → laneSt t n = 2 ∧ (laneOf t n).run = 0) ∧
        (bitOf (sym v 5) 0 = true → l.run < 7 → laneSt t n = 2 ∧ (laneOf t n).run = l.run + 1) ∧
        (bitOf (sym v 5) 0 = true → 7 ≤ l.run → ∀ r < 8, common r → (∀ q < 8, common q → q ≤ r) →
          (laneRate s n < r → laneSt t n = 3 ∧ (laneOf t n).target = r) ∧
          (r ≤ laneRate s n → laneSt t n = 4 ∧
            (laneRxEq s n = true → (laneOf t n).eqDone = false ∧ (laneOf t n).eq.req = 1 ∧ (laneOf t n).reqSeq = (l.reqSeq + 1) % 256) ∧
            (laneRxEq s n = false → (laneOf t n).eqDone = true ∧ (laneOf t n).eq = noEq)))) ∧
      (2 ≤ laneSt s n → laneSt s n ≤ 5 → bitOf (sym v 6) 7 = true → (∀ r, l.ans ≠ some (sym v 7, r)) →
        let pre := s.getF (R.LANE_TAPS n) F.LANE_TAPS_PRE
        let main := s.getF (R.LANE_TAPS n) F.LANE_TAPS_MAIN
        let post := s.getF (R.LANE_TAPS n) F.LANE_TAPS_POST
        let a := tapStep 0 15 pre (bitsOf (sym v 6) 0 2)
        let b := tapStep 16 63 main (bitsOf (sym v 6) 2 2)
        let c := tapStep 0 31 post (bitsOf (sym v 6) 4 2)
        ∃ t, o = .next t ∧
          (bitOf (sym v 6) 6 = true → t.reg (R.LANE_TAPS n) = lanePreset s n ∧ (laneOf t n).ans = some (sym v 7, 0)) ∧
          (bitOf (sym v 6) 6 = false → a.1 + c.1 + 16 ≤ b.1 → t.getF (R.LANE_TAPS n) F.LANE_TAPS_PRE = a.1 ∧
            t.getF (R.LANE_TAPS n) F.LANE_TAPS_MAIN = b.1 ∧ t.getF (R.LANE_TAPS n) F.LANE_TAPS_POST = c.1 ∧
            (laneOf t n).ans = some (sym v 7, a.2 + 4 * b.2 + 16 * c.2)) ∧
          (bitOf (sym v 6) 6 = false → b.1 < a.1 + c.1 + 16 → t.reg (R.LANE_TAPS n) = s.reg (R.LANE_TAPS n) ∧
            (laneOf t n).ans = some (sym v 7, 63))) ∧
      (laneSt s n = 4 → l.eqDone = true → l.eq.req = 0 → ∃ t, o = .next t ∧ PartnerNoted t n v ∧
        LaneOnly s t n (laneTrainRegs n) ∧ laneSt t n = (if bitOf (sym v 5) 1 = true then 5 else 4)) ∧
      (laneSt s n = 4 → l.eqDone = false → l.eq.req ≠ 0 → bitOf (sym v 8) 7 = true → sym v 9 = l.reqSeq → bitOf (sym v 5) 1 = false →
        s.getF (R.LANE_EYE n) F.LANE_EYE_REQS + sent < 65536 →
        let status := trspOf (sym v 8) l.eq.tap
        ∃ t, o = .next t ∧ PartnerNoted t n v ∧ laneSt t n = 4 ∧ LaneOnly s t n (laneTrainRegs n) ∧
          t.getF (R.LANE_EYE n) F.LANE_EYE_METRIC = metric ∧ t.getF (R.LANE_EYE n) F.LANE_EYE_REQS = s.getF (R.LANE_EYE n) F.LANE_EYE_REQS + sent ∧
          (laneEqTarget s n ≤ metric → (laneOf t n).eqDone = true ∧ (laneOf t n).eq = noEq) ∧
          (metric.val < laneEqTarget s n → l.eq.req = 1 → (laneOf t n).eq = ⟨2, 0, 1, false, metric, 0, false⟩ ∧
            (laneOf t n).reqSeq = (l.reqSeq + 1) % 256) ∧
          (metric.val < laneEqTarget s n → l.eq.req = 2 → status = 0 → l.eq.m < metric →
            (laneOf t n).eq = { l.eq with rose := true, m := metric, net := l.eq.net + dirStep l.eq.dir }) ∧
          (metric.val < laneEqTarget s n → l.eq.req = 2 → status = 0 → metric.val < l.eq.m →
            (laneOf t n).eq = { l.eq with req := 3, net := l.eq.net + dirStep l.eq.dir })) ∧
      (laneSt s n = 5 → let k := if sym v 1 = 0xB5 then l.run + 1 else l.run
        ∃ t, o = .next t ∧ PartnerNoted t n v ∧ LaneOnly s t n (laneTrainRegs n) ∧
          (k < 8 ∨ l.sent + sent < 16 → laneSt t n = 5 ∧ (laneOf t n).run = k ∧ (laneOf t n).sent = l.sent + sent) ∧
          (8 ≤ k → 16 ≤ l.sent + sent → laneSt t n = 6 ∧ (t.reg (R.PAGE_IRQ_RAW (0x080 + n))).getLsbD 0 = true ∧
            (laneOf t n).rxSeq = 0 ∧ (laneOf t n).replays = 0 ∧
            (laneEnc s n = false ∨ bitOf (sym v 5) 2 = false ∨ engines s = false → (laneOf t n).txSeq = 0 ∧ (laneOf t n).replay = []) ∧
            (laneEnc s n = true → bitOf (sym v 5) 2 = true → engines s = true → l.keyx = none → ∃ own, (laneOf t n).keyx = some own ∧ (laneOf t n).txSeq = 1 ∧
              (laneOf t n).replay = [sealPkt 0 none (mkPkt 0x30 0 0 0 0 0 0 (wordsLE own.1))]))) ∧
      (laneSt s n = 6 → ∃ t, o = .next t ∧ (sym v 1 = 0x4A → LeftUp s t n (fun _ => False)) ∧
        (sym v 1 = 0xB5 → PartnerNoted t n v ∧ laneSt t n = 6 ∧ LaneOnly s t n (· = R.LANE_STAT n))))

/-- Packet `p` is handed to lane `m`: numbered, sealed and kept for replay at once (R460, R470), or waiting; no other lane sends. -/
def Sends (s t : State) (m : Nat) (p : Pkt) : Prop :=
  let l := laneOf s m
  (canSend s m = true → l.out = [] → (laneOf t m).replay = l.replay ++ [sealPkt l.txSeq (if laneEnc s m then l.sess else none) p] ∧
    (laneOf t m).txSeq = (l.txSeq + 1) % 4096 ∧ (laneOf t m).out = []) ∧
  (canSend s m = false → (laneOf t m).replay = l.replay ∧ (laneOf t m).txSeq = l.txSeq ∧ (laneOf t m).out = l.out ++ [p]) ∧
  ∀ j, j ≠ m → (laneOf t j).replay = (laneOf s j).replay ∧ (laneOf t j).out = (laneOf s j).out

/-- No lane sends anything. -/
def NoneSent (s t : State) : Prop := ∀ j, (laneOf t j).replay = (laneOf s j).replay ∧ (laneOf t j).out = (laneOf s j).out

/-- A completion (Table 15.6) goes toward node `dst`: on the lane of its route entry, or without one on the lane of the request (log entry
71); where that lane is not in UP it is discarded (R463). -/
def CplSent (s t : State) (lane dst tag addr status kind word : Nat) (d : List Nat) : Prop :=
  let m := (routeOf s dst).getD lane
  (laneUp s m = true → Sends s t m (mkPkt 0x03 dst (nodeId s) tag 15 addr (status + 16 * kind + 256 * word) d)) ∧
  (laneUp s m = false → NoneSent s t)

/-- The packet with the expected LSEQ is delivered on lane `n` (R461): ACK at the latest after every 16. -/
def PacketDelivered (s t : State) (n : Nat) : Prop :=
  let l := laneOf s n
  (laneOf t n).rxSeq = (l.rxSeq + 1) % 4096 ∧
  (16 ≤ l.ackDue + 1 → (laneOf t n).link = some (0x20, l.rxSeq % 4096) ∧ (laneOf t n).ackDue = 0) ∧
  (l.ackDue + 1 < 16 → (laneOf t n).link = l.link ∧ (laneOf t n).ackDue = l.ackDue + 1)

/-- The packet is discarded, counted, and answered with a NAK that names the LSEQ expected (R461). -/
def NakSent (s t : State) (n : Nat) : Prop :=
  laneOf t n = { laneOf s n with link := some (0x21, (laneOf s n).rxSeq) } ∧
  t.getF (R.LANE_CRC_CNT n) F.LANE_CRC_CNT_N = satAdd 32 (s.getF (R.LANE_CRC_CNT n) F.LANE_CRC_CNT_N) 1 ∧
  (∀ m, m ≠ n → laneOf t m = laneOf s m) ∧ regsKept (· = R.LANE_CRC_CNT n) s t ∧
  t = { s with regs := t.regs, dl := { s.dl with lane := t.dl.lane } }

/-- Command `c` is the arrival of the AUTH packet `k` on lane `n`; an undefined OP comes as AUTH_PASSWORD (R549). -/
def AuthArrival (c : Instr) (n : Fin 8) (k : Packet) : Prop :=
  let op := authOp k.w3.toNat
  pkTy k = 0x40 ∧ ((c = .authPassword (some (n, k)) ∧ op ≠ 2 ∧ op ≠ 3 ∧ op ≠ 4) ∨ (c = .authChallenge (some (n, k)) ∧ op = 2) ∨
    (c = .authResponse (some (n, k)) ∧ op = 3) ∨ (c = .authLock (some (n, k)) ∧ op = 4))

/-- Command `c` is the arrival of the routed packet `k` on lane `n`. -/
def RoutedArrival (c : Instr) (n : Fin 8) (k : Packet) : Prop :=
  (c = .draughtRd n k ∧ pkTy k = 0x01) ∨ (c = .draughtWr n k ∧ pkTy k = 0x02) ∨ (c = .draughtCpl n k ∧ pkTy k = 0x03) ∨
  (c = .draughtStream n k ∧ pkTy k = 0x10) ∨ (c = .draughtCredit n k ∧ pkTy k = 0x11) ∨
  (c = .draughtUndefinedType n k ∧ typeDefined (pkTy k) = false) ∨ AuthArrival c n k

/-- The payload that the packet carries in plain text: encryption as the lane has it, and a tag that matches (R470). -/
def Opens (s : State) (n : Nat) (k : Packet) (pay : List Nat) : Prop :=
  (laneEnc s n = false ∧ pkEnc k = false ∧ pay = k.pay.map BitVec.toNat) ∨
  (laneEnc s n = true ∧ pkEnc k = true ∧ ∃ e, (laneOf s n).sess = some e ∧ openPkt e (pkPkt k) = some pay)

/-- A packet that is no request for the device's answer is counted and recorded (R466). -/
def BadTypeCounted (s t : State) (n : Nat) (k : Packet) : Prop :=
  t.getF R.DLNK_BADTYPE_CNT F.DLNK_BADTYPE_CNT_N = satAdd 32 (s.getF R.DLNK_BADTYPE_CNT F.DLNK_BADTYPE_CNT_N) 1 ∧
  t.reg R.DLNK_BADTYPE_LAST = BitVec.ofNat 32 (pkTy k + 256 * pkSrc k + 65536 * n) ∧ (t.reg (R.PAGE_IRQ_RAW 0x088)).getLsbD 0 = true ∧
  regsKept (fun b => b = R.DLNK_BADTYPE_CNT ∨ b = R.DLNK_BADTYPE_LAST ∨ b = R.PAGE_IRQ_RAW 0x088) s t

/-- R460, R461, R463, R464, R466 to R470, R473, R549, Tables 15.4 to 15.6. Which LSEQ counts as a duplicate is the
model's reading (log entry 73), and so is that credit beyond the field is lost (log entry 74). While the CRYPTO domain is under test an encrypted packet waits (R515). -/
def Obligations.DraughtReceives : Prop :=
  (∀ (s : State) (c : Instr) (n : Fin 8) (k : Packet), RoutedArrival c n k → arrives s n k = true →
    (engines s = false → pkEnc k = true → exec c s = .next s)) ∧
  (∀ (s : State) (c : Instr) (n : Fin 8) (k : Packet), RoutedArrival c n k → arrives s n k = true → engines s = true ∨ pkEnc k = false →
    let l := laneOf s n
    (pkSeq k ≠ l.rxSeq → duplicate s n (pkSeq k) = true → exec c s = .next s) ∧
    (pkSeq k ≠ l.rxSeq → duplicate s n (pkSeq k) = false → ∃ t, exec c s = .next t ∧ NakSent s t n) ∧
    (pkSeq k = l.rxSeq → pkEnc k ≠ laneEnc s n → ∃ t, exec c s = .next t ∧ PacketDelivered s t n ∧ NoneSent s t ∧
      t.getF (R.LANE_PLAIN_CNT n) F.LANE_PLAIN_CNT_N = satAdd 32 (s.getF (R.LANE_PLAIN_CNT n) F.LANE_PLAIN_CNT_N) 1 ∧
      (∀ m, m ≠ n.val → laneOf t m = laneOf s m) ∧ regsKept (· = R.LANE_PLAIN_CNT n) s t ∧
      t = { s with regs := t.regs, dl := { s.dl with lane := t.dl.lane } }) ∧
    (pkSeq k = l.rxSeq → pkEnc k = true → laneEnc s n = true → ∀ e, l.sess = some e → openPkt e (pkPkt k) = none →
      s.phase = .kiln ∨ s.phase = .run → ∃ t, exec c s = .next t ∧
        HaltEntered s t 2 (n.val + 2 ^ 16 * pkSeq k) (pkTy k + 256 * pkSrc k) ∧ t.dl.rq = s.dl.rq ∧ NoneSent s t)) ∧
  (∀ (s : State) (c : Instr) (n : Fin 8) (k : Packet) (pay : List Nat), RoutedArrival c n k → arrives s n k = true → engines s = true ∨ pkEnc k = false →
    pkSeq k = (laneOf s n).rxSeq → Opens s n k pay → addressed s (pkDst k) = false →
    let hops := bitsOf k.w1.toNat 24 4
    let ok := fun m => routeOf s (pkDst k) = some m ∧ 0 < hops ∧ laneUp s m = true
    ∃ t, exec c s = .next t ∧ PacketDelivered s t n ∧ t = { s with regs := t.regs, dl := { s.dl with lane := t.dl.lane } } ∧
      (∀ m, ok m → t.regs = s.regs ∧
        Sends s t m ⟨[k.w0.toNat, withBits k.w1.toNat 24 4 (hops - 1), k.w2.toNat, k.w3.toNat], pay, []⟩) ∧
      ((∀ m, ¬ ok m) → t.getF R.DLNK_UNREACH_CNT F.DLNK_UNREACH_CNT_N = satAdd 32 (s.getF R.DLNK_UNREACH_CNT F.DLNK_UNREACH_CNT_N) 1 ∧
        (t.reg (R.PAGE_IRQ_RAW 0x088)).getLsbD 1 = true ∧
        regsKept (fun b => b = R.DLNK_UNREACH_CNT ∨ b = R.PAGE_IRQ_RAW 0x088) s t ∧
        (pkTy k = 0x01 ∨ pkTy k = 0x02 → CplSent s t n (pkSrc k) (pkDtag k) (pkAddr k) 5 0 0 []) ∧
        (pkTy k ≠ 0x01 → pkTy k ≠ 0x02 → NoneSent s t))) ∧
  (∀ (s : State) (n : Fin 8) (k : Packet) (pay : List Nat), arrives s n k = true → engines s = true ∨ pkEnc k = false → pkSeq k = (laneOf s n).rxSeq → Opens s n k pay →
    addressed s (pkDst k) = true →
    (∀ (c : Instr) (bad : Bool), (c = .draughtRd n k ∧ pkTy k = 0x01 ∧ bad = rdMalformed k) ∨
        (c = .draughtWr n k ∧ pkTy k = 0x02 ∧ bad = wrMalformed k) ∨ (AuthArrival c n k ∧ bad = authMalformed k) →
      ∃ t, exec c s = .next t ∧ PacketDelivered s t n ∧ t.regs = s.regs ∧
        (bad = true → t.dl.rq = s.dl.rq ∧ CplSent s t n (pkSrc k) (pkDtag k) (pkAddr k) 6 0 0 []) ∧
        (bad = false → 16 ≤ s.dl.rq.length → t.dl.rq = s.dl.rq ∧ CplSent s t n (pkSrc k) (pkDtag k) (pkAddr k) 7 0 0 []) ∧
        (bad = false → s.dl.rq.length < 16 → NoneSent s t ∧
          t.dl.rq = s.dl.rq ++ [⟨n, pkTy k, pkSrc k, pkDtag k, pkAddr k, k.w3.toNat, pay⟩]) ∧
        t = { s with dl := { s.dl with lane := t.dl.lane, rq := t.dl.rq } }) ∧
    (∀ c : Instr, (c = .draughtCpl n k ∧ pkTy k = 0x03) ∨ (c = .draughtStream n k ∧ pkTy k = 0x10) →
      ∃ t, exec c s = .next t ∧ PacketDelivered s t n ∧ BadTypeCounted s t n k ∧ NoneSent s t ∧
        t = { s with regs := t.regs, dl := { s.dl with lane := t.dl.lane } }) ∧
    (typeDefined (pkTy k) = false → ∃ t, exec (.draughtUndefinedType n k) s = .next t ∧ PacketDelivered s t n ∧ BadTypeCounted s t n k ∧
      CplSent s t n (pkSrc k) (pkDtag k) (pkAddr k) 4 0 0 [] ∧ t = { s with regs := t.regs, dl := { s.dl with lane := t.dl.lane } }) ∧
    (pkTy k = 0x11 → (strmOf s (pkAddr k % 16)).closed = false → let i := pkAddr k % 16
      let granted := strOpen s i = true ∧ s.getF (R.DLNK_STR_CFG i) F.DLNK_STR_CFG_DST = pkSrc k
      ∃ t, exec (.draughtCredit n k) s = .next t ∧ PacketDelivered s t n ∧ NoneSent s t ∧
        (granted → strCredit t i = satAdd F.DLNK_STR_STAT_CREDIT.w (strCredit s i) k.w3.toNat ∧ regsKept (· = R.DLNK_STR_STAT i) s t) ∧
        (¬ granted → t.regs = s.regs) ∧ t = { s with regs := t.regs, dl := { s.dl with lane := t.dl.lane } })) ∧
  (∀ (s : State) (n : Fin 8), laneLive s n = true → laneUp s n = true → ∃ t, exec (.draughtBadCrc n) s = .next t ∧ NakSent s t n)

/-- No packet of a stream waits for credit. -/
def noneClosed (s : State) : Prop := ∀ k < 16, (strmOf s k).closed = false

/-- STATUS and KIND of a completion for the class of the failing word, or OK (Table 15.6). -/
def StatusOf (r : Resp) (st kd : Nat) : Prop :=
  (r = .ok → st = 0 ∧ kd = 0) ∧ (∀ v, r = .violation v → st = 1 ∧ kd = v.code) ∧ (r = .refused → st = 2 ∧ kd = 0) ∧
  (r = .wedged → st = 3 ∧ kd = 0)

/-- R460 to R465, R469, R471, R472. The model's readings: what is replayed for a NAK of a packet not kept, and that the ninth cause
leaves UP (log entry 33); the session of a KEYX whose point is off the curve or whose slot is empty (log entry 75), and the byte
order of its IV (log entry 70). -/
def Obligations.DraughtLink : Prop :=
  (∀ (s : State) (n : Fin 8) (k : Packet), arrives s n k = true → pkTy k = 0x20 → let l := laneOf s n
    let q := k.w3.toNat % 4096
    ((∀ p ∈ l.replay, pktSeq p ≠ q) → exec (.draughtAck n k) s = .next s) ∧
    (∀ xs p ys, l.replay = xs ++ p :: ys → pktSeq p = q → (∀ x ∈ xs, pktSeq x ≠ q) → l.out = [] → noneClosed s →
      ∃ t, exec (.draughtAck n k) s = .next t ∧ laneOf t n = { l with replay := ys, replays := 0 } ∧
        (∀ m, m ≠ n.val → laneOf t m = laneOf s m) ∧ t = { s with dl := { s.dl with lane := t.dl.lane } })) ∧
  (∀ (s : State) (c : Instr) (n : Fin 8) (q : Option Nat), laneLive s n = true → laneUp s n = true → let l := laneOf s n
    (c = .replayTimeout n ∧ l.replay ≠ [] ∧ q = none) ∨
      (∃ k, c = .draughtNak n k ∧ pkTy k = 0x21 ∧ pkFramed k = true ∧ q = some (k.w3.toNat % 4096)) →
    ∃ t, exec c s = .next t ∧
      (8 ≤ l.replays → LeftUp s t n (fun _ => False) ∧ t.reg (R.LANE_REPLAY_CNT n) = s.reg (R.LANE_REPLAY_CNT n)) ∧
      (l.replays < 8 → t.getF (R.LANE_REPLAY_CNT n) F.LANE_REPLAY_CNT_N = satAdd 32 (s.getF (R.LANE_REPLAY_CNT n) F.LANE_REPLAY_CNT_N) 1 ∧
        laneOf t n = { l with replays := l.replays + 1, resent := (laneOf t n).resent } ∧
        (q = none ∨ (∃ i, q = some i ∧ ∀ x ∈ l.replay, pktSeq x ≠ i) → (laneOf t n).resent = l.replay) ∧
        (∀ i xs x ys, q = some i → l.replay = xs ++ x :: ys → pktSeq x = i → (∀ y ∈ xs, pktSeq y ≠ i) → (laneOf t n).resent = x :: ys) ∧
        (∀ m, m ≠ n.val → laneOf t m = laneOf s m) ∧ regsKept (· = R.LANE_REPLAY_CNT n) s t ∧
        t = { s with regs := t.regs, dl := { s.dl with lane := t.dl.lane } })) ∧
  (∀ (s : State) (n : Fin 8), laneLive s n = true → laneUp s n = true → 0 < (laneOf s n).ackDue → let l := laneOf s n
    ∃ t, exec (.ackTimer n) s = .next t ∧ laneOf t n = { l with link := some (0x20, (l.rxSeq + 4095) % 4096), ackDue := 0 } ∧
      (∀ m, m ≠ n.val → laneOf t m = laneOf s m) ∧ t = { s with dl := { s.dl with lane := t.dl.lane } }) ∧
  (∀ (s : State) (n : Fin 8) (k : Packet), arrives s n k = true → pkTy k = 0x30 → engines s = true → let l := laneOf s n
    let theirs := bytesLE (k.pay.map BitVec.toNat)
    let a := R.LANE_STAT n
    (pkSeq k ≠ l.rxSeq → duplicate s n (pkSeq k) = true → exec (.draughtKeyx n k) s = .next s) ∧
    (pkSeq k ≠ l.rxSeq → duplicate s n (pkSeq k) = false → ∃ t, exec (.draughtKeyx n k) s = .next t ∧ NakSent s t n) ∧
    (pkSeq k = l.rxSeq → ∀ mine priv, l.keyx = some (mine, priv) → ∃ t, exec (.draughtKeyx n k) s = .next t ∧ PacketDelivered s t n ∧
      (theirs.length ≠ mine.length → t.getF a F.LANE_STAT_CAUSE = 2 ∧ (laneOf t n).sess = l.sess ∧ regsKept (· = a) s t) ∧
      (theirs.length = mine.length → l.sess.isSome = true → t.regs = s.regs ∧ (laneOf t n).sess = l.sess) ∧
      (theirs.length = mine.length → l.sess = none → l.out = [] → noneClosed s →
        let lo := if beNat mine ≤ beNat theirs then mine else theirs
        let hi := if beNat mine ≤ beNat theirs then theirs else mine
        let field := if beNat mine ≤ beNat theirs then 0 else 1
        let bytes := if s.flag (R.LANE_ENC n) F.LANE_ENC_KSIZE then 32 else 16
        t.flag a F.LANE_STAT_ENC_UP = true ∧ (t.reg (R.PAGE_IRQ_RAW (0x080 + n))).getLsbD 4 = true ∧
        regsKept (fun b => b = a ∨ b = R.PAGE_IRQ_RAW (0x080 + n)) s t ∧
        (∃ key, (laneOf t n).sess = some ⟨key, field, 0, 0⟩) ∧
        (s.flag (R.LANE_ENC n) F.LANE_ENC_MODE = true → ∀ ks, slotKeys s (s.getF (R.LANE_ENC n) F.LANE_ENC_SLOT) = some ks →
          (laneOf t n).sess = some ⟨(hmacSha256 (sized s ks).k1 ([0x44#8, 0x52#8, 0x47#8, 0x54#8] ++ lo ++ hi)).take bytes, field, 0, 0⟩) ∧
        (s.flag (R.LANE_ENC n) F.LANE_ENC_MODE = false → p256onCurve (beNat (theirs.take 32), beNat (theirs.drop 32)) = true →
          (laneOf t n).sess = some ⟨(hmacSha256 (p256shared priv theirs) ([0x44#8, 0x52#8, 0x47#8, 0x54#8] ++ lo ++ hi)).take bytes,
            field, 0, 0⟩))) ∧
    (pkSeq k = l.rxSeq → l.keyx = none → ∃ t, exec (.draughtKeyx n k) s = .next t ∧ PacketDelivered s t n ∧ t.regs = s.regs)) ∧
  (∀ (s : State) (k : Fin 16), live s = true → strOpen s k = true → (strmOf s k).buf ≠ [] → (strmOf s k).closed = false →
    let b := (strmOf s k).buf
    let n := strLane s k
    let go := b.length ≤ strCredit s k ∧ canSend s n = true ∧ (laneOf s n).out = []
    ∃ t, exec (.streamPacketClose k) s = .next t ∧ (∀ j, j ≠ k.val → strmOf t j = strmOf s j) ∧ regsKept (· = R.DLNK_STR_STAT k) s t ∧
      (go → strmOf t k = noStrm ∧ strCredit t k = strCredit s k - b.length ∧
        Sends s t n (mkPkt 0x10 (s.getF (R.DLNK_STR_CFG k) F.DLNK_STR_CFG_DST) (nodeId s) 0 15 k 0 (wordsLE b))) ∧
      (¬ go → strmOf t k = ⟨b, true⟩ ∧ t.regs = s.regs ∧ NoneSent s t) ∧
      t = { s with regs := t.regs, dl := { s.dl with lane := t.dl.lane, str := t.dl.str } }) ∧
  (∀ (s : State) (q : DrReq) (rest : List DrReq) (ans : List UwAns), live s = true → s.dl.rq = q :: rest →
    let s0 : State := { s with dl := { s.dl with rq := rest } }
    let n := q.arg % 32 + 1
    (q.ty = 0x01 → readEnds s0 .dlnk q.addr n ans = true → ∃ t u ds i r st kd, exec (.draughtRequestPerform ans) s = .next t ∧
      readBurst .dlnk n 0 q.addr ans s0 [] = (u, ds, i, r) ∧ StatusOf r st kd ∧ respOf t .dlnk = r ∧ lastData t .dlnk = padWords n ds ∧
      CplSent u t q.lane q.src q.tag q.addr st kd i ((padWords n ds).map BitVec.toNat) ∧ (r = .ok → i = 0 ∧ ds.length = n) ∧
      (r ≠ .ok → i < n ∧ ds.length = i) ∧ t.regs = u.regs ∧ t.dl.rq = u.dl.rq) ∧
    (q.ty = 0x01 → n = 1 → ∀ k i fs, acceptsRead s0 .dlnk q.addr = true → pageOf (q.addr / 0x1000) = some (k, i) →
      regFields q.addr = some fs → storedReg s0 .dlnk q.addr k i →
      let d := readsAs (s.reg q.addr) fs
      ∃ t, exec (.draughtRequestPerform ans) s = .next t ∧
        CplSent (respond (enterSlot s0 .dlnk) .dlnk .ok [d]) t q.lane q.src q.tag q.addr 0 0 0 [d.toNat]) ∧
    (q.ty = 0x01 → n = 1 → ∀ v, canIssue s0 .dlnk = true → violates (enterSlot s0 .dlnk) .dlnk q.addr none = some v →
      ∃ t u, exec (.draughtRequestPerform ans) s = .next t ∧ ViolationLogged (enterSlot s0 .dlnk) u .dlnk q.addr false v ∧
        CplSent (respond u .dlnk (.violation v) [0]) t q.lane q.src q.tag q.addr 1 v.code 0 [0]) ∧
    (q.ty = 0x02 → writeEnds s0 .dlnk q.addr (q.pay.map (BitVec.ofNat 32)) ans = true → ∃ t u i r st kd, exec (.draughtRequestPerform ans) s = .next t ∧
      writeBurst .dlnk 0 q.addr (q.pay.map (BitVec.ofNat 32)) ans s0 = (u, i, r) ∧ StatusOf r st kd ∧ respOf t .dlnk = r ∧
      CplSent u t q.lane q.src q.tag q.addr st kd i [] ∧ (r = .ok → i = 0) ∧ (r ≠ .ok → i < q.pay.length) ∧
      t.regs = u.regs ∧ t.dl.rq = u.dl.rq))

/-- A change of port `n` and of the registers `P` alone. -/
def UartOnly (s t : State) (n : Nat) (P : Nat → Prop) : Prop :=
  (∀ m, m ≠ n → uartOf t m = uartOf s m) ∧ regsKept P s t ∧
  t = { s with regs := t.regs, uart := { s.uart with port := t.uart.port } }

/-- The port raises bit `i` of its IRQ_RAW. -/
def uartRaised (t : State) (n i : Nat) : Prop := (t.reg (R.PAGE_IRQ_RAW (0x090 + n))).getLsbD i = true

/-- Entry `e` reaches the receive queue of port `n`, which is otherwise `u` (R505, Table 16.1): with OVR where one was lost, or lost itself. -/
def EntryPut (s t : State) (n e : Nat) (u : Uart) : Prop :=
  (64 ≤ u.q.length → uartOf t n = { u with ovr := true } ∧ uartRaised t n 2 ∧
    t.getF (R.UART_RX_LOST n) F.UART_RX_LOST_N = satAdd 32 (s.getF (R.UART_RX_LOST n) F.UART_RX_LOST_N) 1) ∧
  (u.q.length < 64 → uartOf t n = { u with q := u.q ++ [e + 2 ^ 31 + (if u.ovr then 2 ^ 13 else 0)], ovr := false } ∧
    t.reg (R.UART_RX_LOST n) = s.reg (R.UART_RX_LOST n) ∧ ((∃ i ∈ [9, 10, 11, 14, 22, 23, 24, 27], bitOf e i = true) → uartRaised t n 1) ∧
    (s.getF (R.UART_WM n) F.UART_WM_N ≤ u.q.length + 1 → uartRaised t n 0))

/-- The registers of port `n` that reception changes. -/
def uartRxRegs (n b : Nat) : Prop := b = R.UART_RX_LOST n ∨ b = R.PAGE_IRQ_RAW (0x090 + n)

/-- What UART1 to UART7 store of a character in character mode (R487, R488, R490, R507, Table 16.1). -/
def charEntry (s : State) (n : Nat) (r : URx) : Nat :=
  let bits := r.bits.map Prod.fst
  let w := uartDbits s n
  let par := uartParity s n
  let v := charData (uartInv s n) w bits
  let noise := if r.bits.any Prod.snd then 2 ^ 11 else 0
  let fe := if (bits.drop (1 + w + (if par = 0 then 0 else 1))).any (! ·) then 2 ^ 10 else 0
  let pe := if par ≠ 0 ∧ atD false bits (w + 1) ≠ lineBit (uartInv s n) w par v (w + 1) then 2 ^ 9 else 0
  if bits.all (! ·) then 2 ^ 12 + 2 ^ 10 + noise else v + noise + fe + pe

/-- A falling edge at cycle `c` starts a character (R483). -/
def startsAt (c : Nat) : Option URx := some ⟨c, 0, c, 1, none, [], []⟩

/-- The bits of the field being sent are read back as they were sent, as far as they are decided (R503). -/
def readsBack (s : State) (n : Nat) (bits : List Bool) : Prop := ∀ k < bits.length, atD false bits k = sentBit s n k

/-- Cycles from the start edge of a character to the earliest start of the next one (R482, R488, R489, R492): start, data and parity bits, 1, 1.5
or 2 stop bits and EGT bit periods; in SC mode 12 + EGT. -/
def charTime (s : State) (n : Nat) : Nat :=
  let egt := s.getF (R.UART_CFG n) F.UART_CFG_EGT
  (if uartMode s n = 1 then 2 * (12 + egt)
    else 2 * (1 + uartDbits s n + (if uartParity s n = 0 then 0 else 1) + egt) + (2 + s.getF (R.UART_CFG n) F.UART_CFG_STOP)) * uartN s n / 32

/-- The transmitter of port `n`, idle with the queue `q`, starts the next character (R482), in a port otherwise `u`: the head of the queue where
the port is enabled and not in frame mode, when the time of the character before it is over; the queue that it empties raises TXEMPTY (log
entry 80). -/
def NextSent (s t : State) (n : Nat) (u : Uart) (q : List Nat) : Prop :=
  let since := clkCount s n (uartOf s n).age - (uartOf s n).lead
  (uartEn s n = false ∨ uartMode s n = 2 ∨ q = [] → uartOf t n = { u with tx := none, txq := q }) ∧
  (uartEn s n = true → uartMode s n ≠ 2 → ∀ c r, q = c :: r →
    uartOf t n = { u with
      tx := some (c, 0), txq := r, age := clkFrom t n 0, lead := if (uartOf s n).prev then charTime s n - since else 0, prev := true } ∧
    (r = [] → uartRaised t n 3))

/-- R476, R477, R482 to R490, R492 to R495, R505 to R507, R509 to R511, Tables 16.1, 16.4 and 16.5. UART0 has no queue and no settings of its
own. The line of UART1 to UART7 is that of their nib, so that an event leaves it as it stands (R478). That UART0 hands the monitor every
character whose start bit is 0, a framing error or a break included, is the model's reading (log entry 34). -/
def Obligations.UartCharacters : Prop :=
  (∀ (s : State) (n : Fin 8) (cycle : Nat), uartLive s n = true → (uartOf s n).rx = none → (uartOf s n).low = false →
    (n.val ≠ 0 → lineHigh s n = false) →
    ∃ t, exec (.uartStartEdge n cycle) s = .next t ∧ uartOf t n = { uartOf s n with rx := startsAt cycle, low := n.val != 0 } ∧
      lineHigh t n = false ∧ UartOnly s t n (fun b => n.val = 0 ∧ b = R.UART_STAT n)) ∧
  (∀ (s : State) (n : Fin 8) (rise fall : Nat) (r : URx), uartLive s n = true → (uartOf s n).rx = some r → r.ref < rise → rise < fall →
    (n.val ≠ 0 → lineHigh s n = false) → uartMode s n ≠ 2 ∨ (uartOf s n).txf = [] →
    let period := uartN s n
    let near := fun i => fall ≤ r.ref + i * period / 16 + 3 * period / 128 ∧ r.ref + i * period / 16 ≤ fall + 3 * period / 128
    let r1 := rxUpTo period (uartBits s n) rise fall r
    let bits := r1.bits.map Prod.fst
    ∃ t, exec (.uartResyncEdge n rise fall) s = .next t ∧ lineHigh t n = false ∧
      (atD false bits 0 = true → uartOf t n = { uartOf s n with rx := startsAt fall, low := n.val != 0 } ∧
        UartOnly s t n (fun b => n.val = 0 ∧ b = R.UART_STAT n)) ∧
      (atD false bits 0 = false → bits.length < uartBits s n → UartOnly s t n (fun b => n.val = 0 ∧ b = R.UART_STAT n) ∧
        ∃ r', uartOf t n = { uartOf s n with rx := some r', low := n.val != 0 } ∧ r'.bits = r1.bits ∧
          r'.first = r.first ∧ r'.falls = r.falls + 1 ∧ r'.fifth = (if r.falls = 4 then some fall else r.fifth) ∧
          (∀ i < 16, near i → (∀ j < i, ¬ near j) → r'.ref = fall ∧ r'.b = r.b + i) ∧
          ((∀ i < 16, ¬ near i) → r'.ref = r.ref ∧ r'.b = r.b)) ∧
      (atD false bits 0 = false → uartBits s n ≤ bits.length → (uartOf t n).rx = startsAt fall ∧
        (n.val = 0 → t.mon.got = s.mon.got ++ [BitVec.ofNat 8 (charData false 8 bits)]) ∧
        (n.val ≠ 0 → uartMode s n = 0 → EntryPut s t n (charEntry s n r1) { uartOf s n with rx := startsAt fall, low := true } ∧
          UartOnly s t n (uartRxRegs n)))) ∧
  (∀ (s : State) (n : Fin 8) (rise : Option Nat) (r : URx), n.val ≠ 0 → uartLive s n = true → (uartOf s n).rx = some r → uartMode s n ≤ 1 →
    lineHigh s n = rise.isSome →
    let u : Uart := { uartOf s n with rx := none }
    let r1 := rxRest (uartN s n) (uartBits s n) rise r
    let bits := r1.bits.map Prod.fst
    let w := uartDbits s n
    let par := uartParity s n
    let pe := par ≠ 0 ∧ atD false bits (w + 1) ≠ lineBit (uartInv s n) w par (charData (uartInv s n) w bits) (w + 1)
    let sending := uartMode s n = 1 ∧ (uartOf s n).tx ≠ none
    let signalled := uartMode s n = 1 ∧ pe ∧ s.flag (R.UART_CFG n) F.UART_CFG_SIG = true ∧ ¬ bits.all (! ·) = true
    ∃ t, exec (.uartCharReceived n rise) s = .next t ∧
      (atD false bits 0 = true ∨ sending → uartOf t n = u ∧ UartOnly s t n (fun _ => False)) ∧
      (atD false bits 0 = false → ¬ sending → signalled →
        uartOf t n = { u with sig := some (clkFrom s n (bitCentre (uartN s n) r1 10 + 1 - r1.first)) } ∧
        t.getF (R.UART_ERR_CNT n) F.UART_ERR_CNT_N = satAdd 32 (s.getF (R.UART_ERR_CNT n) F.UART_ERR_CNT_N) 1 ∧
        UartOnly s t n (fun b => b = R.UART_ERR_CNT n)) ∧
      (atD false bits 0 = false → ¬ sending → ¬ signalled → EntryPut s t n (charEntry s n r1) u ∧ UartOnly s t n (uartRxRegs n))) ∧
  (∀ (s : State) (rise : Option Nat) (r : URx), uartLive s 0 = true → (uartOf s 0).rx = some r → uartMode s 0 ≠ 2 →
    let bits := (rxRest (uartN s 0) (uartBits s 0) rise r).bits.map Prod.fst
    ∃ t, exec (.uartCharReceived 0 rise) s = .next t ∧ (uartOf t 0).rx = none ∧ lineHigh t 0 = rise.isSome ∧
      t.mon = { s.mon with got := s.mon.got ++ (if atD false bits 0 then [] else [BitVec.ofNat 8 (charData false 8 bits)]) } ∧
      (∀ m, m ≠ 0 → uartOf t m = uartOf s m) ∧ regsKept (· = R.UART_STAT 0) s t ∧
      t = { s with regs := t.regs, uart := t.uart, mon := t.mon }) ∧
  (∀ (s : State) (p : Path) (n : Fin 8) (w : Word), let a := R.UART_TXQ n
    accepts s p a w = true → let u := uartOf s n
    let q := u.txq ++ [w.toNat % 512]
    (64 ≤ u.txq.length → Refused s p a 0x02 (exec (.uartTxqWrite p n w) s)) ∧
    (u.txq.length < 64 → ∃ t, exec (.uartTxqWrite p n w) s = .next (written t p a) ∧
      (u.tx ≠ none → uartOf t n = { u with txq := q }) ∧ (u.tx = none → NextSent s t n u q) ∧
      UartOnly (enterSlot s p) t n (· = R.PAGE_IRQ_RAW (0x090 + n)))) ∧
  (∀ (s : State) (n : Fin 8), n.val ≠ 0 → uartLive s n = true → let u := uartOf s n
    let since := clkCount s n u.age - u.lead
    (u.tx ≠ none → uartMode s n ≠ 2 → charTime s n ≤ since → ∃ t, exec (.uartCharSent n) s = .next t ∧ NextSent s t n u u.txq ∧
      UartOnly s t n (· = R.PAGE_IRQ_RAW (0x090 + n))) ∧
    (∀ f l, u.tx = none → uartMode s n = 2 → u.txf = f :: l → u.back = true →
      (if f = 1 then 14 + s.getF (R.UART_FCFG n) F.UART_FCFG_BRK + s.getF (R.UART_FCFG n) F.UART_FCFG_DELIM else 10) * 2 * uartN s n / 32 ≤ since →
      ∃ t, exec (.uartCharSent n) s = .next t ∧ (uartOf t n).txf = l ∧
      (uartOf t n).back = false ∧
      (l.head? = some 2 → (uartOf t n).txv = 0x55) ∧ (l.head? = some 3 → (uartOf t n).txv = u.pid) ∧
      (l.head? = some 5 → (uartOf t n).txv = u.cks) ∧
      (l.head? = some 4 → ∀ c r, u.txq = c :: r → (uartOf t n).txv = c % 256 ∧ (uartOf t n).txq = r ∧ (r = [] → uartRaised t n 3)) ∧
      (l.head? ≠ some 4 → (uartOf t n).txq = u.txq) ∧ UartOnly s t n (· = R.PAGE_IRQ_RAW (0x090 + n)))) ∧
  (∀ (s : State) (c : Byte) (rest : List Byte), uartLive s 0 = true → s.mon.out = c :: rest →
    20 * uartN s 0 / 32 ≤ clkCount s 0 (uartOf s 0).age - (uartOf s 0).lead →
    ∃ t, exec (.uartCharSent 0) s = .next t ∧ t.mon.out = rest ∧ t.mon.reply = s.mon.reply - 1 ∧
      uartOf t 0 = { uartOf s 0 with age := clkFrom s 0 0 } ∧ (∀ m, m ≠ 0 → uartOf t m = uartOf s m) ∧
      (s.mon.reply ≠ 1 ∨ s.mon.resetReq = true ∨ s.mon.store = [] → t.mon = { s.mon with out := rest, reply := s.mon.reply - 1 }) ∧
      (∀ k lost, s.mon.reply = 1 → s.mon.resetReq = false → s.mon.line = none → s.mon.store = [(k, lost)] → t.mon.store = [] ∧
        (k ≠ 0x0D → k ≠ 0x0A → t.mon.line = none ∧ t.mon.cr = false ∧
          (lost = false → s.mon.cur.length < 96 → t.mon.cur = s.mon.cur ++ [k] ∧ t.mon.bad = s.mon.bad) ∧
          (lost = true ∨ 96 ≤ s.mon.cur.length → t.mon.cur = s.mon.cur ∧ t.mon.bad = true)) ∧
        (k = 0x0A → s.mon.cr = true → t.mon.line = none ∧ t.mon.cur = s.mon.cur ∧ t.mon.bad = s.mon.bad) ∧
        (k = 0x0D ∨ (k = 0x0A ∧ s.mon.cr = false) → t.mon.cur = [] ∧ t.mon.bad = false ∧
          t.mon.line = (if (∀ x ∈ s.mon.cur, x = 0x20) ∧ s.mon.bad = false ∧ lost = false then none else some (s.mon.cur, s.mon.bad || lost)))) ∧
      (t.mon.line = none → rest = [] → (uartOf s 0).rx = none → t.uart.baud0 = s.getF (R.UART_BAUD 0) F.UART_BAUD_N) ∧
      (rest ≠ [] → t.uart.baud0 = s.uart.baud0) ∧ t = { s with mon := t.mon, uart := t.uart }) ∧
  (∀ (s : State) (n : Fin 8) (c k : Nat), n.val ≠ 0 → uartLive s n = true → uartMode s n = 1 → lineHigh s n = false →
    (uartOf s n).tx = some (c, k) → let u := uartOf s n
    let since := clkCount s n u.age - u.lead
    11 * uartN s n / 16 ≤ since →
    let retry := s.getF (R.UART_CFG n) F.UART_CFG_RETRY
    ∃ t, exec (.uartScRepeat n) s = .next t ∧
      (k < retry → uartOf t n = { u with tx := some (c, k + 1), age := clkFrom s n 0, lead := 13 * uartN s n / 16 - since } ∧ UartOnly s t n (fun _ => False)) ∧
      (retry ≤ k → NextSent s t n u u.txq ∧ uartRaised t n 4 ∧
        t.getF (R.UART_TXFAIL_CNT n) F.UART_TXFAIL_CNT_N = satAdd 32 (s.getF (R.UART_TXFAIL_CNT n) F.UART_TXFAIL_CNT_N) 1 ∧
        UartOnly s t n (fun b => b = R.UART_TXFAIL_CNT n ∨ b = R.PAGE_IRQ_RAW (0x090 + n)))) ∧
  (∀ (s : State) (p : Path) (n : Fin 8), acceptsRead s p (R.UART_RXQ n) = true →
    ((uartOf s n).q = [] → exec (.rxqRead p n) s = .next (readDone (enterSlot s p) p 0)) ∧
    (∀ e q, (uartOf s n).q = e :: q → ∃ t, exec (.rxqRead p n) s = .next (readDone t p (BitVec.ofNat 32 e)) ∧
      uartOf t n = { uartOf s n with q := q } ∧ UartOnly (enterSlot s p) t n (fun _ => False))) ∧
  (∀ (s : State) (p : Path) (n : Fin 8) (w : Word), let a := R.UART_CFG n
    accepts s p a w = true → let en := bitOf w.toNat 0
    let mode := bitsOf w.toNat 1 2
    let bad := s.getF (R.UART_MAP n) F.UART_MAP_RX_NIB = 0x1FF ∨ s.getF (R.UART_MAP n) F.UART_MAP_ISL = 0x3F ∨
      (mode = 1 ∧ ¬ (bitsOf w.toNat 4 4 = 8 ∧ bitsOf w.toNat 8 2 = 1)) ∨
      (mode = 2 ∧ ¬ (bitsOf w.toNat 4 4 = 8 ∧ bitsOf w.toNat 8 2 = 0 ∧ bitsOf w.toNat 10 2 = 0))
    let done := fun u => ∃ t, exec (.uartCfgWrite p n w) s = .next (written t p a) ∧ t.reg a = w ∧ uartOf t n = u ∧
      UartOnly (enterSlot s p) t n (· = a)
    (uartEn s n = true → en = true → Refused s p a 0x01 (exec (.uartCfgWrite p n w) s)) ∧
    (uartEn s n = true → en = false → done { uartOf s n with
      rx := none, tx := none, txf := [], fr := 0, n := none, lead := 0, sig := none, back := false }) ∧
    (uartEn s n = false → en = false → done (uartOf s n)) ∧
    (uartEn s n = false → en = true → s.phase ≠ .run → Refused s p a 0x07 (exec (.uartCfgWrite p n w) s)) ∧
    (uartEn s n = false → en = true → s.phase = .run → bad → Refused s p a 0x03 (exec (.uartCfgWrite p n w) s)) ∧
    (uartEn s n = false → en = true → s.phase = .run → ¬ bad → done { noUart with low := !lineHigh s n })) ∧
  (∀ (s : State) (p : Path) (w : Word), let a := R.UART_BAUD 0
    accepts s p a w = true → let idle := (uartOf s 0).rx = none ∧ s.mon.out = [] ∧ s.mon.line = none
    ∃ t, exec (.uart0BaudWrite p w) s = .next (written t p a) ∧ t.reg a = w ∧ (idle → t.uart.baud0 = w.toNat) ∧
      (¬ idle → t.uart.baud0 = s.uart.baud0) ∧ t.uart.port = s.uart.port ∧ regsKept (· = a) s t ∧
      t = { enterSlot s p with regs := t.regs, uart := t.uart }) ∧
  (∀ (s : State) (p : Path) (n : Fin 8) (a : Addr) (w : Word), n.val ≠ 0 → a.toNat = R.UART_BAUD n ∨ a.toNat = R.UART_FCFG n →
    accepts s p a.toNat w = true →
    (uartEn s n = true → Refused s p a.toNat 0x01 (exec (.registerWrite p a w) s)) ∧
    (uartEn s n = false → ∃ t, exec (.registerWrite p a w) s = .next (written t p a.toNat) ∧
      (∀ b < 32, (t.reg a.toNat).getLsbD b = (w.getLsbD b && (fieldMask (· == .rw) ((regFields a.toNat).getD [])).testBit b)) ∧
      regsKept (· = a.toNat) s t ∧ t = { enterSlot s p with regs := t.regs }))

/-- R497 to R503, R508, Tables 16.1 and 16.3: frame mode. A field of the port's own is sent and read back at once; which characters of
the transmit queue a failed field discards, and BITIDX of a break's bits beyond 12, are the model's choice (log entry 34). -/
def Obligations.UartFrames : Prop :=
  (∀ (s : State) (p : Path) (n : Fin 8) (w : Word) (quiet : Bool), let a := R.UART_FCMD n
    accepts s p a (withField w F.UART_FCMD_GO 1) = true → let u := uartOf s n
    let idle := uartEn s n = true ∧ uartMode s n = 2 ∧ u.txf = [] ∧ u.rx = none ∧ (u.fr = 0 ∨ u.fr = 5) ∧
      s.flag (R.UART_STAT n) F.UART_STAT_LINE = true ∧ quiet = true
    (¬ idle → Refused s p a 0x04 (exec (.uartFcmd p n w quiet) s)) ∧
    (idle → ∃ t, exec (.uartFcmd p n w quiet) s = .next (written t p a) ∧
      uartOf t n = { u with txf := [1, 2, 3], txv := 0, pid := pidOf (w.toNat % 64), age := clkFrom t n 0, lead := 0, back := false, n := none } ∧
      UartOnly (enterSlot s p) t n (fun _ => False))) ∧
  (∀ (s : State) (n : Fin 8), n.val ≠ 0 → uartLive s n = true → uartMode s n = 2 → lineHigh s n = false → let u := uartOf s n
    ∃ t, exec (.uartBreak n) s = .next t ∧ (uartOf t n).fr = 1 ∧ (uartOf t n).rx = none ∧ (uartOf t n).dat = [] ∧ (uartOf t n).n = none ∧
      ((∀ r, u.rx = some r → ∀ b ∈ (rxRest (uartN s n) (uartBits s n) none r).bits, b.1 = false) →
        EntryPut s t n (2 ^ 12 + 2 ^ 19 + (if u.txf = [] then 0 else 2 ^ 25))
          { u with rx := none, fr := 1, n := none, dat := [], left := 0, low := true, back := if u.txf = [] then u.back else true } ∧
        UartOnly s t n (uartRxRegs n))) ∧
  (∀ (s : State) (n : Fin 8), n.val ≠ 0 → uartLive s n = true → (uartOf s n).fr = 3 ∨ (uartOf s n).fr = 4 → (uartOf s n).txf = [] →
    ∃ t, exec (.uartResponseTimeout n) s = .next t ∧ EntryPut s t n (2 ^ 24 + 5 * 2 ^ 19) { uartOf s n with fr := 0, n := none } ∧
      UartOnly s t n (uartRxRegs n)) ∧
  (∀ (s : State) (n : Fin 8) (k : Fin 32) (rise : Option Nat) (f : Nat) (l : List Nat), n.val ≠ 0 → uartLive s n = true → uartMode s n = 2 →
    lineHigh s n = rise.isSome → (uartOf s n).txf = f :: l → let u := uartOf s n
    let decided := fun r => (rxRest (uartN s n) (uartBits s n) rise r).bits.map Prod.fst
    let failed := fun bits : List Bool => k.val < bits.length ∧ atD false bits k ≠ sentBit s n k ∧ ∀ j < k.val, atD false bits j = sentBit s n j
    let ends := fun v => ∃ (t : State) (i : Nat), exec (.uartBitError n k rise) s = .next t ∧ i < 13 ∧ (k.val ≤ 12 → i = k.val) ∧ uartRaised t n 6 ∧
      EntryPut s t n (v + 2 ^ 14 + 2 ^ 15 * i + f * 2 ^ 19 + 2 ^ 25)
        { u with txf := [], fr := 0, n := none, rx := none, back := false, txq := u.txq.drop (frameRest s n f l) } ∧
      UartOnly { s with freeCtr := t.freeCtr } t n (uartRxRegs n)
    let since := clkCount s n u.age - u.lead
    let fieldLen := if f = 1 then 14 + s.getF (R.UART_FCFG n) F.UART_FCFG_BRK + s.getF (R.UART_FCFG n) F.UART_FCFG_DELIM else 10
    let here := bitAt (uartN s n) since = k.val ∧ (2 * k.val + 1) * uartN s n / 32 ≤ since ∧ k.val < fieldLen
    (f = 1 → here → (lineHigh s n = true ↔ k.val < 13 + s.getF (R.UART_FCFG n) F.UART_FCFG_BRK) → ends 0) ∧
    (∀ r, f ≠ 1 → u.rx = some r → failed (decided r) → ends (charData (uartInv s n) 8 ((decided r).take (k + 1)))) ∧
    (f ≠ 1 → u.rx = none → here → sentBit s n k ≠ lineHigh s n → (∀ j < k.val, sentBit s n j = lineHigh s n) →
      ends (charData (uartInv s n) 8 (List.replicate (k + 1) (lineHigh s n))))) ∧
  (∀ (s : State) (n : Fin 8) (rise : Nat) (r : URx), n.val ≠ 0 → uartLive s n = true → uartMode s n = 2 → (uartOf s n).rx = some r →
    lineHigh s n = true →
    let u : Uart := { uartOf s n with rx := none, back := if (uartOf s n).txf = [] then (uartOf s n).back else true }
    let r1 := rxRest (uartN s n) (uartBits s n) (some rise) r
    let bits := r1.bits.map Prod.fst
    let v := charData (uartInv s n) (uartDbits s n) bits
    let noise := if r1.bits.any Prod.snd then 2 ^ 11 else 0
    let fe := if (bits.drop (1 + uartDbits s n + (if uartParity s n = 0 then 0 else 1))).any (! ·) then 2 ^ 10 else 0
    let base := v + (noise + fe) + (if u.txf = [] then 0 else 2 ^ 25)
    let auto := s.flag (R.UART_FCFG n) F.UART_FCFG_AUTOBAUD
    let per := s.getF (R.UART_BAUD n) F.UART_BAUD_N
    (u.txf ≠ [] → readsBack s n bits) → atD false bits 0 = false →
    ∃ t, exec (.uartCharReceived n (some rise)) s = .next t ∧ UartOnly s t n (uartRxRegs n) ∧
      (u.fr = 1 → auto = false → EntryPut s t n (base + 2 * 2 ^ 19) { u with fr := 2 }) ∧
      (∀ e, u.fr = 1 → auto = true → r.fifth = some e → let m := 2 * (e - r.first)
        let near := m * 100 ≤ per * 115 ∧ per * 85 ≤ m * 100
        (near → EntryPut s t n (base + 2 * 2 ^ 19) { u with fr := 2, n := some m }) ∧
        (¬ near → EntryPut s t n (base + 2 * 2 ^ 19 + 2 ^ 27) { u with fr := 5 })) ∧
      (u.fr = 1 → auto = true → r.fifth = none → EntryPut s t n (base + 2 * 2 ^ 19 + 2 ^ 27) { u with fr := 5 }) ∧
      (u.fr = 2 → v % 256 ≠ pidOf v → EntryPut s t n (base + 3 * 2 ^ 19 + 2 ^ 22) { u with fr := 5 }) ∧
      (u.fr = 2 → v % 256 = pidOf v → let a := R.UART_IDTAB n (v % 64)
        let len := s.getF a F.UART_IDTAB_LEN
        let enh := s.flag a F.UART_IDTAB_CKS
        (len = 0 → EntryPut s t n (base + 3 * 2 ^ 19) { u with fr := 0, n := none, enh := enh }) ∧
        (s.getF a F.UART_IDTAB_DIR = 0 → len ≠ 0 → EntryPut s t n (base + 3 * 2 ^ 19) { u with fr := 0, enh := enh }) ∧
        (s.getF a F.UART_IDTAB_DIR = 1 → len ≠ 0 →
          EntryPut s t n (base + 3 * 2 ^ 19) { u with fr := 3, pid := v, left := len, dat := [], enh := enh }) ∧
        (2 ≤ s.getF a F.UART_IDTAB_DIR → len ≠ 0 → u.txq.length < len →
          EntryPut s t n (base + 3 * 2 ^ 19 + 2 ^ 26) { u with fr := 0, n := none, enh := enh }) ∧
        (2 ≤ s.getF a F.UART_IDTAB_DIR → len ≠ 0 → len ≤ u.txq.length → u.txf ≠ [] → EntryPut s t n (base + 3 * 2 ^ 19) { u with
          fr := 3, pid := v, left := len, dat := [], enh := enh, txf := u.txf ++ List.replicate len 4 ++ [5]
          cks := frameCks enh v ((u.txq.take len).map (· % 256)) }) ∧
        (∀ c q, 2 ≤ s.getF a F.UART_IDTAB_DIR → len ≠ 0 → len ≤ u.txq.length → u.txf = [] → u.txq = c :: q → (uartOf t n).fr = 3 ∧
          (uartOf t n).txf = List.replicate len 4 ++ [5] ∧ (uartOf t n).txv = c % 256 ∧ (uartOf t n).txq = q ∧
          (uartOf t n).cks = frameCks enh v ((u.txq.take len).map (· % 256)))) ∧
      (u.fr = 3 → EntryPut s t n (base + 4 * 2 ^ 19) { u with fr := if u.left ≤ 1 then 4 else 3, left := u.left - 1, dat := u.dat ++ [v] }) ∧
      (u.fr = 4 → uartRaised t n 5 ∧
        EntryPut s t n (base + 5 * 2 ^ 19 + (if v = frameCks u.enh u.pid u.dat then 0 else 2 ^ 23)) { u with fr := 0, n := none }) ∧
      (u.fr = 5 → uartOf t n = u ∧ t.reg (R.UART_RX_LOST n) = s.reg (R.UART_RX_LOST n)))

/-- START is refused with the lowest target concerned in REFUSE_TGT (Table 17.2). -/
def BistRefused (s : State) (p : Path) (c tgt : Nat) (o : Out) : Prop :=
  let a := R.BIST_CMD
  ∃ t, o = .next t ∧ respOf t p = .refused ∧ t.reg (R.PAGE_ERR_CODE 0x0A0) = BitVec.ofNat 32 (c + 256 * p.code) ∧
    t.reg (R.PAGE_ERR_ADDR 0x0A0) = BitVec.ofNat 32 (a % 0x1000 + 0x80000000) ∧ (t.reg (R.PAGE_IRQ_RAW 0x0A0)).getLsbD 30 = true ∧
    t.reg R.BIST_REFUSE_TGT = BitVec.ofNat 32 tgt ∧
    regsKept (fun b => b ∈ [R.PAGE_ERR_CODE 0x0A0, R.PAGE_ERR_ADDR 0x0A0, R.PAGE_IRQ_RAW 0x0A0, R.BIST_REFUSE_TGT]) s t

/-- The registers that hold the results of a pass (R524). -/
def bistResults (b : Nat) : Prop := (0xA0100 ≤ b ∧ b < 0xA0400) ∨ b = R.BIST_FLOG_CNT ∨ b = R.BIST_ELAPSED

/-- The results of a target that is not tested (R526, Table 17.3). -/
def Skipped (t : State) (o : BPass) (y : Nat) : Prop :=
  t.reg (R.BIST_RES y) = BitVec.ofNat 32 (3 * b2n o.lbist + 12 * b2n o.mbist)

/-- Save-and-restore leaves the target's memories as they were (R514), but that a memory test leaves correctable words corrected (R519). -/
def TargetRestored (s t : State) (mbist : Bool) (x : Nat) : Prop :=
  let fixed (v : Nat) : Nat := if mbist = true ∧ isCorrectable v = true then eccWord (eccData v) else v
  (tabWf (fun _ => 0) s.fab.bram → ∀ k, tabGet (fun _ => 0) t.fab.bram k =
    if k / 12288 = x ∧ x < 48 then fixed (tabGet (fun _ => 0) s.fab.bram k) else tabGet (fun _ => 0) s.fab.bram k) ∧
  (tabWf (fun _ => 0) s.cap.ink → ∀ k, tabGet (fun _ => 0) t.cap.ink k =
    if x = 49 then fixed (tabGet (fun _ => 0) s.cap.ink k) else tabGet (fun _ => 0) s.cap.ink k)

/-- Isolate-and-reinitialise leaves target `x` as if its domain had just been switched on (R514). -/
def TargetFresh (s t : State) (x : Nat) : Prop :=
  DomainLost s t x ∧
  (∀ g ∈ domPages x, ∀ a, a / 0x1000 = g → keptOff a = false → a ≠ R.PAGE_STAT g ∨ pageWedged s g = false →
    (∀ i < 7, a ≠ R.UART_STAT (i + 1)) → t.reg a = resetOf a) ∧
  (∀ a, tabGet (fun _ => none) t.pend a = if a / 0x1000 ∈ domPages x then none else tabGet (fun _ => none) s.pend a) ∧
  (x < 48 → fenced t x = true ∧ drained t x = true ∧ (t.reg (R.PAGE_IRQ_RAW (fiPage x))).getLsbD 6 = true ∧
    ∀ a ∈ [R.FI_CE_CNT x, R.FI_UE_CNT x, R.FI_POISON_CNT x, R.FI_CE_LAST x, R.FI_UE_LAST x, R.FI_WEDGE_INFO x], t.reg a = 0#32)

/-- What follows a target's end (R515, R523): it is no longer isolated; the next target starts, or with none left the pass is over. `fin` is the
cycle of the pass at which it ended. A target with a prepared unit waits for the end of the commit (R516); SKIPPED for one whose domain is not on is
the model's choice (log entry 40). -/
def TargetOver (s t : State) (o : BPass) (x fin : Nat) : Prop :=
  let run := s.bist.run.filter (fun e => e.1 != x)
  let isol := s.bist.isol.filter (· != x)
  t.bist.now = fin ∧
  (s.bist.todo = [] → run ≠ [] → t.bist.run = run ∧ t.bist.isol = isol ∧ t.bist.pass = some o ∧ bistState t = bistState s) ∧
  (s.bist.todo = [] → run = [] → t.bist.run = [] ∧ t.bist.isol = isol ∧ t.bist.pass = none ∧ bistState t = 2 ∧
    t.regN R.BIST_ELAPSED = fin / genMhz t 65 % 2 ^ 32 ∧ (t.reg (R.PAGE_IRQ_RAW 0x0A0)).getLsbD 0 = true) ∧
  (∀ y r, s.bist.todo = y :: r → s.phase = .run → run.length + 1 = o.par → domSt s y = 0 → testWaits s y = false →
    (∀ z, r.head? = some z → domSt s z = 0) → t.bist.run = run ++ [(y, fin)] ∧ t.bist.isol = isol ++ [y] ∧
    t.bist.todo = r ∧ t.bist.pass = some o ∧ t.getF R.BIST_STAT F.BIST_STAT_CUR = y % 64 ∧ bistState t = bistState s) ∧
  (∀ y r, s.bist.todo = y :: r → domSt s y = 0 → s.phase = .run → testWaits s y = true → t.bist.run = run ∧ t.bist.isol = isol ∧
    t.bist.todo = y :: r ∧ t.bist.pass = some o) ∧
  (∀ y, s.bist.todo = [y] → y ≠ x → domSt s y ≠ 0 → t.bist.todo = [] ∧ t.bist.run = run ∧ Skipped t o y)

/-- R514 to R524, R526, R528, R530, Tables 17.1 to 17.4. SKIPPED for a target whose domain is not on is the model's choice (log entry 40). -/
def Obligations.SelfTest : Prop :=
  (∀ (s : State) (p : Path) (w : Word), let a := R.BIST_CMD
    accepts s p a (withField w F.BIST_CMD_START 1) = true →
    let ts := selTargets s R.BIST_SEL0
    let o := hostOptions s
    let none' := ts = [] ∨ (o.lbist = false ∧ o.mbist = false)
    (s.phase ≠ .run → Refused s p a 0x07 (exec (.bistStart p w) s)) ∧
    (s.phase = .run → bistState s = 1 → Refused s p a 0x01 (exec (.bistStart p w) s)) ∧
    (s.phase = .run → bistState s ≠ 1 → none' → Refused s p a 0x02 (exec (.bistStart p w) s)) ∧
    (∀ x ∈ ts, s.phase = .run → bistState s ≠ 1 → ¬ none' → domSt s x ≠ 0 → (∀ y ∈ ts, y < x → domSt s y = 0) →
      BistRefused s p 0x03 x (exec (.bistStart p w) s)) ∧
    (∀ x ∈ ts, s.phase = .run → bistState s ≠ 1 → ¬ none' → (∀ y ∈ ts, domSt s y = 0) → domBusy s x ≠ 0 →
      (∀ y ∈ ts, y < x → domBusy s y = 0) → BistRefused s p 0x04 x (exec (.bistStart p w) s)) ∧
    (s.phase = .run → bistState s ≠ 1 → ¬ none' → (∀ y ∈ ts, domSt s y = 0 ∧ domBusy s y = 0) →
      let k := min o.par (ts.takeWhile (fun y => !testWaits s y)).length
      ∃ t, exec (.bistStart p w) s = .next (written t p a) ∧ bistState t = 1 ∧ t.getF R.BIST_STAT F.BIST_STAT_ORIGIN = 1 ∧
        t.getF R.BIST_STAT F.BIST_STAT_NFAIL = 0 ∧ t.getF R.BIST_STAT F.BIST_STAT_NREP = 0 ∧
        t.bist = { s.bist with run := (ts.take k).map (fun x => (x, 0)), isol := ts.take k, todo := ts.drop k, now := 0, pass := some o } ∧
        (∀ b, bistResults b → t.reg b = resetOf b) ∧ regsKept (fun b => bistResults b ∨ b = R.BIST_STAT) s t ∧
        t = { enterSlot s p with regs := t.regs, bist := t.bist })) ∧
  (∀ (s : State) (p : Path) (w : Word), let a := R.BIST_CMD
    accepts s p a (withField w F.BIST_CMD_ABORT 1) = true →
    (s.phase ≠ .run → Refused s p a 0x07 (exec (.bistAbort p w) s)) ∧
    (s.phase = .run → bistState s = 1 → s.bist.run ≠ [] → exec (.bistAbort p w) s =
      .next (written { enterSlot s p with bist := { s.bist with todo := [] } } p a)) ∧
    (s.phase = .run → bistState s = 1 → s.bist.run = [] → ∃ t, exec (.bistAbort p w) s = .next (written t p a) ∧ bistState t = 2 ∧
      t.bist = { s.bist with todo := [], pass := none } ∧ t.regN R.BIST_ELAPSED = s.bist.now / genMhz s 65 % 2 ^ 32 ∧
      (t.reg (R.PAGE_IRQ_RAW 0x0A0)).getLsbD 0 = true ∧
      regsKept (fun b => b = R.BIST_STAT ∨ b = R.BIST_ELAPSED ∨ b = R.PAGE_IRQ_RAW 0x0A0) s t ∧
      t = { enterSlot s p with regs := t.regs, bist := t.bist }) ∧
    (s.phase = .run → bistState s ≠ 1 → exec (.bistAbort p w) s = .next (written (enterSlot s p) p a))) ∧
  (∀ (s : State) (t : Fin 64) (o : BPass) (st : Nat), live s = true → domOn s 61 = true → genRuns s 65 = true →
    s.bist.pass = some o → firstWhere (fun e => e.1 == t.val) s.bist.run = some (t.val, st) → t.val ≠ 61 →
    let fin := st + testCycles o t
    let res := R.BIST_RES t
    (∀ lfail : Bool, s.bist.now ≤ fin → (∀ e ∈ s.bist.run, e.1 ≠ t.val → fin ≤ e.2 + testCycles o e.1) → (lfail = true → o.lbist = true) →
      o.destr = false ∨ (∀ k < 16, strOpen s k = true → strLane s k / 2 + 53 ≠ t.val) →
      ∃ u, exec (.bistTargetDone t lfail [] []) s = .next u ∧ TargetOver s u o t fin ∧
        u.getF res F.BIST_RES_LRES = (if o.lbist then 1 + b2n lfail else 0) ∧ u.getF res F.BIST_RES_MRES = (if o.mbist then 1 else 0) ∧
        u.flag res F.BIST_RES_REPAIRED = false ∧ u.getF res F.BIST_RES_SPARES = sparesFree s t ∧ u.bist.repairs = s.bist.repairs ∧
        u.getF R.BIST_STAT F.BIST_STAT_NFAIL = (if lfail then satAdd 8 (s.getF R.BIST_STAT F.BIST_STAT_NFAIL) 1 else s.getF R.BIST_STAT F.BIST_STAT_NFAIL) ∧
        (lfail = true → (u.reg (R.PAGE_IRQ_RAW 0x0A0)).getLsbD 1 = true) ∧
        (o.destr = false → t.val ≠ 58 → TargetRestored s u o.mbist t ∧
          u = { s with regs := u.regs, bist := u.bist, fab := { s.fab with bram := u.fab.bram }, cap := { s.cap with ink := u.cap.ink } }) ∧
        (o.destr = true → t.val ≠ 58 → TargetFresh s u t ∧ u = { s with
          regs := u.regs, pend := u.pend, bist := u.bist, root := { s.root with latches := u.root.latches }, freeCtr := u.freeCtr
          fab := u.fab, cfg := u.cfg, cap := u.cap, trc := u.trc, quill := u.quill, tdc := u.tdc, mem := u.mem, dma := u.dma
          uart := u.uart, clk := u.clk, dl := u.dl }) ∧
        (s.bist.todo = [] → t.val ≠ 58 → regsKept (fun b => b = res ∨ b = R.BIST_STAT ∨ b = R.BIST_ELAPSED ∨ b = R.PAGE_IRQ_RAW 0x0A0 ∨
          (o.destr = true ∧ ((b / 0x1000 ∈ domPages t ∧ keptOff b = false) ∨ (t.val < 48 ∧ (b / 0x1000 = fiPage t ∨
            b = R.CFGC_VERIFIED0 ∨ b = R.CFGC_VERIFIED0 + 4))))) s u)) ∧
    (∀ (mem : Fin 64) (word : Fin 65536) (bit : Fin 128), o.destr = false → o.mbist = true → faultOk t mem word bit = true →
      let n := s.getF R.BIST_FLOG_CNT F.BIST_FLOG_CNT_N
      let logged := fun (u : State) (mapped : Nat) => u.getF R.BIST_FLOG_CNT F.BIST_FLOG_CNT_N = satAdd 16 n 1 ∧
        (n < 16 → u.reg (R.BIST_FLOG_A n) = BitVec.ofNat 32 (t.val + 256 * mem.val + 65536 * word.val) ∧
          u.reg (R.BIST_FLOG_B n) = BitVec.ofNat 32 (bit.val + 256 * mapped + 0x80000000))
      (s.bist.now ≤ fin → (∀ e ∈ s.bist.run, e.1 ≠ t.val → fin ≤ e.2 + testCycles o e.1) →
        o.repair = false ∨ sparesOf t ≤ spareUsed s t mem → ∃ u, exec (.bistTargetDone t false [(mem, word, bit)] []) s = .next u ∧
          TargetOver s u o t fin ∧ logged u 0 ∧ u.getF res F.BIST_RES_MRES = 2 ∧ u.flag res F.BIST_RES_REPAIRED = false ∧
          u.getF R.BIST_STAT F.BIST_STAT_NFAIL = satAdd 8 (s.getF R.BIST_STAT F.BIST_STAT_NFAIL) 1 ∧
          (u.reg (R.PAGE_IRQ_RAW 0x0A0)).getLsbD 1 = true ∧ u.bist.repairs = s.bist.repairs) ∧
      (let fin2 := fin + tgtM t false
       s.bist.now ≤ fin2 → (∀ e ∈ s.bist.run, e.1 ≠ t.val → fin2 ≤ e.2 + testCycles o e.1) →
        o.repair = true → spareUsed s t mem < sparesOf t → ∃ u, exec (.bistTargetDone t false [(mem, word, bit)] []) s = .next u ∧
          TargetOver s u o t fin2 ∧ logged u 1 ∧ u.getF res F.BIST_RES_MRES = 1 ∧ u.flag res F.BIST_RES_REPAIRED = true ∧
          u.getF R.BIST_STAT F.BIST_STAT_NREP = satAdd 8 (s.getF R.BIST_STAT F.BIST_STAT_NREP) 1 ∧
          u.bist.repairs = s.bist.repairs ++ [(t.val, mem.val, word.val / 8)]))) ∧
  (∀ s : State, s.phase = .kiln → s.root.cPhase = .idle → let t := kilnPass s
    let o : BPass := ⟨false, s.flag R.BIST_KCTRL F.BIST_KCTRL_LBIST, s.flag R.BIST_KCTRL F.BIST_KCTRL_MBIST,
      s.flag R.BIST_KCTRL F.BIST_KCTRL_LONG, s.flag R.BIST_KCTRL F.BIST_KCTRL_REPAIR_EN, s.getF R.BIST_KCTRL F.BIST_KCTRL_PAR + 1⟩
    let ts := (List.range 64).filter (fun x => x != 61 && s.mapBit R.BIST_KSEL0 4 x)
    let skip := fun x => domSt s x != 0 || (decide (48 ≤ x) && domBusy s x != 0)
    let tested := ts.filter (fun x => !skip x)
    t.bist.run = (tested.take o.par).map (fun x => (x, 0)) ∧ t.bist.isol = tested.take o.par ∧
    (∀ x ∈ ts, skip x = true → (tested.filter (· < x)).length ≤ o.par → Skipped t o x) ∧
    (tested = [] → bistState t = 2 ∧ t.bist.pass = none) ∧ (tested ≠ [] → bistState t = 1 ∧ t.bist.pass = some o) ∧
    t.getF R.BIST_STAT F.BIST_STAT_ORIGIN = 0 ∧ t = { s with regs := t.regs, bist := t.bist })

/-- The command being performed is over in `u`, and its data lines and status line go out (R533): at once where the output was idle. -/
def Replied (u t : State) (lines : List (List Byte)) : Prop :=
  let o := u.mon.out ++ (lines.map (· ++ crlf)).flatten
  t = { u with mon := { u.mon with line := none, out := o, reply := o.length }, uart := t.uart } ∧ t.uart.baud0 = u.uart.baud0 ∧
  (∀ m, uartOf t m = if m = 0 ∧ u.mon.out = [] then { uartOf u 0 with age := clkFrom u 0 0 } else uartOf u m)

/-- R531 to R537, R546, Tables 18.1 and 18.2: the monitor's lines, and its commands that read, write and report. -/
def Obligations.MonitorLines : Prop :=
  (∀ (s : State) (c : Byte) (r : List Byte), s.mon.got = c :: r →
    (s.phase = .reset → exec (.monCharacterReceived c) s = .next s) ∧
    (s.phase ≠ .reset → ∃ t, exec (.monCharacterReceived c) s = .next t ∧ t.mon.got = r ∧
      uartOf t 0 = (if s.mon.out = [] then { uartOf s 0 with age := clkFrom s 0 0 } else uartOf s 0) ∧
      (let m := s.mon
       let echo := if s.flag R.MON_CFG F.MON_CFG_ECHO then
         (if c = 0x0A ∧ m.ecr = true then [] else if c = 0x0D ∨ c = 0x0A then crlf else [c]) else []
       let busy := m.line ≠ none ∨ m.reply ≠ 0
       let ends := (c = 0x0D ∨ c = 0x0A) ∧ ¬ (c = 0x0A ∧ m.cr = true)
       t.mon.out = m.out ++ echo ∧ t.mon.reply = m.reply ∧
       (busy → t.mon.line = m.line ∧ t.mon.cur = m.cur ∧ t.mon.bad = m.bad ∧
         t.mon.store = m.store ++ [(c, decide (256 ≤ (m.store.filter (fun e => e.2 = false)).length))]) ∧
       (¬ busy → t.mon.store = m.store ∧
         (c = 0x0A → m.cr = true → t.mon.cur = m.cur ∧ t.mon.line = none) ∧
         (ends → t.mon.cur = [] ∧ t.mon.bad = false ∧
           t.mon.line = (if (∀ x ∈ m.cur, x = 0x20) ∧ m.bad = false then none else some (m.cur, m.bad))) ∧
         (c ≠ 0x0D → c ≠ 0x0A → t.mon.line = none ∧
           (m.cur.length < 96 → t.mon.cur = m.cur ++ [c] ∧ t.mon.bad = m.bad) ∧
           (96 ≤ m.cur.length → t.mon.cur = m.cur ∧ t.mon.bad = true)))) ∧
      (∀ n, n ≠ 0 → uartOf t n = uartOf s n) ∧ t = { s with uart := t.uart, mon := t.mon })) ∧
  (∀ (s : State) (ts : List (List Byte)), s.phase ≠ .reset → monCmd s = some (.id, ts) →
    ∃ t, exec .monId s = .next t ∧ (ts ≠ [] → Replied s t [errLine 2]) ∧
      (ts = [] → Replied s t [ascii ['J', 'X', 'A', '-', '6', '7', '6', ' ', if Config.stepping = 1 then 'B' else 'A', '0'], okLine])) ∧
  (∀ (s : State) (ts : List (List Byte)), s.phase ≠ .reset → monCmd s = some (.stat, ts) →
    let ph := survPhaseWord s
    ∃ t, exec .monStat s = .next t ∧ (ts ≠ [] → Replied s t [errLine 2]) ∧
      (ts = [] → Replied s t [ascii ['p', 'h', 'a', 's', 'e'] ++ numStr (ph % 8) ++ ascii [' ', 's', 't', 'e', 'p'] ++ numStr (ph / 16 % 8) ++
        ascii [' ', 'l', 'e', 'v', 'e', 'l'] ++ numStr (levelOf s .mon) ++ numStr (levelOf s .hsp) ++ numStr (levelOf s .dlnk) ++
        numStr (levelOf s .fab) ++ ascii [' ', 'f', 'a', 'i', 'l', 's'] ++ numStr (failsOf s .mon) ++ numStr (failsOf s .hsp) ++
        numStr (failsOf s .dlnk), okLine])) ∧
  (∀ (s : State) (ts : List (List Byte)) (ans : List UwAns), s.phase ≠ .reset → monCmd s = some (.rd, ts) →
    (rdArgs ts = none → ∃ t, exec (.monRd ans) s = .next t ∧ Replied s t [errLine 2]) ∧
    (∀ a k i fs, rdArgs ts = some (a, 1) → acceptsRead s .mon a = true → pageOf (a / 0x1000) = some (k, i) → regFields a = some fs →
      storedReg s .mon a k i → let d := readsAs (s.reg a) fs
      ∃ t, exec (.monRd ans) s = .next t ∧
        Replied (respond (enterSlot s .mon) .mon .ok [d]) t [dataStr a ++ [0x20#8] ++ dataStr d.toNat, okLine]) ∧
    (∀ a v, rdArgs ts = some (a, 1) → canIssue s .mon = true → violates (enterSlot s .mon) .mon a none = some v →
      ∃ t u, exec (.monRd ans) s = .next t ∧ ViolationLogged (enterSlot s .mon) u .mon a false v ∧
        Replied (respond u .mon (.violation v) []) t [errLine (10 + v.code)]) ∧
    (∀ a n, rdArgs ts = some (a, n) → readEnds s .mon a n ans = true →
      ∃ t u ds i r, exec (.monRd ans) s = .next t ∧ readBurst .mon n 0 a ans s [] = (u, ds, i, r) ∧
        (r = .ok → ds.length = n) ∧ (r ≠ .ok → ds.length = i ∧ i < n) ∧
        ∃ st, Replied (respond u .mon r ds) t ((List.range ds.length).map (fun j =>
            dataStr ((a + 4 * j) % 2 ^ 24) ++ [0x20#8] ++ dataStr (atD 0 ds j).toNat) ++ [st]) ∧
          (r = .ok → st = okLine) ∧ (∀ v, r = .violation v → st = errLine (10 + v.code)) ∧ (r = .wedged → st = errLine 30) ∧
          (r = .refused → inWindow ((a + 4 * i) % 2 ^ 24) = false → st = errLine 20 ++ [0x20#8] ++
            hexStr 2 (u.regN (R.PAGE_ERR_CODE ((a + 4 * i) % 2 ^ 24 / 0x1000)) % 256)))) ∧
  (∀ (s : State) (ts : List (List Byte)) (ans : Option UwAns), s.phase ≠ .reset → monCmd s = some (.wr, ts) →
    (wrArgs ts = none → ∃ t, exec (.monWr ans) s = .next t ∧ Replied s t [errLine 2]) ∧
    (∀ a v, wrArgs ts = some (a, v) → writeEnds s .mon a [BitVec.ofNat 32 v] ans.toList = true →
      ∃ t u i r st, exec (.monWr ans) s = .next t ∧ writeBurst .mon 0 a [BitVec.ofNat 32 v] ans.toList s = (u, i, r) ∧
        Replied (respond u .mon r []) t [st] ∧ (r = .ok → st = okLine) ∧ (∀ k, r = .violation k → st = errLine (10 + k.code)) ∧
        (r = .wedged → st = errLine 30) ∧
        (r = .refused → inWindow a = false → st = errLine 20 ++ [0x20#8] ++ hexStr 2 (u.regN (R.PAGE_ERR_CODE (a / 0x1000)) % 256)))) ∧
  (∀ (s : State) (l : List Byte) (bad : Bool), s.phase ≠ .reset → s.mon.line = some (l, bad) → monCmd s = none →
    ∃ t, exec .monUndefinedCommand s = .next t ∧ Replied s t [errLine (if bad then 3 else 1)]) ∧
  (∀ s : State, s.phase ≠ .reset → s.getF R.MON_CFG F.MON_CFG_IDLE_MIN ≠ 0 →
    ∃ t, exec .monIdleTimeout s = .next t ∧ levelOf t .mon = 0 ∧ (∀ q : Path, q ≠ .mon → levelOf t q = levelOf s q) ∧
      t = { s with root := { s.root with levels := t.root.levels } })

/-- A path's level rises to `l` (R538, R541): RAISED is set where it rises, the other paths are as they were. -/
def Raised (s u : State) (p : Path) (l : Nat) : Prop :=
  levelOf u p = max l (levelOf s p) ∧ (levelOf s p < l → (u.reg (R.PAGE_IRQ_RAW 0x0B0)).getLsbD 0 = true) ∧
  (∀ q : Path, q ≠ p → levelOf u q = levelOf s q) ∧ regsKept (· = R.PAGE_IRQ_RAW 0x0B0) s u ∧
  u = { s with regs := u.regs, root := { s.root with levels := u.root.levels } }

/-- A wrong password or response (R543, R544): the eighth locks the path out at level 0. -/
def UnlockFailed (s u : State) (p : Path) : Prop :=
  let n := failsOf s p + 1
  failsOf u p = min n 8 ∧ (u.reg (R.PAGE_IRQ_RAW 0x0B0)).getLsbD 1 = true ∧
  (8 ≤ n → lockedOut u p = true ∧ levelOf u p = 0 ∧ (u.reg (R.PAGE_IRQ_RAW 0x0B0)).getLsbD 2 = true) ∧
  (n < 8 → lockedOut u p = lockedOut s p ∧ levelOf u p = levelOf s p) ∧
  (∀ q : Path, q ≠ p → levelOf u q = levelOf s q ∧ failsOf u q = failsOf s q ∧ lockedOut u q = lockedOut s q) ∧
  regsKept (fun b => b = R.MON_STAT ∨ b = R.PAGE_IRQ_RAW 0x0B0) s u ∧
  u = { s with regs := u.regs, root := { s.root with levels := u.root.levels } }

/-- A password unlock with RESULT `r` of Table 18.4 (R538, R539, R543, R544). -/
def PwTried (s u : State) (p : Path) (pw : List Byte) (r : Nat) : Prop :=
  let bad := (1 ≤ pw.length ∧ pw.length ≤ 7) ∨ 32 < pw.length ∨ (pw = [] ∧ s.mon.pwh ≠ none)
  let right := (s.mon.pwh = none ∧ pw = []) ∨ s.mon.pwh = some (sha256 pw)
  (lockedOut s p = true → r = 3 ∧ u = s) ∧ (lockedOut s p = false → bad → r = 6 ∧ u = s) ∧
  (lockedOut s p = false → ¬ bad → right → r = 1 ∧ Raised s u p 1) ∧
  (lockedOut s p = false → ¬ bad → ¬ right → r = 2 ∧ UnlockFailed s u p)

/-- A challenge is drawn for a path (R540): 32 bytes of the random source, a free value (log entry 2). On a path that is locked out the attempt
is refused (log entry 93). -/
def ChalDrawn (s u : State) (p : Path) (r : Nat) : Prop :=
  (lockedOut s p = true → r = 3 ∧ u = s) ∧
  (lockedOut s p = false → r = 1 ∧ (∃ c, chalOf u p = some c ∧ c.length = 32) ∧ (∀ q : Path, q ≠ p → chalOf u q = chalOf s q) ∧
    u = { s with freeCtr := u.freeCtr, mon := { s.mon with chal := u.mon.chal } })

/-- A response (R540, R541, R543, R544): the challenge of its path is consumed, right or wrong. -/
def RespTried (s u : State) (p : Path) (resp : List Byte) (r : Nat) : Prop :=
  (lockedOut s p = true → r = 3 ∧ u = s) ∧ (lockedOut s p = false → chalOf s p = none → r = 4 ∧ u = s) ∧
  (∀ c, lockedOut s p = false → chalOf s p = some c →
    let want := hmacSha256 (s.mon.key.getD (List.replicate 32 0#8)) (ascii ['S', 'T', 'U', 'P'] ++ c ++ [BitVec.ofNat 8 p.code])
    ∃ v : State, chalOf v p = none ∧ (∀ q : Path, q ≠ p → chalOf v q = chalOf s q) ∧ v = { s with mon := { s.mon with chal := v.mon.chal } } ∧
      (resp = want → r = 1 ∧ Raised v u p 2) ∧ (resp ≠ want → r = 2 ∧ UnlockFailed v u p))

/-- A path's level is lowered to `l`, or stays (R545). -/
def Lowered (s u : State) (p : Path) (l : Nat) : Prop :=
  levelOf u p = min l (levelOf s p) ∧ (∀ q : Path, q ≠ p → levelOf u q = levelOf s q) ∧ u = { s with root := { s.root with levels := u.root.levels } }

/-- R537 to R545, R547, R550, Tables 18.1 and 18.2: unlocking the monitor path, and the one-time programming. -/
def Obligations.MonitorUnlocks : Prop :=
  (∀ (s : State) (ts : List (List Byte)), s.phase ≠ .reset → monCmd s = some (.unlock, ts) →
    (∀ pw, (ts = [tokPw] ∧ pw = []) ∨ ts = [tokPw, pw] →
      ∃ t u r, exec .monUnlockPw s = .next t ∧ PwTried s u .mon pw r ∧ Replied u t [resultLine r]) ∧
    (ts.head? ≠ some tokPw ∨ 2 < ts.length → ∃ t, exec .monUnlockPw s = .next t ∧ Replied s t [errLine 2])) ∧
  (∀ (s : State) (ts : List (List Byte)), s.phase ≠ .reset → monCmd s = some (.chal, ts) →
    (s.phase = .halt → ∃ t, exec .monChal s = .next t ∧ Replied s t [errLine 43]) ∧
    (s.phase ≠ .halt → ts ≠ [] → ∃ t, exec .monChal s = .next t ∧ Replied s t [errLine 2]) ∧
    (s.phase ≠ .halt → ts = [] → ∃ t u r, exec .monChal s = .next t ∧ ChalDrawn s u .mon r ∧ (r = 3 → Replied u t [errLine 41]) ∧
      (r = 1 → ∀ c, chalOf u .mon = some c → Replied u t [ascii ['c', 'h', 'a', 'l'] ++ groupsStr c, okLine]))) ∧
  (∀ (s : State) (ts : List (List Byte)), s.phase ≠ .reset → monCmd s = some (.resp, ts) →
    (s.phase = .halt → ∃ t, exec .monResp s = .next t ∧ Replied s t [errLine 43]) ∧
    (s.phase ≠ .halt → groupsOf ts 8 = none → ∃ t, exec .monResp s = .next t ∧ Replied s t [errLine 2]) ∧
    (∀ b, s.phase ≠ .halt → groupsOf ts 8 = some b →
      ∃ t u r, exec .monResp s = .next t ∧ RespTried s u .mon b r ∧ Replied u t [resultLine r])) ∧
  (∀ (s : State) (ts : List (List Byte)), s.phase ≠ .reset → monCmd s = some (.lock, ts) →
    (∀ x l, ts = [x] → hexBelow 1 x = some l → ∃ t u, exec .monLock s = .next t ∧ Lowered s u .mon l ∧ Replied u t [okLine]) ∧
    ((∀ x l, ts = [x] → hexBelow 1 x ≠ some l) → ∃ t, exec .monLock s = .next t ∧ Replied s t [errLine 2])) ∧
  (∀ (s : State) (ts : List (List Byte)), s.phase ≠ .reset → monCmd s = some (.reset, ts) →
    (effLevel s .mon < 2 → ∃ t, exec .monReset s = .next t ∧ Replied s t [errLine 4]) ∧
    (2 ≤ effLevel s .mon → ts ≠ [] → ∃ t, exec .monReset s = .next t ∧ Replied s t [errLine 2]) ∧
    (2 ≤ effLevel s .mon → ts = [] → ∃ t, exec .monReset s = .next t ∧
      Replied { s with mon := { s.mon with resetReq := true } } t [okLine])) ∧
  (∀ (s : State) (ts : List (List Byte)), s.phase ≠ .reset → monCmd s = some (.otp, ts) →
    let key := ts.head? = some tokKey
    let o := if ts.head? = some tokKey then exec .monOtpKey s else exec .monOtpPw s
    (s.phase = .halt → ∃ t, o = .next t ∧ Replied s t [errLine 43]) ∧
    (s.phase ≠ .halt → effLevel s .mon < 2 → ∃ t, o = .next t ∧ Replied s t [errLine 4]) ∧
    (s.phase ≠ .halt → 2 ≤ effLevel s .mon →
      (∀ k, key → groupsOf (ts.drop 1) 8 = some k → s.mon.key = none → ∃ t, o = .next t ∧
        Replied { s with mon := { s.mon with key := some k } } t [okLine]) ∧
      (∀ k, key → groupsOf (ts.drop 1) 8 = some k → s.mon.key ≠ none → ∃ t, o = .next t ∧ Replied s t [errLine 44]) ∧
      (key → groupsOf (ts.drop 1) 8 = none → ∃ t, o = .next t ∧ Replied s t [errLine 2]) ∧
      (∀ pw, ts = [tokPw, pw] → let good := 8 ≤ pw.length ∧ pw.length ≤ 32 ∧ ∀ c ∈ pw, 0x21 ≤ c.toNat ∧ c.toNat ≤ 0x7E
        (good → s.mon.pwh = none → ∃ t, o = .next t ∧ Replied { s with mon := { s.mon with pwh := some (sha256 pw) } } t [okLine]) ∧
        (good → s.mon.pwh ≠ none → ∃ t, o = .next t ∧ Replied s t [errLine 44]) ∧
        (¬ good → ∃ t, o = .next t ∧ Replied s t [errLine 2])) ∧
      (ts.head? ≠ some tokKey → ts.head? ≠ some tokPw ∨ ts.length ≠ 2 → ∃ t, o = .next t ∧ Replied s t [errLine 2])))

/-- The unlock operation of UL_CMD and of AUTH packets (R548, R549): 1 password, 2 challenge, 3 response, 4 lock. -/
def OpTried (s u : State) (p : Path) (op len level : Nat) (d : List Byte) (r : Nat) : Prop :=
  (op = 1 → PwTried s u p (d.take len) r) ∧ (op = 2 → ChalDrawn s u p r) ∧ (op = 3 → RespTried s u p (d.take 32) r) ∧
  (op = 4 → r = 1 ∧ Lowered s u p level)

/-- R540, R545, R548, R549, Tables 15.6, 18.4 and 18.5: unlocking the HSP and Draught paths, and the end of a challenge. An AUTH packet with a value
that Table 18.5 reserves is answered as the model reads it (log entry 94). -/
def Obligations.PathUnlocks : Prop :=
  (∀ (s : State) (op : Nat) (w : Word), 1 ≤ op → op ≤ 4 → let a := R.MON_UL_CMD
    let o := match op with
      | 1 => exec (.ulPassword .hsp w) s
      | 2 => exec (.ulChallenge .hsp w) s
      | 3 => exec (.ulResponse .hsp w) s
      | _ => exec (.ulLock .hsp w) s
    accepts s .hsp a (ulWord w op) = true →
    ∃ t u r, o = .next (written t .hsp a) ∧ OpTried (enterSlot s .hsp) u .hsp op (bitsOf w.toNat 8 6) (bitsOf w.toNat 16 2) (ulData s) r ∧
      t.reg R.MON_UL_STAT = BitVec.ofNat 32 r ∧ (∀ j < 8, t.reg (R.MON_UL_DATA j) = 0) ∧
      regsKept (fun b => b = R.MON_UL_STAT ∨ ∃ j < 8, b = R.MON_UL_DATA j) u t ∧ t = { u with regs := t.regs }) ∧
  (∀ (s : State) (p : Path) (w : Word), p ≠ .hsp → devViolation s p R.MON_UL_CMD (some w) = some .unimpl) ∧
  (∀ (s : State) (c : Instr) (q : DrReq) (rest : List DrReq), live s = true → s.dl.rq = q :: rest → q.ty = 0x40 →
    let op := authOp q.arg
    (c = .authPassword none ∧ op ≠ 2 ∧ op ≠ 3 ∧ op ≠ 4) ∨ (c = .authChallenge none ∧ op = 2) ∨ (c = .authResponse none ∧ op = 3) ∨
      (c = .authLock none ∧ op = 4) →
    let s0 : State := { s with dl := { s.dl with rq := rest } }
    let d := bytesLE q.pay ++ List.replicate 63 0#8
    let len := bitsOf q.arg 8 6
    let level := bitsOf q.arg 16 2
    let reserved := op = 0 ∨ 5 ≤ op ∨ (op ≠ 1 ∧ 32 < len) ∨ 1 < level
    (reserved → ∃ t, exec c s = .next t ∧ CplSent s0 t q.lane q.src q.tag q.addr 1 4 0 [] ∧ t = { s0 with dl := { s0.dl with lane := t.dl.lane } }) ∧
    (¬ reserved → ∃ t u r, exec c s = .next t ∧ OpTried s0 u .dlnk op len level d r ∧
      (r ≠ 1 → CplSent u t q.lane q.src q.tag q.addr 2 (r - 1) 0 []) ∧
      (r = 1 → op ≠ 2 → CplSent u t q.lane q.src q.tag q.addr 0 0 0 []) ∧
      (r = 1 → op = 2 → ∀ b, chalOf u .dlnk = some b → CplSent u t q.lane q.src q.tag q.addr 0 0 0 (wordsLE b)) ∧
      t = { u with dl := { u.dl with lane := t.dl.lane } })) ∧
  (∀ (s : State) (p : Path), chalOf s p ≠ none → ∃ t, exec (.challengeExpire p) s = .next t ∧ chalOf t p = none ∧
    (∀ q : Path, q ≠ p → chalOf t q = chalOf s q) ∧ t = { s with mon := { s.mon with chal := t.mon.chal } })

/-- What boundary scan makes of the ball with cell `c`, which the device else drives to `d` (R551, R553, R554): while RST_N is held low EXTEST and
CLAMP drive it from its cell and HIGHZ leaves it undriven. -/
def scanned (s : State) (c : Nat) (d : Option Bool) : Option Bool :=
  if s.pwr.rstN then d
  else if s.tap.ir = Config.irExtest ∨ s.tap.ir = Config.irClamp then some (atD false s.tap.bsr c)
  else if s.tap.ir = Config.irHighz then none
  else d

/-- Level that the boundary register captures in the cell of ball `c`, from RST_N on (R553): of a ball that the device drives, what it drives; of
any other one the level that is there. -/
def ballAt (s : State) (others : BitVec 109) (c : Nat) : Bool :=
  let own := if c = 336 then some s.pwr.rstN else if c = 337 then some s.nib.haltBall
    else if c < 342 then some (!bitOf (s.regN R.IRQ_BALL_STAT) (c - 338)) else if c = 342 then some (utxd s 0) else none
  (if c ∈ [336, 343, 344, 345, 346, 435] then own else scanned s c own).getD (others.getLsbD (c - 336))

/-- The boundary register captures the ball levels: the nibs, then the other balls. -/
def Captured (s : State) (others : BitVec 109) (d : List Bool) : Prop :=
  d.length = 445 ∧ (∀ n < 336, d[n]? = some (compareAt s n (tabGet (fun _ => false) s.nib.cmp n))) ∧
  ∀ i < 109, d[336 + i]? = some (ballAt s others (336 + i))

/-- R551 to R554, R563, R566, R567, Table 19.5: the test access port reaches the state of the port alone (R4) and, while RST_N is held low, the
balls; the IRQ_N balls follow their routed sources; the halt record is cleared. The instruction codes and the order of the cells are the model's
(log entry 98). -/
def Obligations.TestPortAndBalls : Prop :=
  (∀ (s : State) (others : BitVec 109) (preload : BitVec 445) (code : BitVec 6),
    let bits := fun (n w : Nat) => (List.range n).map (bitOf w)
    let tap := fun (ir : Nat) (dr bsr : List Bool) => { s with tap := ⟨ir, dr, bsr⟩ }
    let id := tap Config.irIdcode (bits 32 (Config.stepping * 2 ^ 28 + 0x006765CB)) s.tap.bsr
    exec .tapReset s = .next id ∧ exec .tapIdcode s = .next id ∧
    ((∀ c ∈ [Config.irExtest, Config.irIdcode, Config.irSample, Config.irClamp, Config.irHighz], code.toNat ≠ c) →
      exec (.tapBypass code) s = .next (tap code.toNat [false] s.tap.bsr)) ∧
    (∃ d, exec (.tapSamplePreload others preload) s = .next (tap Config.irSample d (bits 445 preload.toNat)) ∧ Captured s others d) ∧
    (s.pwr.rstN = false → (∃ d, exec (.tapExtest others) s = .next (tap Config.irExtest d s.tap.bsr) ∧
      Captured (tap Config.irExtest [] s.tap.bsr) others d)) ∧
    (s.pwr.rstN = true → exec (.tapExtest others) s = .next (tap Config.irExtest [false] s.tap.bsr)) ∧
    exec .tapClamp s = .next (tap Config.irClamp [false] s.tap.bsr) ∧ exec .tapHighz s = .next (tap Config.irHighz [false] s.tap.bsr)) ∧
  (∀ (s : State) (n : Nat), n < 336 → s.pwr.rstN = false → allGood s = true →
    (s.tap.ir = Config.irExtest ∨ s.tap.ir = Config.irClamp → (padOf s n).drive = some (atD false s.tap.bsr n)) ∧
    (s.tap.ir = Config.irHighz → (padOf s n).drive = none)) ∧
  (∀ (s : State) (i : Fin 4), s.phase ≠ .reset → ∃ t, exec (.irqBallUpdate i) s = .next t ∧
    (bitOf (t.regN R.IRQ_BALL_STAT) i = true ↔ ∃ p ∈ allPages, bitsOf (s.regN (R.IRQ_MAP (p / 8))) (4 * (p % 8)) 4 = 8 + i.val ∧ srcActive s p = true) ∧
    (∀ j, j ≠ i.val → bitOf (t.regN R.IRQ_BALL_STAT) j = bitOf (s.regN R.IRQ_BALL_STAT) j) ∧
    regsKept (· = R.IRQ_BALL_STAT) s t ∧ t = { s with regs := t.regs }) ∧
  (∀ (s : State) (i : Fin 4), s.phase = .reset → exec (.irqBallUpdate i) s = .next s) ∧
  (∀ (s : State) (p : Path) (w : Word), accepts s p R.IRQ_HALT_CLR (withField w F.IRQ_HALT_CLR_CLR 1) = true →
    let l := [R.IRQ_HALT_INFO, R.IRQ_HALT_TS_LO, R.IRQ_HALT_TS_HI, R.IRQ_HALT_A0, R.IRQ_HALT_A1]
    ∃ t, exec (.haltClr p w) s = .next (written t p R.IRQ_HALT_CLR) ∧ (∀ b ∈ l, t.reg b = 0) ∧ regsKept (· ∈ l) s t ∧
      t = { enterSlot s p with regs := t.regs })
end

