-- ==== Sys2Proof/Laws/Tab.lean ====
section
/-! SUPPORT. Sparse tables: what is read after a write, and that every operation keeps the canonical form. -/

namespace Sys2Proof.Machine

variable {β : Type}

theorem tabGet_tabErase_same (d : Nat → β) (m : Tab β) (k : Nat) : tabGet d (tabErase k m) k = d k := by
  induction m with
  | nil => rfl
  | cons e m ih =>
    obtain ⟨j, w⟩ := e
    simp only [tabErase]
    split
    · exact ih
    · rename_i h; simp only [tabGet]; rw [if_neg (fun g => h g.symm)]; exact ih

theorem tabGet_tabErase_other (d : Nat → β) (m : Tab β) {k j : Nat} (h : j ≠ k) :
    tabGet d (tabErase k m) j = tabGet d m j := by
  induction m with
  | nil => rfl
  | cons e m ih =>
    obtain ⟨i, w⟩ := e
    simp only [tabErase, tabGet]
    split
    · rename_i g; subst g; rw [if_neg h]; exact ih
    · simp only [tabGet]; rw [ih]

theorem tabGet_tabInsert_same (d : Nat → β) (m : Tab β) (k : Nat) (v : β) (h : ∀ e ∈ m, e.1 ≠ k) :
    tabGet d (tabInsert k v m) k = v := by
  induction m with
  | nil => simp [tabInsert, tabGet]
  | cons e m ih =>
    obtain ⟨j, w⟩ := e
    simp only [tabInsert]
    split
    · simp [tabGet]
    · simp only [tabGet]
      rw [if_neg (fun g => h (j, w) List.mem_cons_self g.symm)]
      exact ih (fun e he => h e (List.mem_cons_of_mem _ he))

theorem tabGet_tabInsert_other (d : Nat → β) (m : Tab β) {k j : Nat} (v : β) (h : j ≠ k) :
    tabGet d (tabInsert k v m) j = tabGet d m j := by
  induction m with
  | nil => simp [tabInsert, tabGet, h]
  | cons e m ih =>
    obtain ⟨i, w⟩ := e
    simp only [tabInsert]
    split
    · simp [tabGet, h]
    · simp only [tabGet]; rw [ih]

theorem mem_tabErase {k : Nat} {m : Tab β} {e : Nat × β} : e ∈ tabErase k m ↔ e ∈ m ∧ e.1 ≠ k := by
  induction m with
  | nil => simp [tabErase]
  | cons a m ih =>
    obtain ⟨j, w⟩ := a
    simp only [tabErase]
    split
    · rename_i g
      rw [ih]
      constructor
      · exact fun ⟨a, b⟩ => ⟨List.mem_cons_of_mem _ a, b⟩
      · rintro ⟨a, b⟩
        cases a with
        | head => exact absurd g b
        | tail _ a => exact ⟨a, b⟩
    · rename_i g
      simp only [List.mem_cons, ih]
      constructor
      · rintro (rfl | ⟨a, b⟩)
        · exact ⟨.inl rfl, g⟩
        · exact ⟨.inr a, b⟩
      · rintro ⟨rfl | a, b⟩
        · exact .inl rfl
        · exact .inr ⟨a, b⟩

/-- A key reads as the value last written. -/
@[simp] theorem tabGet_tabSet_same [DecidableEq β] (d : Nat → β) (m : Tab β) (k : Nat) (v : β) :
    tabGet d (tabSet d m k v) k = v := by
  unfold tabSet
  split
  · rename_i h; rw [tabGet_tabErase_same, h]
  · exact tabGet_tabInsert_same _ _ _ _ (fun e he => (mem_tabErase.mp he).2)

/-- A write leaves every other key alone. -/
@[simp] theorem tabGet_tabSet_other [DecidableEq β] (d : Nat → β) (m : Tab β) {k j : Nat} (v : β) (h : j ≠ k) :
    tabGet d (tabSet d m k v) j = tabGet d m j := by
  unfold tabSet
  split
  · exact tabGet_tabErase_other _ _ h
  · rw [tabGet_tabInsert_other _ _ _ h, tabGet_tabErase_other _ _ h]

theorem tabGet_tabSet [DecidableEq β] (d : Nat → β) (m : Tab β) (k j : Nat) (v : β) :
    tabGet d (tabSet d m k v) j = if j = k then v else tabGet d m j := by
  split
  · rename_i h; subst h; exact tabGet_tabSet_same ..
  · rename_i h; exact tabGet_tabSet_other _ _ _ h

/-! ### The canonical form -/

theorem mem_tabInsert {k : Nat} {v : β} {m : Tab β} {e : Nat × β} : e ∈ tabInsert k v m ↔ e = (k, v) ∨ e ∈ m := by
  induction m with
  | nil => simp [tabInsert]
  | cons a m ih =>
    obtain ⟨j, w⟩ := a
    simp only [tabInsert]
    split
    · simp
    · simp only [List.mem_cons, ih]; exact or_left_comm

theorem tabInsert_sorted {k : Nat} {v : β} {m : Tab β} (hm : m.Pairwise (fun a b => a.1 < b.1)) (h : ∀ e ∈ m, e.1 ≠ k) :
    (tabInsert k v m).Pairwise (fun a b => a.1 < b.1) := by
  induction m with
  | nil => simp [tabInsert]
  | cons a m ih =>
    obtain ⟨j, w⟩ := a
    rw [List.pairwise_cons] at hm
    simp only [tabInsert]
    split
    · rename_i g
      rw [List.pairwise_cons, List.pairwise_cons]
      refine ⟨fun e he => ?_, hm⟩
      cases he with
      | head => exact g
      | tail _ he => exact Nat.lt_trans g (hm.1 e he)
    · rename_i g
      rw [List.pairwise_cons]
      refine ⟨fun e he => ?_, ih hm.2 (fun e he => h e (List.mem_cons_of_mem _ he))⟩
      rcases mem_tabInsert.mp he with rfl | he
      · have := h (j, w) List.mem_cons_self
        dsimp only at *
        omega
      · exact hm.1 e he

theorem tabErase_sorted {k : Nat} {m : Tab β} (hm : m.Pairwise (fun a b => a.1 < b.1)) :
    (tabErase k m).Pairwise (fun a b => a.1 < b.1) := by
  induction m with
  | nil => exact List.Pairwise.nil
  | cons a m ih =>
    obtain ⟨j, w⟩ := a
    rw [List.pairwise_cons] at hm
    simp only [tabErase]
    split
    · exact ih hm.2
    · rw [List.pairwise_cons]
      exact ⟨fun e he => hm.1 e (mem_tabErase.mp he).1, ih hm.2⟩

/-- The empty table is canonical. -/
theorem tabWf_nil (d : Nat → β) : tabWf d ([] : Tab β) := ⟨List.Pairwise.nil, fun _ h => absurd h List.not_mem_nil⟩

/-- A write keeps the canonical form. -/
theorem tabWf_tabSet [DecidableEq β] {d : Nat → β} {m : Tab β} (h : tabWf d m) (k : Nat) (v : β) :
    tabWf d (tabSet d m k v) := by
  unfold tabSet
  split
  · exact ⟨tabErase_sorted h.1, fun e he => h.2 e (mem_tabErase.mp he).1⟩
  · rename_i g
    refine ⟨tabInsert_sorted (tabErase_sorted h.1) (fun e he => (mem_tabErase.mp he).2), fun e he => ?_⟩
    rcases mem_tabInsert.mp he with rfl | he
    · exact g
    · exact h.2 e (mem_tabErase.mp he).1

/-- Dropping entries keeps the canonical form. -/
theorem tabWf_filter {d : Nat → β} {m : Tab β} (h : tabWf d m) (p : Nat × β → Bool) : tabWf d (m.filter p) :=
  ⟨h.1.filter p, fun e he => h.2 e (List.mem_filter.mp he).1⟩

theorem tabWf_tabDrop {d : Nat → β} {m : Tab β} (h : tabWf d m) (p : Nat → Bool) : tabWf d (tabDrop p m) :=
  tabWf_filter h _

theorem tabWf_tabSetRun [DecidableEq β] {d : Nat → β} {m : Tab β} (h : tabWf d m) (k : Nat) (vs : List β) :
    tabWf d (tabSetRun d m k vs) := by
  induction vs generalizing m k with
  | nil => exact h
  | cons v vs ih => exact ih (tabWf_tabSet h k v) (k + 1)

theorem mem_tabEntries [DecidableEq β] {d : Nat → β} {k : Nat} {vs : List β} {e : Nat × β} (h : e ∈ tabEntries d k vs) :
    k ≤ e.1 ∧ e.1 < k + vs.length ∧ e.2 ≠ d e.1 := by
  induction vs generalizing k with
  | nil => simp [tabEntries] at h
  | cons v vs ih =>
    simp only [tabEntries] at h
    split at h
    · have := ih h; simp only [List.length_cons]; exact ⟨by omega, by omega, this.2.2⟩
    · rename_i g
      cases h with
      | head => simp only [List.length_cons]; exact ⟨Nat.le_refl _, by omega, g⟩
      | tail _ h => have := ih h; simp only [List.length_cons]; exact ⟨by omega, by omega, this.2.2⟩

theorem tabEntries_sorted [DecidableEq β] (d : Nat → β) (k : Nat) (vs : List β) :
    (tabEntries d k vs).Pairwise (fun a b => a.1 < b.1) := by
  induction vs generalizing k with
  | nil => exact List.Pairwise.nil
  | cons v vs ih =>
    simp only [tabEntries]
    split
    · exact ih (k + 1)
    · rw [List.pairwise_cons]
      refine ⟨fun e he => ?_, ih (k + 1)⟩
      have := mem_tabEntries he
      dsimp only; omega

/-- Replacing a run keeps the canonical form. -/
theorem tabGet_append_of_none {d : Nat → β} {m : Tab β} {k : Nat} (h : ∀ e ∈ m, e.1 ≠ k) (n : Tab β) :
    tabGet d (m ++ n) k = tabGet d n k := by
  induction m with
  | nil => rfl
  | cons e m ih =>
    rw [List.cons_append, tabGet, if_neg (fun x => h e (List.mem_cons_self ..) x.symm)]
    exact ih (fun f hf => h f (List.mem_cons_of_mem _ hf))

theorem tabGet_filter_in {d : Nat → β} {m : Tab β} {p : Nat → Bool} {k : Nat} (h : p k = true) :
    tabGet d (m.filter (fun e => p e.1)) k = tabGet d m k := by
  induction m with
  | nil => rfl
  | cons e m ih =>
    by_cases hp : p e.1 = true
    · rw [List.filter_cons_of_pos (by exact hp)]
      simp only [tabGet, ih]
    · rw [List.filter_cons_of_neg (by exact hp), ih, tabGet, if_neg]
      rintro rfl; exact hp h

theorem tabGet_append {d : Nat → β} {m n : Tab β} {k : Nat} (h : ∀ e ∈ n, e.1 ≠ k) : tabGet d (m ++ n) k = tabGet d m k := by
  induction m with
  | nil =>
    rw [List.nil_append]
    have := tabGet_append_of_none (d := d) h []
    rwa [List.append_nil] at this
  | cons e m ih => simp only [List.cons_append, tabGet, ih]

theorem tabGet_tabEntries [DecidableEq β] (d : Nat → β) (vs : List β) (k i : Nat) :
    tabGet d (tabEntries d k vs) (k + i) = (vs[i]?).getD (d (k + i)) := by
  induction vs generalizing k i with
  | nil => rfl
  | cons v vs ih =>
    have hlt : ∀ e ∈ tabEntries d (k + 1) vs, e.1 ≠ k := by
      intro e he
      have := (mem_tabEntries he).1
      omega
    cases i with
    | zero =>
      simp only [tabEntries, Nat.add_zero, List.getElem?_cons_zero, Option.getD_some]
      split
      · have := tabGet_append_of_none (d := d) hlt []
        rw [List.append_nil] at this
        rw [this]; simp [tabGet, *]
      · simp [tabGet]
    | succ i =>
      have e : k + (i + 1) = k + 1 + i := by omega
      rw [e, List.getElem?_cons_succ, ← ih]
      simp only [tabEntries]
      split
      · rfl
      · rw [tabGet, if_neg (by omega)]

/-- A run that replaces keys reads back, and every other key is as it was. -/
theorem tabGet_tabPut [DecidableEq β] (d : Nat → β) (m : Tab β) (k : Nat) (vs : List β) (j : Nat) :
    tabGet d (tabPut d m k vs) j = if k ≤ j then (if j < k + vs.length then (vs[j - k]?).getD (d j) else tabGet d m j) else tabGet d m j := by
  have hm : ∀ e ∈ tabEntries d k vs, k ≤ e.1 ∧ e.1 < k + vs.length :=
    fun e he => ⟨(mem_tabEntries he).1, (mem_tabEntries he).2.1⟩
  unfold tabPut
  by_cases h1 : k ≤ j
  · rw [if_pos h1, List.append_assoc, tabGet_append_of_none (by
      intro e he; simp only [List.mem_filter, decide_eq_true_eq] at he; omega)]
    by_cases h2 : j < k + vs.length
    · rw [if_pos h2, tabGet_append (by intro e he; simp only [List.mem_filter, decide_eq_true_eq] at he; omega)]
      have := tabGet_tabEntries d vs k (j - k)
      rwa [show k + (j - k) = j by omega] at this
    · rw [if_neg h2, tabGet_append_of_none (by intro e he; have := hm e he; omega)]
      exact tabGet_filter_in (p := fun a => decide (k + vs.length ≤ a)) (by simp; omega)
  · rw [if_neg h1, tabGet_append (by intro e he; simp only [List.mem_filter, decide_eq_true_eq] at he; omega),
      tabGet_append (by intro e he; have := hm e he; omega)]
    exact tabGet_filter_in (p := fun a => decide (a < k)) (by simp; omega)

theorem tabWf_tabPut [DecidableEq β] {d : Nat → β} {m : Tab β} (h : tabWf d m) (k : Nat) (vs : List β) :
    tabWf d (tabPut d m k vs) := by
  unfold tabPut
  refine ⟨?_, fun e he => ?_⟩
  · rw [List.pairwise_append, List.pairwise_append]
    refine ⟨⟨h.1.filter _, tabEntries_sorted _ _ _, fun a ha b hb => ?_⟩, h.1.filter _, fun a ha b hb => ?_⟩
    · have h1 := (List.mem_filter.mp ha).2
      have h2 := mem_tabEntries hb
      simp only [decide_eq_true_eq] at h1
      omega
    · have h2 := (List.mem_filter.mp hb).2
      simp only [decide_eq_true_eq] at h2
      rcases List.mem_append.mp ha with ha | ha
      · have h1 := (List.mem_filter.mp ha).2
        simp only [decide_eq_true_eq] at h1
        omega
      · have h1 := mem_tabEntries ha
        omega
  · rcases List.mem_append.mp he with he | he
    · rcases List.mem_append.mp he with he | he
      · exact h.2 e (List.mem_filter.mp he).1
      · exact (mem_tabEntries he).2.2
    · exact h.2 e (List.mem_filter.mp he).1

end Sys2Proof.Machine
end

