-- ==== Sys2Proof/Laws/State.lean ====
section
/-! SUPPORT. Reading State after an update: which parts each named update leaves alone, what a register, a field, a
staged value or a response reads as after a write of it or of another. -/

namespace Sys2Proof.Machine

/-! ### Parts that an update leaves alone -/

/-! `setReg` -/

@[simp] theorem setReg_pending (s : State) (a : Nat) (w : Word) : (s.setReg a w).pending = s.pending := rfl
@[simp] theorem setReg_freeCtr (s : State) (a : Nat) (w : Word) : (s.setReg a w).freeCtr = s.freeCtr := rfl
@[simp] theorem setReg_phase (s : State) (a : Nat) (w : Word) : (s.setReg a w).phase = s.phase := rfl
@[simp] theorem setReg_pend (s : State) (a : Nat) (w : Word) : (s.setReg a w).pend = s.pend := rfl
@[simp] theorem setReg_root (s : State) (a : Nat) (w : Word) : (s.setReg a w).root = s.root := rfl
@[simp] theorem setReg_pwr (s : State) (a : Nat) (w : Word) : (s.setReg a w).pwr = s.pwr := rfl
@[simp] theorem setReg_surv (s : State) (a : Nat) (w : Word) : (s.setReg a w).surv = s.surv := rfl
@[simp] theorem setReg_cfg (s : State) (a : Nat) (w : Word) : (s.setReg a w).cfg = s.cfg := rfl
@[simp] theorem setReg_clk (s : State) (a : Nat) (w : Word) : (s.setReg a w).clk = s.clk := rfl
@[simp] theorem setReg_nib (s : State) (a : Nat) (w : Word) : (s.setReg a w).nib = s.nib := rfl
@[simp] theorem setReg_fab (s : State) (a : Nat) (w : Word) : (s.setReg a w).fab = s.fab := rfl
@[simp] theorem setReg_cap (s : State) (a : Nat) (w : Word) : (s.setReg a w).cap = s.cap := rfl
@[simp] theorem setReg_quill (s : State) (a : Nat) (w : Word) : (s.setReg a w).quill = s.quill := rfl
@[simp] theorem setReg_trc (s : State) (a : Nat) (w : Word) : (s.setReg a w).trc = s.trc := rfl
@[simp] theorem setReg_tdc (s : State) (a : Nat) (w : Word) : (s.setReg a w).tdc = s.tdc := rfl
@[simp] theorem setReg_mem (s : State) (a : Nat) (w : Word) : (s.setReg a w).mem = s.mem := rfl
@[simp] theorem setReg_dma (s : State) (a : Nat) (w : Word) : (s.setReg a w).dma = s.dma := rfl
@[simp] theorem setReg_dl (s : State) (a : Nat) (w : Word) : (s.setReg a w).dl = s.dl := rfl
@[simp] theorem setReg_uart (s : State) (a : Nat) (w : Word) : (s.setReg a w).uart = s.uart := rfl
@[simp] theorem setReg_bist (s : State) (a : Nat) (w : Word) : (s.setReg a w).bist = s.bist := rfl
@[simp] theorem setReg_mon (s : State) (a : Nat) (w : Word) : (s.setReg a w).mon = s.mon := rfl
@[simp] theorem setReg_tap (s : State) (a : Nat) (w : Word) : (s.setReg a w).tap = s.tap := rfl

/-! `setF` -/

@[simp] theorem setF_pending (s : State) (a : Nat) (f : Fld) (v : Nat) : (s.setF a f v).pending = s.pending := rfl
@[simp] theorem setF_freeCtr (s : State) (a : Nat) (f : Fld) (v : Nat) : (s.setF a f v).freeCtr = s.freeCtr := rfl
@[simp] theorem setF_phase (s : State) (a : Nat) (f : Fld) (v : Nat) : (s.setF a f v).phase = s.phase := rfl
@[simp] theorem setF_pend (s : State) (a : Nat) (f : Fld) (v : Nat) : (s.setF a f v).pend = s.pend := rfl
@[simp] theorem setF_root (s : State) (a : Nat) (f : Fld) (v : Nat) : (s.setF a f v).root = s.root := rfl
@[simp] theorem setF_pwr (s : State) (a : Nat) (f : Fld) (v : Nat) : (s.setF a f v).pwr = s.pwr := rfl
@[simp] theorem setF_surv (s : State) (a : Nat) (f : Fld) (v : Nat) : (s.setF a f v).surv = s.surv := rfl
@[simp] theorem setF_cfg (s : State) (a : Nat) (f : Fld) (v : Nat) : (s.setF a f v).cfg = s.cfg := rfl
@[simp] theorem setF_clk (s : State) (a : Nat) (f : Fld) (v : Nat) : (s.setF a f v).clk = s.clk := rfl
@[simp] theorem setF_nib (s : State) (a : Nat) (f : Fld) (v : Nat) : (s.setF a f v).nib = s.nib := rfl
@[simp] theorem setF_fab (s : State) (a : Nat) (f : Fld) (v : Nat) : (s.setF a f v).fab = s.fab := rfl
@[simp] theorem setF_cap (s : State) (a : Nat) (f : Fld) (v : Nat) : (s.setF a f v).cap = s.cap := rfl
@[simp] theorem setF_quill (s : State) (a : Nat) (f : Fld) (v : Nat) : (s.setF a f v).quill = s.quill := rfl
@[simp] theorem setF_trc (s : State) (a : Nat) (f : Fld) (v : Nat) : (s.setF a f v).trc = s.trc := rfl
@[simp] theorem setF_tdc (s : State) (a : Nat) (f : Fld) (v : Nat) : (s.setF a f v).tdc = s.tdc := rfl
@[simp] theorem setF_mem (s : State) (a : Nat) (f : Fld) (v : Nat) : (s.setF a f v).mem = s.mem := rfl
@[simp] theorem setF_dma (s : State) (a : Nat) (f : Fld) (v : Nat) : (s.setF a f v).dma = s.dma := rfl
@[simp] theorem setF_dl (s : State) (a : Nat) (f : Fld) (v : Nat) : (s.setF a f v).dl = s.dl := rfl
@[simp] theorem setF_uart (s : State) (a : Nat) (f : Fld) (v : Nat) : (s.setF a f v).uart = s.uart := rfl
@[simp] theorem setF_bist (s : State) (a : Nat) (f : Fld) (v : Nat) : (s.setF a f v).bist = s.bist := rfl
@[simp] theorem setF_mon (s : State) (a : Nat) (f : Fld) (v : Nat) : (s.setF a f v).mon = s.mon := rfl
@[simp] theorem setF_tap (s : State) (a : Nat) (f : Fld) (v : Nat) : (s.setF a f v).tap = s.tap := rfl

/-! `setN` -/

@[simp] theorem setN_pending (s : State) (a n : Nat) : (s.setN a n).pending = s.pending := rfl
@[simp] theorem setN_freeCtr (s : State) (a n : Nat) : (s.setN a n).freeCtr = s.freeCtr := rfl
@[simp] theorem setN_phase (s : State) (a n : Nat) : (s.setN a n).phase = s.phase := rfl
@[simp] theorem setN_pend (s : State) (a n : Nat) : (s.setN a n).pend = s.pend := rfl
@[simp] theorem setN_root (s : State) (a n : Nat) : (s.setN a n).root = s.root := rfl
@[simp] theorem setN_pwr (s : State) (a n : Nat) : (s.setN a n).pwr = s.pwr := rfl
@[simp] theorem setN_surv (s : State) (a n : Nat) : (s.setN a n).surv = s.surv := rfl
@[simp] theorem setN_cfg (s : State) (a n : Nat) : (s.setN a n).cfg = s.cfg := rfl
@[simp] theorem setN_clk (s : State) (a n : Nat) : (s.setN a n).clk = s.clk := rfl
@[simp] theorem setN_nib (s : State) (a n : Nat) : (s.setN a n).nib = s.nib := rfl
@[simp] theorem setN_fab (s : State) (a n : Nat) : (s.setN a n).fab = s.fab := rfl
@[simp] theorem setN_cap (s : State) (a n : Nat) : (s.setN a n).cap = s.cap := rfl
@[simp] theorem setN_quill (s : State) (a n : Nat) : (s.setN a n).quill = s.quill := rfl
@[simp] theorem setN_trc (s : State) (a n : Nat) : (s.setN a n).trc = s.trc := rfl
@[simp] theorem setN_tdc (s : State) (a n : Nat) : (s.setN a n).tdc = s.tdc := rfl
@[simp] theorem setN_mem (s : State) (a n : Nat) : (s.setN a n).mem = s.mem := rfl
@[simp] theorem setN_dma (s : State) (a n : Nat) : (s.setN a n).dma = s.dma := rfl
@[simp] theorem setN_dl (s : State) (a n : Nat) : (s.setN a n).dl = s.dl := rfl
@[simp] theorem setN_uart (s : State) (a n : Nat) : (s.setN a n).uart = s.uart := rfl
@[simp] theorem setN_bist (s : State) (a n : Nat) : (s.setN a n).bist = s.bist := rfl
@[simp] theorem setN_mon (s : State) (a n : Nat) : (s.setN a n).mon = s.mon := rfl
@[simp] theorem setN_tap (s : State) (a n : Nat) : (s.setN a n).tap = s.tap := rfl

/-! `satF` -/

@[simp] theorem satF_pending (s : State) (a : Nat) (f : Fld) (k : Nat) : (s.satF a f k).pending = s.pending := rfl
@[simp] theorem satF_freeCtr (s : State) (a : Nat) (f : Fld) (k : Nat) : (s.satF a f k).freeCtr = s.freeCtr := rfl
@[simp] theorem satF_phase (s : State) (a : Nat) (f : Fld) (k : Nat) : (s.satF a f k).phase = s.phase := rfl
@[simp] theorem satF_pend (s : State) (a : Nat) (f : Fld) (k : Nat) : (s.satF a f k).pend = s.pend := rfl
@[simp] theorem satF_root (s : State) (a : Nat) (f : Fld) (k : Nat) : (s.satF a f k).root = s.root := rfl
@[simp] theorem satF_pwr (s : State) (a : Nat) (f : Fld) (k : Nat) : (s.satF a f k).pwr = s.pwr := rfl
@[simp] theorem satF_surv (s : State) (a : Nat) (f : Fld) (k : Nat) : (s.satF a f k).surv = s.surv := rfl
@[simp] theorem satF_cfg (s : State) (a : Nat) (f : Fld) (k : Nat) : (s.satF a f k).cfg = s.cfg := rfl
@[simp] theorem satF_clk (s : State) (a : Nat) (f : Fld) (k : Nat) : (s.satF a f k).clk = s.clk := rfl
@[simp] theorem satF_nib (s : State) (a : Nat) (f : Fld) (k : Nat) : (s.satF a f k).nib = s.nib := rfl
@[simp] theorem satF_fab (s : State) (a : Nat) (f : Fld) (k : Nat) : (s.satF a f k).fab = s.fab := rfl
@[simp] theorem satF_cap (s : State) (a : Nat) (f : Fld) (k : Nat) : (s.satF a f k).cap = s.cap := rfl
@[simp] theorem satF_quill (s : State) (a : Nat) (f : Fld) (k : Nat) : (s.satF a f k).quill = s.quill := rfl
@[simp] theorem satF_trc (s : State) (a : Nat) (f : Fld) (k : Nat) : (s.satF a f k).trc = s.trc := rfl
@[simp] theorem satF_tdc (s : State) (a : Nat) (f : Fld) (k : Nat) : (s.satF a f k).tdc = s.tdc := rfl
@[simp] theorem satF_mem (s : State) (a : Nat) (f : Fld) (k : Nat) : (s.satF a f k).mem = s.mem := rfl
@[simp] theorem satF_dma (s : State) (a : Nat) (f : Fld) (k : Nat) : (s.satF a f k).dma = s.dma := rfl
@[simp] theorem satF_dl (s : State) (a : Nat) (f : Fld) (k : Nat) : (s.satF a f k).dl = s.dl := rfl
@[simp] theorem satF_uart (s : State) (a : Nat) (f : Fld) (k : Nat) : (s.satF a f k).uart = s.uart := rfl
@[simp] theorem satF_bist (s : State) (a : Nat) (f : Fld) (k : Nat) : (s.satF a f k).bist = s.bist := rfl
@[simp] theorem satF_mon (s : State) (a : Nat) (f : Fld) (k : Nat) : (s.satF a f k).mon = s.mon := rfl
@[simp] theorem satF_tap (s : State) (a : Nat) (f : Fld) (k : Nat) : (s.satF a f k).tap = s.tap := rfl

/-! `wrapF` -/

@[simp] theorem wrapF_pending (s : State) (a : Nat) (f : Fld) (k : Nat) : (s.wrapF a f k).pending = s.pending := rfl
@[simp] theorem wrapF_freeCtr (s : State) (a : Nat) (f : Fld) (k : Nat) : (s.wrapF a f k).freeCtr = s.freeCtr := rfl
@[simp] theorem wrapF_phase (s : State) (a : Nat) (f : Fld) (k : Nat) : (s.wrapF a f k).phase = s.phase := rfl
@[simp] theorem wrapF_pend (s : State) (a : Nat) (f : Fld) (k : Nat) : (s.wrapF a f k).pend = s.pend := rfl
@[simp] theorem wrapF_root (s : State) (a : Nat) (f : Fld) (k : Nat) : (s.wrapF a f k).root = s.root := rfl
@[simp] theorem wrapF_pwr (s : State) (a : Nat) (f : Fld) (k : Nat) : (s.wrapF a f k).pwr = s.pwr := rfl
@[simp] theorem wrapF_surv (s : State) (a : Nat) (f : Fld) (k : Nat) : (s.wrapF a f k).surv = s.surv := rfl
@[simp] theorem wrapF_cfg (s : State) (a : Nat) (f : Fld) (k : Nat) : (s.wrapF a f k).cfg = s.cfg := rfl
@[simp] theorem wrapF_clk (s : State) (a : Nat) (f : Fld) (k : Nat) : (s.wrapF a f k).clk = s.clk := rfl
@[simp] theorem wrapF_nib (s : State) (a : Nat) (f : Fld) (k : Nat) : (s.wrapF a f k).nib = s.nib := rfl
@[simp] theorem wrapF_fab (s : State) (a : Nat) (f : Fld) (k : Nat) : (s.wrapF a f k).fab = s.fab := rfl
@[simp] theorem wrapF_cap (s : State) (a : Nat) (f : Fld) (k : Nat) : (s.wrapF a f k).cap = s.cap := rfl
@[simp] theorem wrapF_quill (s : State) (a : Nat) (f : Fld) (k : Nat) : (s.wrapF a f k).quill = s.quill := rfl
@[simp] theorem wrapF_trc (s : State) (a : Nat) (f : Fld) (k : Nat) : (s.wrapF a f k).trc = s.trc := rfl
@[simp] theorem wrapF_tdc (s : State) (a : Nat) (f : Fld) (k : Nat) : (s.wrapF a f k).tdc = s.tdc := rfl
@[simp] theorem wrapF_mem (s : State) (a : Nat) (f : Fld) (k : Nat) : (s.wrapF a f k).mem = s.mem := rfl
@[simp] theorem wrapF_dma (s : State) (a : Nat) (f : Fld) (k : Nat) : (s.wrapF a f k).dma = s.dma := rfl
@[simp] theorem wrapF_dl (s : State) (a : Nat) (f : Fld) (k : Nat) : (s.wrapF a f k).dl = s.dl := rfl
@[simp] theorem wrapF_uart (s : State) (a : Nat) (f : Fld) (k : Nat) : (s.wrapF a f k).uart = s.uart := rfl
@[simp] theorem wrapF_bist (s : State) (a : Nat) (f : Fld) (k : Nat) : (s.wrapF a f k).bist = s.bist := rfl
@[simp] theorem wrapF_mon (s : State) (a : Nat) (f : Fld) (k : Nat) : (s.wrapF a f k).mon = s.mon := rfl
@[simp] theorem wrapF_tap (s : State) (a : Nat) (f : Fld) (k : Nat) : (s.wrapF a f k).tap = s.tap := rfl

/-! `set48` -/

@[simp] theorem set48_pending (s : State) (lo hi v : Nat) : (s.set48 lo hi v).pending = s.pending := rfl
@[simp] theorem set48_freeCtr (s : State) (lo hi v : Nat) : (s.set48 lo hi v).freeCtr = s.freeCtr := rfl
@[simp] theorem set48_phase (s : State) (lo hi v : Nat) : (s.set48 lo hi v).phase = s.phase := rfl
@[simp] theorem set48_pend (s : State) (lo hi v : Nat) : (s.set48 lo hi v).pend = s.pend := rfl
@[simp] theorem set48_root (s : State) (lo hi v : Nat) : (s.set48 lo hi v).root = s.root := rfl
@[simp] theorem set48_pwr (s : State) (lo hi v : Nat) : (s.set48 lo hi v).pwr = s.pwr := rfl
@[simp] theorem set48_surv (s : State) (lo hi v : Nat) : (s.set48 lo hi v).surv = s.surv := rfl
@[simp] theorem set48_cfg (s : State) (lo hi v : Nat) : (s.set48 lo hi v).cfg = s.cfg := rfl
@[simp] theorem set48_clk (s : State) (lo hi v : Nat) : (s.set48 lo hi v).clk = s.clk := rfl
@[simp] theorem set48_nib (s : State) (lo hi v : Nat) : (s.set48 lo hi v).nib = s.nib := rfl
@[simp] theorem set48_fab (s : State) (lo hi v : Nat) : (s.set48 lo hi v).fab = s.fab := rfl
@[simp] theorem set48_cap (s : State) (lo hi v : Nat) : (s.set48 lo hi v).cap = s.cap := rfl
@[simp] theorem set48_quill (s : State) (lo hi v : Nat) : (s.set48 lo hi v).quill = s.quill := rfl
@[simp] theorem set48_trc (s : State) (lo hi v : Nat) : (s.set48 lo hi v).trc = s.trc := rfl
@[simp] theorem set48_tdc (s : State) (lo hi v : Nat) : (s.set48 lo hi v).tdc = s.tdc := rfl
@[simp] theorem set48_mem (s : State) (lo hi v : Nat) : (s.set48 lo hi v).mem = s.mem := rfl
@[simp] theorem set48_dma (s : State) (lo hi v : Nat) : (s.set48 lo hi v).dma = s.dma := rfl
@[simp] theorem set48_dl (s : State) (lo hi v : Nat) : (s.set48 lo hi v).dl = s.dl := rfl
@[simp] theorem set48_uart (s : State) (lo hi v : Nat) : (s.set48 lo hi v).uart = s.uart := rfl
@[simp] theorem set48_bist (s : State) (lo hi v : Nat) : (s.set48 lo hi v).bist = s.bist := rfl
@[simp] theorem set48_mon (s : State) (lo hi v : Nat) : (s.set48 lo hi v).mon = s.mon := rfl
@[simp] theorem set48_tap (s : State) (lo hi v : Nat) : (s.set48 lo hi v).tap = s.tap := rfl

/-! `setMapBit` -/

@[simp] theorem setMapBit_pending (s : State) (a stride i : Nat) (v : Bool) : (s.setMapBit a stride i v).pending = s.pending := rfl
@[simp] theorem setMapBit_freeCtr (s : State) (a stride i : Nat) (v : Bool) : (s.setMapBit a stride i v).freeCtr = s.freeCtr := rfl
@[simp] theorem setMapBit_phase (s : State) (a stride i : Nat) (v : Bool) : (s.setMapBit a stride i v).phase = s.phase := rfl
@[simp] theorem setMapBit_pend (s : State) (a stride i : Nat) (v : Bool) : (s.setMapBit a stride i v).pend = s.pend := rfl
@[simp] theorem setMapBit_root (s : State) (a stride i : Nat) (v : Bool) : (s.setMapBit a stride i v).root = s.root := rfl
@[simp] theorem setMapBit_pwr (s : State) (a stride i : Nat) (v : Bool) : (s.setMapBit a stride i v).pwr = s.pwr := rfl
@[simp] theorem setMapBit_surv (s : State) (a stride i : Nat) (v : Bool) : (s.setMapBit a stride i v).surv = s.surv := rfl
@[simp] theorem setMapBit_cfg (s : State) (a stride i : Nat) (v : Bool) : (s.setMapBit a stride i v).cfg = s.cfg := rfl
@[simp] theorem setMapBit_clk (s : State) (a stride i : Nat) (v : Bool) : (s.setMapBit a stride i v).clk = s.clk := rfl
@[simp] theorem setMapBit_nib (s : State) (a stride i : Nat) (v : Bool) : (s.setMapBit a stride i v).nib = s.nib := rfl
@[simp] theorem setMapBit_fab (s : State) (a stride i : Nat) (v : Bool) : (s.setMapBit a stride i v).fab = s.fab := rfl
@[simp] theorem setMapBit_cap (s : State) (a stride i : Nat) (v : Bool) : (s.setMapBit a stride i v).cap = s.cap := rfl
@[simp] theorem setMapBit_quill (s : State) (a stride i : Nat) (v : Bool) : (s.setMapBit a stride i v).quill = s.quill := rfl
@[simp] theorem setMapBit_trc (s : State) (a stride i : Nat) (v : Bool) : (s.setMapBit a stride i v).trc = s.trc := rfl
@[simp] theorem setMapBit_tdc (s : State) (a stride i : Nat) (v : Bool) : (s.setMapBit a stride i v).tdc = s.tdc := rfl
@[simp] theorem setMapBit_mem (s : State) (a stride i : Nat) (v : Bool) : (s.setMapBit a stride i v).mem = s.mem := rfl
@[simp] theorem setMapBit_dma (s : State) (a stride i : Nat) (v : Bool) : (s.setMapBit a stride i v).dma = s.dma := rfl
@[simp] theorem setMapBit_dl (s : State) (a stride i : Nat) (v : Bool) : (s.setMapBit a stride i v).dl = s.dl := rfl
@[simp] theorem setMapBit_uart (s : State) (a stride i : Nat) (v : Bool) : (s.setMapBit a stride i v).uart = s.uart := rfl
@[simp] theorem setMapBit_bist (s : State) (a stride i : Nat) (v : Bool) : (s.setMapBit a stride i v).bist = s.bist := rfl
@[simp] theorem setMapBit_mon (s : State) (a stride i : Nat) (v : Bool) : (s.setMapBit a stride i v).mon = s.mon := rfl
@[simp] theorem setMapBit_tap (s : State) (a stride i : Nat) (v : Bool) : (s.setMapBit a stride i v).tap = s.tap := rfl

/-! `irq` -/

@[simp] theorem irq_pending (s : State) (page bits : Nat) : (s.irq page bits).pending = s.pending := rfl
@[simp] theorem irq_freeCtr (s : State) (page bits : Nat) : (s.irq page bits).freeCtr = s.freeCtr := rfl
@[simp] theorem irq_phase (s : State) (page bits : Nat) : (s.irq page bits).phase = s.phase := rfl
@[simp] theorem irq_pend (s : State) (page bits : Nat) : (s.irq page bits).pend = s.pend := rfl
@[simp] theorem irq_root (s : State) (page bits : Nat) : (s.irq page bits).root = s.root := rfl
@[simp] theorem irq_pwr (s : State) (page bits : Nat) : (s.irq page bits).pwr = s.pwr := rfl
@[simp] theorem irq_surv (s : State) (page bits : Nat) : (s.irq page bits).surv = s.surv := rfl
@[simp] theorem irq_cfg (s : State) (page bits : Nat) : (s.irq page bits).cfg = s.cfg := rfl
@[simp] theorem irq_clk (s : State) (page bits : Nat) : (s.irq page bits).clk = s.clk := rfl
@[simp] theorem irq_nib (s : State) (page bits : Nat) : (s.irq page bits).nib = s.nib := rfl
@[simp] theorem irq_fab (s : State) (page bits : Nat) : (s.irq page bits).fab = s.fab := rfl
@[simp] theorem irq_cap (s : State) (page bits : Nat) : (s.irq page bits).cap = s.cap := rfl
@[simp] theorem irq_quill (s : State) (page bits : Nat) : (s.irq page bits).quill = s.quill := rfl
@[simp] theorem irq_trc (s : State) (page bits : Nat) : (s.irq page bits).trc = s.trc := rfl
@[simp] theorem irq_tdc (s : State) (page bits : Nat) : (s.irq page bits).tdc = s.tdc := rfl
@[simp] theorem irq_mem (s : State) (page bits : Nat) : (s.irq page bits).mem = s.mem := rfl
@[simp] theorem irq_dma (s : State) (page bits : Nat) : (s.irq page bits).dma = s.dma := rfl
@[simp] theorem irq_dl (s : State) (page bits : Nat) : (s.irq page bits).dl = s.dl := rfl
@[simp] theorem irq_uart (s : State) (page bits : Nat) : (s.irq page bits).uart = s.uart := rfl
@[simp] theorem irq_bist (s : State) (page bits : Nat) : (s.irq page bits).bist = s.bist := rfl
@[simp] theorem irq_mon (s : State) (page bits : Nat) : (s.irq page bits).mon = s.mon := rfl
@[simp] theorem irq_tap (s : State) (page bits : Nat) : (s.irq page bits).tap = s.tap := rfl

/-! `irqBit` -/

@[simp] theorem irqBit_pending (s : State) (page i : Nat) : (s.irqBit page i).pending = s.pending := rfl
@[simp] theorem irqBit_freeCtr (s : State) (page i : Nat) : (s.irqBit page i).freeCtr = s.freeCtr := rfl
@[simp] theorem irqBit_phase (s : State) (page i : Nat) : (s.irqBit page i).phase = s.phase := rfl
@[simp] theorem irqBit_pend (s : State) (page i : Nat) : (s.irqBit page i).pend = s.pend := rfl
@[simp] theorem irqBit_root (s : State) (page i : Nat) : (s.irqBit page i).root = s.root := rfl
@[simp] theorem irqBit_pwr (s : State) (page i : Nat) : (s.irqBit page i).pwr = s.pwr := rfl
@[simp] theorem irqBit_surv (s : State) (page i : Nat) : (s.irqBit page i).surv = s.surv := rfl
@[simp] theorem irqBit_cfg (s : State) (page i : Nat) : (s.irqBit page i).cfg = s.cfg := rfl
@[simp] theorem irqBit_clk (s : State) (page i : Nat) : (s.irqBit page i).clk = s.clk := rfl
@[simp] theorem irqBit_nib (s : State) (page i : Nat) : (s.irqBit page i).nib = s.nib := rfl
@[simp] theorem irqBit_fab (s : State) (page i : Nat) : (s.irqBit page i).fab = s.fab := rfl
@[simp] theorem irqBit_cap (s : State) (page i : Nat) : (s.irqBit page i).cap = s.cap := rfl
@[simp] theorem irqBit_quill (s : State) (page i : Nat) : (s.irqBit page i).quill = s.quill := rfl
@[simp] theorem irqBit_trc (s : State) (page i : Nat) : (s.irqBit page i).trc = s.trc := rfl
@[simp] theorem irqBit_tdc (s : State) (page i : Nat) : (s.irqBit page i).tdc = s.tdc := rfl
@[simp] theorem irqBit_mem (s : State) (page i : Nat) : (s.irqBit page i).mem = s.mem := rfl
@[simp] theorem irqBit_dma (s : State) (page i : Nat) : (s.irqBit page i).dma = s.dma := rfl
@[simp] theorem irqBit_dl (s : State) (page i : Nat) : (s.irqBit page i).dl = s.dl := rfl
@[simp] theorem irqBit_uart (s : State) (page i : Nat) : (s.irqBit page i).uart = s.uart := rfl
@[simp] theorem irqBit_bist (s : State) (page i : Nat) : (s.irqBit page i).bist = s.bist := rfl
@[simp] theorem irqBit_mon (s : State) (page i : Nat) : (s.irqBit page i).mon = s.mon := rfl
@[simp] theorem irqBit_tap (s : State) (page i : Nat) : (s.irqBit page i).tap = s.tap := rfl

/-! `setPend` -/

@[simp] theorem setPend_pending (s : State) (a : Nat) (w : Option Word) : (s.setPend a w).pending = s.pending := rfl
@[simp] theorem setPend_freeCtr (s : State) (a : Nat) (w : Option Word) : (s.setPend a w).freeCtr = s.freeCtr := rfl
@[simp] theorem setPend_phase (s : State) (a : Nat) (w : Option Word) : (s.setPend a w).phase = s.phase := rfl
@[simp] theorem setPend_regs (s : State) (a : Nat) (w : Option Word) : (s.setPend a w).regs = s.regs := rfl
@[simp] theorem setPend_root (s : State) (a : Nat) (w : Option Word) : (s.setPend a w).root = s.root := rfl
@[simp] theorem setPend_pwr (s : State) (a : Nat) (w : Option Word) : (s.setPend a w).pwr = s.pwr := rfl
@[simp] theorem setPend_surv (s : State) (a : Nat) (w : Option Word) : (s.setPend a w).surv = s.surv := rfl
@[simp] theorem setPend_cfg (s : State) (a : Nat) (w : Option Word) : (s.setPend a w).cfg = s.cfg := rfl
@[simp] theorem setPend_clk (s : State) (a : Nat) (w : Option Word) : (s.setPend a w).clk = s.clk := rfl
@[simp] theorem setPend_nib (s : State) (a : Nat) (w : Option Word) : (s.setPend a w).nib = s.nib := rfl
@[simp] theorem setPend_fab (s : State) (a : Nat) (w : Option Word) : (s.setPend a w).fab = s.fab := rfl
@[simp] theorem setPend_cap (s : State) (a : Nat) (w : Option Word) : (s.setPend a w).cap = s.cap := rfl
@[simp] theorem setPend_quill (s : State) (a : Nat) (w : Option Word) : (s.setPend a w).quill = s.quill := rfl
@[simp] theorem setPend_trc (s : State) (a : Nat) (w : Option Word) : (s.setPend a w).trc = s.trc := rfl
@[simp] theorem setPend_tdc (s : State) (a : Nat) (w : Option Word) : (s.setPend a w).tdc = s.tdc := rfl
@[simp] theorem setPend_mem (s : State) (a : Nat) (w : Option Word) : (s.setPend a w).mem = s.mem := rfl
@[simp] theorem setPend_dma (s : State) (a : Nat) (w : Option Word) : (s.setPend a w).dma = s.dma := rfl
@[simp] theorem setPend_dl (s : State) (a : Nat) (w : Option Word) : (s.setPend a w).dl = s.dl := rfl
@[simp] theorem setPend_uart (s : State) (a : Nat) (w : Option Word) : (s.setPend a w).uart = s.uart := rfl
@[simp] theorem setPend_bist (s : State) (a : Nat) (w : Option Word) : (s.setPend a w).bist = s.bist := rfl
@[simp] theorem setPend_mon (s : State) (a : Nat) (w : Option Word) : (s.setPend a w).mon = s.mon := rfl
@[simp] theorem setPend_tap (s : State) (a : Nat) (w : Option Word) : (s.setPend a w).tap = s.tap := rfl

/-! `respond` -/

@[simp] theorem respond_pending (s : State) (p : Path) (r : Resp) (d : List Word) : (respond s p r d).pending = s.pending := rfl
@[simp] theorem respond_freeCtr (s : State) (p : Path) (r : Resp) (d : List Word) : (respond s p r d).freeCtr = s.freeCtr := rfl
@[simp] theorem respond_phase (s : State) (p : Path) (r : Resp) (d : List Word) : (respond s p r d).phase = s.phase := rfl
@[simp] theorem respond_regs (s : State) (p : Path) (r : Resp) (d : List Word) : (respond s p r d).regs = s.regs := rfl
@[simp] theorem respond_pend (s : State) (p : Path) (r : Resp) (d : List Word) : (respond s p r d).pend = s.pend := rfl
@[simp] theorem respond_pwr (s : State) (p : Path) (r : Resp) (d : List Word) : (respond s p r d).pwr = s.pwr := rfl
@[simp] theorem respond_surv (s : State) (p : Path) (r : Resp) (d : List Word) : (respond s p r d).surv = s.surv := rfl
@[simp] theorem respond_cfg (s : State) (p : Path) (r : Resp) (d : List Word) : (respond s p r d).cfg = s.cfg := rfl
@[simp] theorem respond_clk (s : State) (p : Path) (r : Resp) (d : List Word) : (respond s p r d).clk = s.clk := rfl
@[simp] theorem respond_nib (s : State) (p : Path) (r : Resp) (d : List Word) : (respond s p r d).nib = s.nib := rfl
@[simp] theorem respond_fab (s : State) (p : Path) (r : Resp) (d : List Word) : (respond s p r d).fab = s.fab := rfl
@[simp] theorem respond_cap (s : State) (p : Path) (r : Resp) (d : List Word) : (respond s p r d).cap = s.cap := rfl
@[simp] theorem respond_quill (s : State) (p : Path) (r : Resp) (d : List Word) : (respond s p r d).quill = s.quill := rfl
@[simp] theorem respond_trc (s : State) (p : Path) (r : Resp) (d : List Word) : (respond s p r d).trc = s.trc := rfl
@[simp] theorem respond_tdc (s : State) (p : Path) (r : Resp) (d : List Word) : (respond s p r d).tdc = s.tdc := rfl
@[simp] theorem respond_mem (s : State) (p : Path) (r : Resp) (d : List Word) : (respond s p r d).mem = s.mem := rfl
@[simp] theorem respond_dma (s : State) (p : Path) (r : Resp) (d : List Word) : (respond s p r d).dma = s.dma := rfl
@[simp] theorem respond_dl (s : State) (p : Path) (r : Resp) (d : List Word) : (respond s p r d).dl = s.dl := rfl
@[simp] theorem respond_uart (s : State) (p : Path) (r : Resp) (d : List Word) : (respond s p r d).uart = s.uart := rfl
@[simp] theorem respond_bist (s : State) (p : Path) (r : Resp) (d : List Word) : (respond s p r d).bist = s.bist := rfl
@[simp] theorem respond_mon (s : State) (p : Path) (r : Resp) (d : List Word) : (respond s p r d).mon = s.mon := rfl
@[simp] theorem respond_tap (s : State) (p : Path) (r : Resp) (d : List Word) : (respond s p r d).tap = s.tap := rfl

/-! `setLevel` -/

@[simp] theorem setLevel_pending (s : State) (p : Path) (l : Nat) : (setLevel s p l).pending = s.pending := rfl
@[simp] theorem setLevel_freeCtr (s : State) (p : Path) (l : Nat) : (setLevel s p l).freeCtr = s.freeCtr := rfl
@[simp] theorem setLevel_phase (s : State) (p : Path) (l : Nat) : (setLevel s p l).phase = s.phase := rfl
@[simp] theorem setLevel_regs (s : State) (p : Path) (l : Nat) : (setLevel s p l).regs = s.regs := rfl
@[simp] theorem setLevel_pend (s : State) (p : Path) (l : Nat) : (setLevel s p l).pend = s.pend := rfl
@[simp] theorem setLevel_pwr (s : State) (p : Path) (l : Nat) : (setLevel s p l).pwr = s.pwr := rfl
@[simp] theorem setLevel_surv (s : State) (p : Path) (l : Nat) : (setLevel s p l).surv = s.surv := rfl
@[simp] theorem setLevel_cfg (s : State) (p : Path) (l : Nat) : (setLevel s p l).cfg = s.cfg := rfl
@[simp] theorem setLevel_clk (s : State) (p : Path) (l : Nat) : (setLevel s p l).clk = s.clk := rfl
@[simp] theorem setLevel_nib (s : State) (p : Path) (l : Nat) : (setLevel s p l).nib = s.nib := rfl
@[simp] theorem setLevel_fab (s : State) (p : Path) (l : Nat) : (setLevel s p l).fab = s.fab := rfl
@[simp] theorem setLevel_cap (s : State) (p : Path) (l : Nat) : (setLevel s p l).cap = s.cap := rfl
@[simp] theorem setLevel_quill (s : State) (p : Path) (l : Nat) : (setLevel s p l).quill = s.quill := rfl
@[simp] theorem setLevel_trc (s : State) (p : Path) (l : Nat) : (setLevel s p l).trc = s.trc := rfl
@[simp] theorem setLevel_tdc (s : State) (p : Path) (l : Nat) : (setLevel s p l).tdc = s.tdc := rfl
@[simp] theorem setLevel_mem (s : State) (p : Path) (l : Nat) : (setLevel s p l).mem = s.mem := rfl
@[simp] theorem setLevel_dma (s : State) (p : Path) (l : Nat) : (setLevel s p l).dma = s.dma := rfl
@[simp] theorem setLevel_dl (s : State) (p : Path) (l : Nat) : (setLevel s p l).dl = s.dl := rfl
@[simp] theorem setLevel_uart (s : State) (p : Path) (l : Nat) : (setLevel s p l).uart = s.uart := rfl
@[simp] theorem setLevel_bist (s : State) (p : Path) (l : Nat) : (setLevel s p l).bist = s.bist := rfl
@[simp] theorem setLevel_mon (s : State) (p : Path) (l : Nat) : (setLevel s p l).mon = s.mon := rfl
@[simp] theorem setLevel_tap (s : State) (p : Path) (l : Nat) : (setLevel s p l).tap = s.tap := rfl

/-! Updates of registers alone -/

/-- `t` is `s` but for registers. -/
def RegsOnly (s t : State) : Prop := ∃ r, t = { s with regs := r }

theorem RegsOnly.refl (s : State) : RegsOnly s s := ⟨s.regs, rfl⟩
theorem RegsOnly.setReg {s t : State} (h : RegsOnly s t) (a : Nat) (w : Word) : RegsOnly s (t.setReg a w) := by
  obtain ⟨r, rfl⟩ := h
  exact ⟨_, rfl⟩
theorem RegsOnly.trans {s t u : State} (h : RegsOnly s t) (g : RegsOnly t u) : RegsOnly s u := by
  obtain ⟨r, rfl⟩ := h
  obtain ⟨q, rfl⟩ := g
  exact ⟨q, rfl⟩
theorem RegsOnly.setN {s t : State} (h : RegsOnly s t) (a n : Nat) : RegsOnly s (t.setN a n) := h.setReg a _
theorem RegsOnly.setF {s t : State} (h : RegsOnly s t) (a : Nat) (f : Fld) (v : Nat) : RegsOnly s (t.setF a f v) := h.setReg a _
theorem RegsOnly.set48 {s t : State} (h : RegsOnly s t) (lo hi v : Nat) : RegsOnly s (t.set48 lo hi v) := (h.setN lo _).setN hi _
theorem RegsOnly.irqBit {s t : State} (h : RegsOnly s t) (p i : Nat) : RegsOnly s (t.irqBit p i) := h.setReg _ _

theorem RegsOnly.pending {s t : State} (h : RegsOnly s t) : t.pending = s.pending := by obtain ⟨r, rfl⟩ := h; rfl
theorem RegsOnly.freeCtr {s t : State} (h : RegsOnly s t) : t.freeCtr = s.freeCtr := by obtain ⟨r, rfl⟩ := h; rfl
theorem RegsOnly.phase {s t : State} (h : RegsOnly s t) : t.phase = s.phase := by obtain ⟨r, rfl⟩ := h; rfl
theorem RegsOnly.pend {s t : State} (h : RegsOnly s t) : t.pend = s.pend := by obtain ⟨r, rfl⟩ := h; rfl
theorem RegsOnly.root {s t : State} (h : RegsOnly s t) : t.root = s.root := by obtain ⟨r, rfl⟩ := h; rfl
theorem RegsOnly.pwr {s t : State} (h : RegsOnly s t) : t.pwr = s.pwr := by obtain ⟨r, rfl⟩ := h; rfl
theorem RegsOnly.surv {s t : State} (h : RegsOnly s t) : t.surv = s.surv := by obtain ⟨r, rfl⟩ := h; rfl
theorem RegsOnly.cfg {s t : State} (h : RegsOnly s t) : t.cfg = s.cfg := by obtain ⟨r, rfl⟩ := h; rfl
theorem RegsOnly.clk {s t : State} (h : RegsOnly s t) : t.clk = s.clk := by obtain ⟨r, rfl⟩ := h; rfl
theorem RegsOnly.nib {s t : State} (h : RegsOnly s t) : t.nib = s.nib := by obtain ⟨r, rfl⟩ := h; rfl
theorem RegsOnly.fab {s t : State} (h : RegsOnly s t) : t.fab = s.fab := by obtain ⟨r, rfl⟩ := h; rfl
theorem RegsOnly.cap {s t : State} (h : RegsOnly s t) : t.cap = s.cap := by obtain ⟨r, rfl⟩ := h; rfl
theorem RegsOnly.quill {s t : State} (h : RegsOnly s t) : t.quill = s.quill := by obtain ⟨r, rfl⟩ := h; rfl
theorem RegsOnly.trc {s t : State} (h : RegsOnly s t) : t.trc = s.trc := by obtain ⟨r, rfl⟩ := h; rfl
theorem RegsOnly.tdc {s t : State} (h : RegsOnly s t) : t.tdc = s.tdc := by obtain ⟨r, rfl⟩ := h; rfl
theorem RegsOnly.mem {s t : State} (h : RegsOnly s t) : t.mem = s.mem := by obtain ⟨r, rfl⟩ := h; rfl
theorem RegsOnly.dma {s t : State} (h : RegsOnly s t) : t.dma = s.dma := by obtain ⟨r, rfl⟩ := h; rfl
theorem RegsOnly.dl {s t : State} (h : RegsOnly s t) : t.dl = s.dl := by obtain ⟨r, rfl⟩ := h; rfl
theorem RegsOnly.uart {s t : State} (h : RegsOnly s t) : t.uart = s.uart := by obtain ⟨r, rfl⟩ := h; rfl
theorem RegsOnly.bist {s t : State} (h : RegsOnly s t) : t.bist = s.bist := by obtain ⟨r, rfl⟩ := h; rfl
theorem RegsOnly.mon {s t : State} (h : RegsOnly s t) : t.mon = s.mon := by obtain ⟨r, rfl⟩ := h; rfl
theorem RegsOnly.tap {s t : State} (h : RegsOnly s t) : t.tap = s.tap := by obtain ⟨r, rfl⟩ := h; rfl

theorem recordRefusal_only (s : State) (page : Nat) (p : Path) (a : Nat) (b : Bool) (c : Nat) :
    RegsOnly s (recordRefusal s page p a b c) := (((RegsOnly.refl s).setN _ _).setN _ _).irqBit _ _
theorem logEntry_only (s : State) (p : Path) (a : Nat) (b : Bool) (k : VKind) : RegsOnly s (logEntry s p a b k) :=
  ((((((RegsOnly.refl s).setN _ _).setN _ _).set48 _ _ _).setN _ _).setN _ _).irqBit _ _
theorem clearHaltRecord_only (s : State) : RegsOnly s (clearHaltRecord s) :=
  (((((RegsOnly.refl s).setN _ _).setN _ _).setN _ _).setN _ _).setN _ _

/-! `recordRefusal` -/

@[simp] theorem recordRefusal_pending (s : State) (page : Nat) (p : Path) (a : Nat) (b : Bool) (c : Nat) : (recordRefusal s page p a b c).pending = s.pending := (recordRefusal_only s page p a b c).pending
@[simp] theorem recordRefusal_freeCtr (s : State) (page : Nat) (p : Path) (a : Nat) (b : Bool) (c : Nat) : (recordRefusal s page p a b c).freeCtr = s.freeCtr := (recordRefusal_only s page p a b c).freeCtr
@[simp] theorem recordRefusal_phase (s : State) (page : Nat) (p : Path) (a : Nat) (b : Bool) (c : Nat) : (recordRefusal s page p a b c).phase = s.phase := (recordRefusal_only s page p a b c).phase
@[simp] theorem recordRefusal_pend (s : State) (page : Nat) (p : Path) (a : Nat) (b : Bool) (c : Nat) : (recordRefusal s page p a b c).pend = s.pend := (recordRefusal_only s page p a b c).pend
@[simp] theorem recordRefusal_root (s : State) (page : Nat) (p : Path) (a : Nat) (b : Bool) (c : Nat) : (recordRefusal s page p a b c).root = s.root := (recordRefusal_only s page p a b c).root
@[simp] theorem recordRefusal_pwr (s : State) (page : Nat) (p : Path) (a : Nat) (b : Bool) (c : Nat) : (recordRefusal s page p a b c).pwr = s.pwr := (recordRefusal_only s page p a b c).pwr
@[simp] theorem recordRefusal_surv (s : State) (page : Nat) (p : Path) (a : Nat) (b : Bool) (c : Nat) : (recordRefusal s page p a b c).surv = s.surv := (recordRefusal_only s page p a b c).surv
@[simp] theorem recordRefusal_cfg (s : State) (page : Nat) (p : Path) (a : Nat) (b : Bool) (c : Nat) : (recordRefusal s page p a b c).cfg = s.cfg := (recordRefusal_only s page p a b c).cfg
@[simp] theorem recordRefusal_clk (s : State) (page : Nat) (p : Path) (a : Nat) (b : Bool) (c : Nat) : (recordRefusal s page p a b c).clk = s.clk := (recordRefusal_only s page p a b c).clk
@[simp] theorem recordRefusal_nib (s : State) (page : Nat) (p : Path) (a : Nat) (b : Bool) (c : Nat) : (recordRefusal s page p a b c).nib = s.nib := (recordRefusal_only s page p a b c).nib
@[simp] theorem recordRefusal_fab (s : State) (page : Nat) (p : Path) (a : Nat) (b : Bool) (c : Nat) : (recordRefusal s page p a b c).fab = s.fab := (recordRefusal_only s page p a b c).fab
@[simp] theorem recordRefusal_cap (s : State) (page : Nat) (p : Path) (a : Nat) (b : Bool) (c : Nat) : (recordRefusal s page p a b c).cap = s.cap := (recordRefusal_only s page p a b c).cap
@[simp] theorem recordRefusal_quill (s : State) (page : Nat) (p : Path) (a : Nat) (b : Bool) (c : Nat) : (recordRefusal s page p a b c).quill = s.quill := (recordRefusal_only s page p a b c).quill
@[simp] theorem recordRefusal_trc (s : State) (page : Nat) (p : Path) (a : Nat) (b : Bool) (c : Nat) : (recordRefusal s page p a b c).trc = s.trc := (recordRefusal_only s page p a b c).trc
@[simp] theorem recordRefusal_tdc (s : State) (page : Nat) (p : Path) (a : Nat) (b : Bool) (c : Nat) : (recordRefusal s page p a b c).tdc = s.tdc := (recordRefusal_only s page p a b c).tdc
@[simp] theorem recordRefusal_mem (s : State) (page : Nat) (p : Path) (a : Nat) (b : Bool) (c : Nat) : (recordRefusal s page p a b c).mem = s.mem := (recordRefusal_only s page p a b c).mem
@[simp] theorem recordRefusal_dma (s : State) (page : Nat) (p : Path) (a : Nat) (b : Bool) (c : Nat) : (recordRefusal s page p a b c).dma = s.dma := (recordRefusal_only s page p a b c).dma
@[simp] theorem recordRefusal_dl (s : State) (page : Nat) (p : Path) (a : Nat) (b : Bool) (c : Nat) : (recordRefusal s page p a b c).dl = s.dl := (recordRefusal_only s page p a b c).dl
@[simp] theorem recordRefusal_uart (s : State) (page : Nat) (p : Path) (a : Nat) (b : Bool) (c : Nat) : (recordRefusal s page p a b c).uart = s.uart := (recordRefusal_only s page p a b c).uart
@[simp] theorem recordRefusal_bist (s : State) (page : Nat) (p : Path) (a : Nat) (b : Bool) (c : Nat) : (recordRefusal s page p a b c).bist = s.bist := (recordRefusal_only s page p a b c).bist
@[simp] theorem recordRefusal_mon (s : State) (page : Nat) (p : Path) (a : Nat) (b : Bool) (c : Nat) : (recordRefusal s page p a b c).mon = s.mon := (recordRefusal_only s page p a b c).mon
@[simp] theorem recordRefusal_tap (s : State) (page : Nat) (p : Path) (a : Nat) (b : Bool) (c : Nat) : (recordRefusal s page p a b c).tap = s.tap := (recordRefusal_only s page p a b c).tap

/-! `logViolation` -/

@[simp] theorem logViolation_pending (s : State) (p : Path) (a : Nat) (b : Bool) (k : VKind) : (logViolation s p a b k).pending = s.pending := (logEntry_only s p a b k).pending
@[simp] theorem logViolation_freeCtr (s : State) (p : Path) (a : Nat) (b : Bool) (k : VKind) : (logViolation s p a b k).freeCtr = s.freeCtr := (logEntry_only s p a b k).freeCtr
@[simp] theorem logViolation_phase (s : State) (p : Path) (a : Nat) (b : Bool) (k : VKind) : (logViolation s p a b k).phase = s.phase := (logEntry_only s p a b k).phase
@[simp] theorem logViolation_pend (s : State) (p : Path) (a : Nat) (b : Bool) (k : VKind) : (logViolation s p a b k).pend = s.pend := (logEntry_only s p a b k).pend
@[simp] theorem logViolation_root (s : State) (p : Path) (a : Nat) (b : Bool) (k : VKind) : (logViolation s p a b k).root = { s.root with logSeq := (s.root.logSeq + 1) % 0x10000 } := by
  have h := (logEntry_only s p a b k).root
  simp only [logViolation, h]
@[simp] theorem logViolation_pwr (s : State) (p : Path) (a : Nat) (b : Bool) (k : VKind) : (logViolation s p a b k).pwr = s.pwr := (logEntry_only s p a b k).pwr
@[simp] theorem logViolation_surv (s : State) (p : Path) (a : Nat) (b : Bool) (k : VKind) : (logViolation s p a b k).surv = s.surv := (logEntry_only s p a b k).surv
@[simp] theorem logViolation_cfg (s : State) (p : Path) (a : Nat) (b : Bool) (k : VKind) : (logViolation s p a b k).cfg = s.cfg := (logEntry_only s p a b k).cfg
@[simp] theorem logViolation_clk (s : State) (p : Path) (a : Nat) (b : Bool) (k : VKind) : (logViolation s p a b k).clk = s.clk := (logEntry_only s p a b k).clk
@[simp] theorem logViolation_nib (s : State) (p : Path) (a : Nat) (b : Bool) (k : VKind) : (logViolation s p a b k).nib = s.nib := (logEntry_only s p a b k).nib
@[simp] theorem logViolation_fab (s : State) (p : Path) (a : Nat) (b : Bool) (k : VKind) : (logViolation s p a b k).fab = s.fab := (logEntry_only s p a b k).fab
@[simp] theorem logViolation_cap (s : State) (p : Path) (a : Nat) (b : Bool) (k : VKind) : (logViolation s p a b k).cap = s.cap := (logEntry_only s p a b k).cap
@[simp] theorem logViolation_quill (s : State) (p : Path) (a : Nat) (b : Bool) (k : VKind) : (logViolation s p a b k).quill = s.quill := (logEntry_only s p a b k).quill
@[simp] theorem logViolation_trc (s : State) (p : Path) (a : Nat) (b : Bool) (k : VKind) : (logViolation s p a b k).trc = s.trc := (logEntry_only s p a b k).trc
@[simp] theorem logViolation_tdc (s : State) (p : Path) (a : Nat) (b : Bool) (k : VKind) : (logViolation s p a b k).tdc = s.tdc := (logEntry_only s p a b k).tdc
@[simp] theorem logViolation_mem (s : State) (p : Path) (a : Nat) (b : Bool) (k : VKind) : (logViolation s p a b k).mem = s.mem := (logEntry_only s p a b k).mem
@[simp] theorem logViolation_dma (s : State) (p : Path) (a : Nat) (b : Bool) (k : VKind) : (logViolation s p a b k).dma = s.dma := (logEntry_only s p a b k).dma
@[simp] theorem logViolation_dl (s : State) (p : Path) (a : Nat) (b : Bool) (k : VKind) : (logViolation s p a b k).dl = s.dl := (logEntry_only s p a b k).dl
@[simp] theorem logViolation_uart (s : State) (p : Path) (a : Nat) (b : Bool) (k : VKind) : (logViolation s p a b k).uart = s.uart := (logEntry_only s p a b k).uart
@[simp] theorem logViolation_bist (s : State) (p : Path) (a : Nat) (b : Bool) (k : VKind) : (logViolation s p a b k).bist = s.bist := (logEntry_only s p a b k).bist
@[simp] theorem logViolation_mon (s : State) (p : Path) (a : Nat) (b : Bool) (k : VKind) : (logViolation s p a b k).mon = s.mon := (logEntry_only s p a b k).mon
@[simp] theorem logViolation_tap (s : State) (p : Path) (a : Nat) (b : Bool) (k : VKind) : (logViolation s p a b k).tap = s.tap := (logEntry_only s p a b k).tap

/-! `clearHaltRecord` -/

@[simp] theorem clearHaltRecord_pending (s : State) : (clearHaltRecord s).pending = s.pending := (clearHaltRecord_only s).pending
@[simp] theorem clearHaltRecord_freeCtr (s : State) : (clearHaltRecord s).freeCtr = s.freeCtr := (clearHaltRecord_only s).freeCtr
@[simp] theorem clearHaltRecord_phase (s : State) : (clearHaltRecord s).phase = s.phase := (clearHaltRecord_only s).phase
@[simp] theorem clearHaltRecord_pend (s : State) : (clearHaltRecord s).pend = s.pend := (clearHaltRecord_only s).pend
@[simp] theorem clearHaltRecord_root (s : State) : (clearHaltRecord s).root = s.root := (clearHaltRecord_only s).root
@[simp] theorem clearHaltRecord_pwr (s : State) : (clearHaltRecord s).pwr = s.pwr := (clearHaltRecord_only s).pwr
@[simp] theorem clearHaltRecord_surv (s : State) : (clearHaltRecord s).surv = s.surv := (clearHaltRecord_only s).surv
@[simp] theorem clearHaltRecord_cfg (s : State) : (clearHaltRecord s).cfg = s.cfg := (clearHaltRecord_only s).cfg
@[simp] theorem clearHaltRecord_clk (s : State) : (clearHaltRecord s).clk = s.clk := (clearHaltRecord_only s).clk
@[simp] theorem clearHaltRecord_nib (s : State) : (clearHaltRecord s).nib = s.nib := (clearHaltRecord_only s).nib
@[simp] theorem clearHaltRecord_fab (s : State) : (clearHaltRecord s).fab = s.fab := (clearHaltRecord_only s).fab
@[simp] theorem clearHaltRecord_cap (s : State) : (clearHaltRecord s).cap = s.cap := (clearHaltRecord_only s).cap
@[simp] theorem clearHaltRecord_quill (s : State) : (clearHaltRecord s).quill = s.quill := (clearHaltRecord_only s).quill
@[simp] theorem clearHaltRecord_trc (s : State) : (clearHaltRecord s).trc = s.trc := (clearHaltRecord_only s).trc
@[simp] theorem clearHaltRecord_tdc (s : State) : (clearHaltRecord s).tdc = s.tdc := (clearHaltRecord_only s).tdc
@[simp] theorem clearHaltRecord_mem (s : State) : (clearHaltRecord s).mem = s.mem := (clearHaltRecord_only s).mem
@[simp] theorem clearHaltRecord_dma (s : State) : (clearHaltRecord s).dma = s.dma := (clearHaltRecord_only s).dma
@[simp] theorem clearHaltRecord_dl (s : State) : (clearHaltRecord s).dl = s.dl := (clearHaltRecord_only s).dl
@[simp] theorem clearHaltRecord_uart (s : State) : (clearHaltRecord s).uart = s.uart := (clearHaltRecord_only s).uart
@[simp] theorem clearHaltRecord_bist (s : State) : (clearHaltRecord s).bist = s.bist := (clearHaltRecord_only s).bist
@[simp] theorem clearHaltRecord_mon (s : State) : (clearHaltRecord s).mon = s.mon := (clearHaltRecord_only s).mon
@[simp] theorem clearHaltRecord_tap (s : State) : (clearHaltRecord s).tap = s.tap := (clearHaltRecord_only s).tap

/-! A free value -/

@[simp] theorem free_pending (s : State) (n : Nat) : (s.free n).2.pending = s.pending := rfl
@[simp] theorem free_phase (s : State) (n : Nat) : (s.free n).2.phase = s.phase := rfl
@[simp] theorem free_regs (s : State) (n : Nat) : (s.free n).2.regs = s.regs := rfl
@[simp] theorem free_pend (s : State) (n : Nat) : (s.free n).2.pend = s.pend := rfl
@[simp] theorem free_root (s : State) (n : Nat) : (s.free n).2.root = s.root := rfl
@[simp] theorem free_pwr (s : State) (n : Nat) : (s.free n).2.pwr = s.pwr := rfl
@[simp] theorem free_surv (s : State) (n : Nat) : (s.free n).2.surv = s.surv := rfl
@[simp] theorem free_cfg (s : State) (n : Nat) : (s.free n).2.cfg = s.cfg := rfl
@[simp] theorem free_clk (s : State) (n : Nat) : (s.free n).2.clk = s.clk := rfl
@[simp] theorem free_nib (s : State) (n : Nat) : (s.free n).2.nib = s.nib := rfl
@[simp] theorem free_fab (s : State) (n : Nat) : (s.free n).2.fab = s.fab := rfl
@[simp] theorem free_cap (s : State) (n : Nat) : (s.free n).2.cap = s.cap := rfl
@[simp] theorem free_quill (s : State) (n : Nat) : (s.free n).2.quill = s.quill := rfl
@[simp] theorem free_trc (s : State) (n : Nat) : (s.free n).2.trc = s.trc := rfl
@[simp] theorem free_tdc (s : State) (n : Nat) : (s.free n).2.tdc = s.tdc := rfl
@[simp] theorem free_mem (s : State) (n : Nat) : (s.free n).2.mem = s.mem := rfl
@[simp] theorem free_dma (s : State) (n : Nat) : (s.free n).2.dma = s.dma := rfl
@[simp] theorem free_dl (s : State) (n : Nat) : (s.free n).2.dl = s.dl := rfl
@[simp] theorem free_uart (s : State) (n : Nat) : (s.free n).2.uart = s.uart := rfl
@[simp] theorem free_bist (s : State) (n : Nat) : (s.free n).2.bist = s.bist := rfl
@[simp] theorem free_mon (s : State) (n : Nat) : (s.free n).2.mon = s.mon := rfl
@[simp] theorem free_tap (s : State) (n : Nat) : (s.free n).2.tap = s.tap := rfl

/-! ### Bits -/

theorem bitsOf_lt (n lo w : Nat) : bitsOf n lo w < 2 ^ w := Nat.mod_lt _ (Nat.two_pow_pos w)

theorem bitsOf_testBit (n lo w i : Nat) : (bitsOf n lo w).testBit i = (decide (i < w) && n.testBit (lo + i)) := by
  unfold bitsOf
  rw [Nat.testBit_mod_two_pow, Nat.testBit_div_two_pow, Nat.add_comm]

theorem withBits_split (n lo w v : Nat) :
    withBits n lo w v = n % 2 ^ lo + (v % 2 ^ w) * 2 ^ lo + n / 2 ^ (lo + w) * 2 ^ (lo + w) := by
  unfold withBits bitsOf
  have h1 : n = n / 2 ^ lo * 2 ^ lo + n % 2 ^ lo := (Nat.div_add_mod' n (2 ^ lo)).symm
  have h2 : n / 2 ^ lo = n / 2 ^ lo / 2 ^ w * 2 ^ w + n / 2 ^ lo % 2 ^ w := (Nat.div_add_mod' _ (2 ^ w)).symm
  rw [Nat.div_div_eq_div_mul, ← Nat.pow_add] at h2
  have h3 : n / 2 ^ lo * 2 ^ lo = n / 2 ^ (lo + w) * 2 ^ (lo + w) + n / 2 ^ lo % 2 ^ w * 2 ^ lo := by
    conv => lhs; rw [h2]
    rw [Nat.add_mul, Nat.mul_assoc, ← Nat.pow_add, Nat.add_comm w lo]
  omega

theorem bitsOf_withBits_same (n lo w v : Nat) : bitsOf (withBits n lo w v) lo w = v % 2 ^ w := by
  rw [withBits_split]
  unfold bitsOf
  have hp : 0 < 2 ^ lo := Nat.two_pow_pos lo
  have e : n % 2 ^ lo + v % 2 ^ w * 2 ^ lo + n / 2 ^ (lo + w) * 2 ^ (lo + w) =
      n % 2 ^ lo + (v % 2 ^ w + 2 ^ w * (n / 2 ^ (lo + w))) * 2 ^ lo := by
    rw [Nat.add_mul, Nat.pow_add, Nat.add_assoc]
    congr 2
    rw [Nat.mul_comm (n / _) (2 ^ lo * 2 ^ w), Nat.mul_assoc, Nat.mul_comm (2 ^ lo)]
  rw [e, Nat.add_mul_div_right _ _ hp, Nat.div_eq_of_lt (Nat.mod_lt n hp), Nat.zero_add, Nat.add_mul_mod_self_left,
    Nat.mod_mod]

theorem withBits_testBit (n lo w v i : Nat) :
    (withBits n lo w v).testBit i = if lo ≤ i ∧ i < lo + w then v.testBit (i - lo) else n.testBit i := by
  have hp : n % 2 ^ lo < 2 ^ lo := Nat.mod_lt n (Nat.two_pow_pos lo)
  have hw : n % 2 ^ lo + v % 2 ^ w * 2 ^ lo < 2 ^ (lo + w) := by
    have h := Nat.mod_lt v (Nat.two_pow_pos w)
    have h2 : (v % 2 ^ w + 1) * 2 ^ lo ≤ 2 ^ w * 2 ^ lo := Nat.mul_le_mul_right _ h
    rw [Nat.add_mul, Nat.one_mul, ← Nat.pow_add, Nat.add_comm w lo] at h2
    omega
  rw [withBits_split, Nat.add_comm, Nat.mul_comm (n / 2 ^ (lo + w)), Nat.testBit_two_pow_mul_add _ hw]
  split
  · rw [Nat.add_comm (n % 2 ^ lo), Nat.mul_comm _ (2 ^ lo), Nat.testBit_two_pow_mul_add _ hp]
    split
    · rw [Nat.testBit_mod_two_pow, if_neg (by omega)]
      simp [*]
    · rw [Nat.testBit_mod_two_pow, if_pos (by omega)]
      have : i - lo < w := by omega
      simp [this]
  · rw [Nat.testBit_div_two_pow, if_neg (by omega)]
    congr 1
    omega

theorem bitsOf_withBits_other {n lo w v lo' w' : Nat} (h : lo' + w' ≤ lo ∨ lo + w ≤ lo') :
    bitsOf (withBits n lo w v) lo' w' = bitsOf n lo' w' := by
  apply Nat.eq_of_testBit_eq
  intro i
  rw [bitsOf_testBit, bitsOf_testBit, withBits_testBit]
  by_cases hi : i < w'
  · rw [if_neg (by omega)]
  · simp [hi]

theorem withBits_lt {n lo w v k : Nat} (hn : n < 2 ^ k) (h : lo + w ≤ k) : withBits n lo w v < 2 ^ k := by
  apply Nat.lt_pow_two_of_testBit
  intro i hi
  rw [withBits_testBit, if_neg (by omega)]
  exact Nat.testBit_lt_two_pow (Nat.lt_of_lt_of_le hn (Nat.pow_le_pow_right (by omega) hi))

/-! ### Registers -/

@[simp] theorem reg_setReg_same (s : State) (a : Nat) (w : Word) : (s.setReg a w).reg a = w := by
  simp [State.reg, State.setReg]

@[simp] theorem reg_setReg_other (s : State) {a b : Nat} (w : Word) (h : b ≠ a) : (s.setReg a w).reg b = s.reg b := by
  simp [State.reg, State.setReg, h]

theorem reg_setReg (s : State) (a b : Nat) (w : Word) : (s.setReg a w).reg b = if b = a then w else s.reg b := by
  split
  · simp [*]
  · simp [*]

theorem regN_lt (s : State) (a : Nat) : s.regN a < 2 ^ 32 := (s.reg a).isLt

@[simp] theorem reg_setN_same (s : State) (a n : Nat) : (s.setN a n).reg a = BitVec.ofNat 32 n := by simp [State.setN]
@[simp] theorem reg_setN_other (s : State) {a b : Nat} (n : Nat) (h : b ≠ a) : (s.setN a n).reg b = s.reg b := by
  simp [State.setN, h]
@[simp] theorem regN_setN_same (s : State) (a n : Nat) : (s.setN a n).regN a = n % 2 ^ 32 := by simp [State.regN]

/-- A register reads alike in two states whose register stores are equal. -/
theorem reg_congr {s t : State} (h : s.regs = t.regs) (a : Nat) : s.reg a = t.reg a := by simp only [State.reg, h]
theorem getF_congr {s t : State} (h : s.regs = t.regs) (a : Nat) (f : Fld) : s.getF a f = t.getF a f := by
  simp only [State.getF, reg_congr h]

@[simp] theorem reg_setF_other (s : State) {a b : Nat} (f : Fld) (v : Nat) (h : b ≠ a) :
    (s.setF a f v).reg b = s.reg b := by simp [State.setF, h]

theorem getF_setF_same (s : State) (a : Nat) (f : Fld) (v : Nat) (h : f.lo + f.w ≤ 32) :
    (s.setF a f v).getF a f = v % 2 ^ f.w := by
  simp only [State.getF, State.setF, reg_setReg_same, BitVec.toNat_ofNat,
    Nat.mod_eq_of_lt (withBits_lt (s.reg a).isLt h), bitsOf_withBits_same]

theorem getF_setF_field (s : State) (a : Nat) {f g : Fld} (v : Nat) (h : f.lo + f.w ≤ 32)
    (d : g.lo + g.w ≤ f.lo ∨ f.lo + f.w ≤ g.lo) : (s.setF a f v).getF a g = s.getF a g := by
  simp only [State.getF, State.setF, reg_setReg_same, BitVec.toNat_ofNat,
    Nat.mod_eq_of_lt (withBits_lt (s.reg a).isLt h), bitsOf_withBits_other d]

theorem getF_setF_other (s : State) {a b : Nat} (f g : Fld) (v : Nat) (h : b ≠ a) :
    (s.setF a f v).getF b g = s.getF b g := by simp [State.getF, h]

@[simp] theorem reg_irqBit_other (s : State) {p i b : Nat} (h : b ≠ R.PAGE_IRQ_RAW p) : (s.irqBit p i).reg b = s.reg b := by
  simp [State.irqBit, State.irq, h]

theorem reg_irqBit_same (s : State) (p i : Nat) :
    (s.irqBit p i).reg (R.PAGE_IRQ_RAW p) = s.reg (R.PAGE_IRQ_RAW p) ||| BitVec.ofNat 32 (2 ^ i) := by
  simp [State.irqBit, State.irq]

/-- The bit that an event sets in IRQ_RAW is set after it. -/
theorem irqBit_sets (s : State) (p : Nat) {i : Nat} (h : i < 32) : ((s.irqBit p i).reg (R.PAGE_IRQ_RAW p)).getLsbD i = true := by
  rw [reg_irqBit_same, BitVec.getLsbD_or, BitVec.getLsbD_ofNat, Nat.testBit_two_pow_self]
  simp [h]

/-- A register store cut down to the addresses that `p` picks. -/
theorem tabGet_filter_regs (m : Tab Word) (p : Nat → Bool) (a : Nat) :
    tabGet resetOf (m.filter (fun e => p e.1)) a = if p a then tabGet resetOf m a else resetOf a := by
  induction m with
  | nil => simp [tabGet]
  | cons e m ih =>
    obtain ⟨j, v⟩ := e
    by_cases h : p j = true
    · rw [List.filter_cons_of_pos (by exact h)]
      by_cases ha : a = j
      · subst ha; simp [tabGet, h]
      · simp [tabGet, ha, ih]
    · rw [List.filter_cons_of_neg (by exact h), ih]
      by_cases ha : a = j
      · subst ha; simp [h]
      · simp [tabGet, ha]

/-- An event that can come about has its effect. -/
theorem whenCan_of {s : State} {b : Bool} {t : State} (h : b = true) : whenCan s b t = .next t := by
  rw [whenCan, if_pos h]

/-- An event that cannot come about leaves the state. -/
theorem whenCan_not {s : State} {b : Bool} {t : State} (h : b = false) : whenCan s b t = .next s := by
  rw [whenCan, h]; rfl

/-! ### Frames of registers -/

theorem regsKept.refl (P : Nat → Prop) (s : State) : regsKept P s s := fun _ _ => rfl
theorem regsKept.of_regs {P : Nat → Prop} {s t u : State} (h : regsKept P s t) (e : u.regs = t.regs) : regsKept P s u :=
  fun a ha => (reg_congr e a).trans (h a ha)
theorem regsKept.trans {P : Nat → Prop} {s t u : State} (h : regsKept P s t) (g : regsKept P t u) : regsKept P s u :=
  fun a ha => (g a ha).trans (h a ha)
theorem regsKept.mono {P Q : Nat → Prop} {s t : State} (h : regsKept P s t) (g : ∀ a, P a → Q a) : regsKept Q s t :=
  fun a ha => h a (fun hp => ha (g a hp))
theorem regsKept.setReg {P : Nat → Prop} {s t : State} (h : regsKept P s t) {a : Nat} (ha : P a) (w : Word) :
    regsKept P s (t.setReg a w) := fun b hb => by
  rw [reg_setReg_other _ _ (by rintro rfl; exact hb ha)]; exact h b hb
theorem regsKept.setN {P : Nat → Prop} {s t : State} (h : regsKept P s t) {a : Nat} (ha : P a) (n : Nat) :
    regsKept P s (t.setN a n) := h.setReg ha _
theorem regsKept.setF {P : Nat → Prop} {s t : State} (h : regsKept P s t) {a : Nat} (ha : P a) (f : Fld) (v : Nat) :
    regsKept P s (t.setF a f v) := h.setReg ha _
theorem regsKept.satF {P : Nat → Prop} {s t : State} (h : regsKept P s t) {a : Nat} (ha : P a) (f : Fld) (k : Nat) :
    regsKept P s (t.satF a f k) := h.setF ha _ _
theorem regsKept.wrapF {P : Nat → Prop} {s t : State} (h : regsKept P s t) {a : Nat} (ha : P a) (f : Fld) (k : Nat) :
    regsKept P s (t.wrapF a f k) := h.setF ha _ _
theorem regsKept.set48 {P : Nat → Prop} {s t : State} (h : regsKept P s t) {lo hi : Nat} (hl : P lo) (hh : P hi) (v : Nat) :
    regsKept P s (t.set48 lo hi v) := (h.setN hl _).setN hh _
theorem regsKept.irqBit {P : Nat → Prop} {s t : State} (h : regsKept P s t) {p : Nat} (hp : P (R.PAGE_IRQ_RAW p)) (i : Nat) :
    regsKept P s (t.irqBit p i) := h.setReg hp _
theorem regsKept.setMapBit {P : Nat → Prop} {s t : State} (h : regsKept P s t) {a n i : Nat} (ha : P (a + n * (i / 32)))
    (v : Bool) : regsKept P s (t.setMapBit a n i v) := h.setF ha _ _
theorem regsKept.ite {P : Nat → Prop} {s t u : State} {c : Prop} [Decidable c] (h : regsKept P s t) (g : regsKept P s u) :
    regsKept P s (if c then t else u) := by split <;> assumption
theorem regsKept.foldl {P : Nat → Prop} {α : Type} {g : State → α → State} (h : ∀ s a, regsKept P s (g s a)) (l : List α)
    (s : State) : regsKept P s (l.foldl g s) := by
  induction l generalizing s with
  | nil => exact .refl P s
  | cons a l ih => exact (h s a).trans (ih (g s a))

/-! ### Responses and levels -/

/-- The last response on a path. -/
theorem resp_respond (s : State) (p q : Path) (r : Resp) (d : List Word) :
    tabGet (fun _ => Resp.none) (respond s p r d).root.resp q.code =
      if q = p then r else tabGet (fun _ => Resp.none) s.root.resp q.code := by
  cases p <;> cases q <;> simp [respond, Path.code]

theorem level_setLevel (s : State) (p q : Path) (l : Nat) : levelOf (setLevel s p l) q = if q = p then l else levelOf s q := by
  cases p <;> cases q <;> simp [setLevel, levelOf, Path.code]

end Sys2Proof.Machine
end

