-- ==== Sys2Proof/Laws/Access.lean ====
section
/-! SUPPORT. What the admission of a request changes, and what a served access comes to: one lemma for a write that is
performed, one for a write that is a violation, one for a read. -/

namespace Sys2Proof.Machine

/-! ### Time -/

@[simp] theorem tick_pending (s : State) : (tick s).pending = s.pending := by
  unfold tick; dsimp only; split <;> split <;> rfl
@[simp] theorem tick_freeCtr (s : State) : (tick s).freeCtr = s.freeCtr := by
  unfold tick; dsimp only; split <;> split <;> rfl
@[simp] theorem tick_phase (s : State) : (tick s).phase = s.phase := by
  unfold tick; dsimp only; split <;> split <;> rfl
@[simp] theorem tick_regs (s : State) : (tick s).regs = s.regs := by
  unfold tick; dsimp only; split <;> split <;> rfl
@[simp] theorem tick_pend (s : State) : (tick s).pend = s.pend := by
  unfold tick; dsimp only; split <;> split <;> rfl
@[simp] theorem tick_pwr (s : State) : (tick s).pwr = s.pwr := by
  unfold tick; dsimp only; split <;> split <;> rfl
@[simp] theorem tick_surv (s : State) : (tick s).surv = s.surv := by
  unfold tick; dsimp only; split <;> split <;> rfl
@[simp] theorem tick_cfg (s : State) : (tick s).cfg = s.cfg := by
  unfold tick; dsimp only; split <;> split <;> rfl
@[simp] theorem tick_clk (s : State) : (tick s).clk = s.clk := by
  unfold tick; dsimp only; split <;> split <;> rfl
@[simp] theorem tick_nib (s : State) : (tick s).nib = s.nib := by
  unfold tick; dsimp only; split <;> split <;> rfl
@[simp] theorem tick_fab (s : State) : (tick s).fab = s.fab := by
  unfold tick; dsimp only; split <;> split <;> rfl
@[simp] theorem tick_quill (s : State) : (tick s).quill = s.quill := by
  unfold tick; dsimp only; split <;> split <;> rfl
@[simp] theorem tick_trc (s : State) : (tick s).trc = s.trc := by
  unfold tick; dsimp only; split <;> split <;> rfl
@[simp] theorem tick_mem (s : State) : (tick s).mem = s.mem := by
  unfold tick; dsimp only; split <;> split <;> rfl
@[simp] theorem tick_dma (s : State) : (tick s).dma = s.dma := by
  unfold tick; dsimp only; split <;> split <;> rfl
@[simp] theorem tick_dl (s : State) : (tick s).dl = s.dl := by
  unfold tick; dsimp only; split <;> split <;> rfl
@[simp] theorem tick_uart (s : State) : (tick s).uart = s.uart := by
  unfold tick; dsimp only; split <;> split <;> rfl
@[simp] theorem tick_bist (s : State) : (tick s).bist = s.bist := by
  unfold tick; dsimp only; split <;> split <;> rfl
@[simp] theorem tick_mon (s : State) : (tick s).mon = s.mon := by
  unfold tick; dsimp only; split <;> split <;> rfl
@[simp] theorem tick_tap (s : State) : (tick s).tap = s.tap := by
  unfold tick; dsimp only; split <;> split <;> rfl

@[simp] theorem ticks_pending (n : Nat) (s : State) : (ticks n s).pending = s.pending := by
  induction n generalizing s with
  | zero => rfl
  | succ n ih => rw [ticks, ih, tick_pending]
@[simp] theorem ticks_freeCtr (n : Nat) (s : State) : (ticks n s).freeCtr = s.freeCtr := by
  induction n generalizing s with
  | zero => rfl
  | succ n ih => rw [ticks, ih, tick_freeCtr]
@[simp] theorem ticks_phase (n : Nat) (s : State) : (ticks n s).phase = s.phase := by
  induction n generalizing s with
  | zero => rfl
  | succ n ih => rw [ticks, ih, tick_phase]
@[simp] theorem ticks_regs (n : Nat) (s : State) : (ticks n s).regs = s.regs := by
  induction n generalizing s with
  | zero => rfl
  | succ n ih => rw [ticks, ih, tick_regs]
@[simp] theorem ticks_pend (n : Nat) (s : State) : (ticks n s).pend = s.pend := by
  induction n generalizing s with
  | zero => rfl
  | succ n ih => rw [ticks, ih, tick_pend]
@[simp] theorem ticks_pwr (n : Nat) (s : State) : (ticks n s).pwr = s.pwr := by
  induction n generalizing s with
  | zero => rfl
  | succ n ih => rw [ticks, ih, tick_pwr]
@[simp] theorem ticks_surv (n : Nat) (s : State) : (ticks n s).surv = s.surv := by
  induction n generalizing s with
  | zero => rfl
  | succ n ih => rw [ticks, ih, tick_surv]
@[simp] theorem ticks_cfg (n : Nat) (s : State) : (ticks n s).cfg = s.cfg := by
  induction n generalizing s with
  | zero => rfl
  | succ n ih => rw [ticks, ih, tick_cfg]
@[simp] theorem ticks_clk (n : Nat) (s : State) : (ticks n s).clk = s.clk := by
  induction n generalizing s with
  | zero => rfl
  | succ n ih => rw [ticks, ih, tick_clk]
@[simp] theorem ticks_nib (n : Nat) (s : State) : (ticks n s).nib = s.nib := by
  induction n generalizing s with
  | zero => rfl
  | succ n ih => rw [ticks, ih, tick_nib]
@[simp] theorem ticks_fab (n : Nat) (s : State) : (ticks n s).fab = s.fab := by
  induction n generalizing s with
  | zero => rfl
  | succ n ih => rw [ticks, ih, tick_fab]
@[simp] theorem ticks_quill (n : Nat) (s : State) : (ticks n s).quill = s.quill := by
  induction n generalizing s with
  | zero => rfl
  | succ n ih => rw [ticks, ih, tick_quill]
@[simp] theorem ticks_trc (n : Nat) (s : State) : (ticks n s).trc = s.trc := by
  induction n generalizing s with
  | zero => rfl
  | succ n ih => rw [ticks, ih, tick_trc]
@[simp] theorem ticks_mem (n : Nat) (s : State) : (ticks n s).mem = s.mem := by
  induction n generalizing s with
  | zero => rfl
  | succ n ih => rw [ticks, ih, tick_mem]
@[simp] theorem ticks_dma (n : Nat) (s : State) : (ticks n s).dma = s.dma := by
  induction n generalizing s with
  | zero => rfl
  | succ n ih => rw [ticks, ih, tick_dma]
@[simp] theorem ticks_dl (n : Nat) (s : State) : (ticks n s).dl = s.dl := by
  induction n generalizing s with
  | zero => rfl
  | succ n ih => rw [ticks, ih, tick_dl]
@[simp] theorem ticks_uart (n : Nat) (s : State) : (ticks n s).uart = s.uart := by
  induction n generalizing s with
  | zero => rfl
  | succ n ih => rw [ticks, ih, tick_uart]
@[simp] theorem ticks_bist (n : Nat) (s : State) : (ticks n s).bist = s.bist := by
  induction n generalizing s with
  | zero => rfl
  | succ n ih => rw [ticks, ih, tick_bist]
@[simp] theorem ticks_mon (n : Nat) (s : State) : (ticks n s).mon = s.mon := by
  induction n generalizing s with
  | zero => rfl
  | succ n ih => rw [ticks, ih, tick_mon]
@[simp] theorem ticks_tap (n : Nat) (s : State) : (ticks n s).tap = s.tap := by
  induction n generalizing s with
  | zero => rfl
  | succ n ih => rw [ticks, ih, tick_tap]

/-- An oscillator cycle counts in the timestamp and changes nothing else of the root (R127). -/
theorem tick_root (s : State) : (tick s).root = { s.root with ts := wrapAdd 48 s.root.ts 1 } := by
  unfold tick; dsimp only

theorem ticks_root (n : Nat) (s : State) : ∃ t, (ticks n s).root = { s.root with ts := t } := by
  induction n generalizing s with
  | zero => exact ⟨s.root.ts, rfl⟩
  | succ n ih =>
    obtain ⟨t, h⟩ := ih (tick s)
    rw [tick_root] at h
    exact ⟨t, h⟩

/-! ### Admission of a request (R114) -/

@[simp] theorem enterSlot_pending (s : State) (p : Path) : (enterSlot s p).pending = s.pending := by
  unfold enterSlot openSlot; repeat' split
  all_goals simp
@[simp] theorem enterSlot_freeCtr (s : State) (p : Path) : (enterSlot s p).freeCtr = s.freeCtr := by
  unfold enterSlot openSlot; repeat' split
  all_goals simp
@[simp] theorem enterSlot_phase (s : State) (p : Path) : (enterSlot s p).phase = s.phase := by
  unfold enterSlot openSlot; repeat' split
  all_goals simp
@[simp] theorem enterSlot_regs (s : State) (p : Path) : (enterSlot s p).regs = s.regs := by
  unfold enterSlot openSlot; repeat' split
  all_goals simp
@[simp] theorem enterSlot_pend (s : State) (p : Path) : (enterSlot s p).pend = s.pend := by
  unfold enterSlot openSlot; repeat' split
  all_goals simp
@[simp] theorem enterSlot_pwr (s : State) (p : Path) : (enterSlot s p).pwr = s.pwr := by
  unfold enterSlot openSlot; repeat' split
  all_goals simp
@[simp] theorem enterSlot_surv (s : State) (p : Path) : (enterSlot s p).surv = s.surv := by
  unfold enterSlot openSlot; repeat' split
  all_goals simp
@[simp] theorem enterSlot_cfg (s : State) (p : Path) : (enterSlot s p).cfg = s.cfg := by
  unfold enterSlot openSlot; repeat' split
  all_goals simp
@[simp] theorem enterSlot_clk (s : State) (p : Path) : (enterSlot s p).clk = s.clk := by
  unfold enterSlot openSlot; repeat' split
  all_goals simp
@[simp] theorem enterSlot_nib (s : State) (p : Path) : (enterSlot s p).nib = s.nib := by
  unfold enterSlot openSlot; repeat' split
  all_goals simp
@[simp] theorem enterSlot_fab (s : State) (p : Path) : (enterSlot s p).fab = s.fab := by
  unfold enterSlot openSlot; repeat' split
  all_goals simp
@[simp] theorem enterSlot_quill (s : State) (p : Path) : (enterSlot s p).quill = s.quill := by
  unfold enterSlot openSlot; repeat' split
  all_goals simp
@[simp] theorem enterSlot_trc (s : State) (p : Path) : (enterSlot s p).trc = s.trc := by
  unfold enterSlot openSlot; repeat' split
  all_goals simp
@[simp] theorem enterSlot_mem (s : State) (p : Path) : (enterSlot s p).mem = s.mem := by
  unfold enterSlot openSlot; repeat' split
  all_goals simp
@[simp] theorem enterSlot_dma (s : State) (p : Path) : (enterSlot s p).dma = s.dma := by
  unfold enterSlot openSlot; repeat' split
  all_goals simp
@[simp] theorem enterSlot_dl (s : State) (p : Path) : (enterSlot s p).dl = s.dl := by
  unfold enterSlot openSlot; repeat' split
  all_goals simp
@[simp] theorem enterSlot_uart (s : State) (p : Path) : (enterSlot s p).uart = s.uart := by
  unfold enterSlot openSlot; repeat' split
  all_goals simp
@[simp] theorem enterSlot_bist (s : State) (p : Path) : (enterSlot s p).bist = s.bist := by
  unfold enterSlot openSlot; repeat' split
  all_goals simp
@[simp] theorem enterSlot_mon (s : State) (p : Path) : (enterSlot s p).mon = s.mon := by
  unfold enterSlot openSlot; repeat' split
  all_goals simp
@[simp] theorem enterSlot_tap (s : State) (p : Path) : (enterSlot s p).tap = s.tap := by
  unfold enterSlot openSlot; repeat' split
  all_goals simp

/-- Of the root only the timestamp and the slot move. -/
theorem enterSlot_root (s : State) (p : Path) : ∃ t n m l,
    (enterSlot s p).root = { s.root with ts := t, slot := n, slotTop := m, slotWrites := l } := by
  have key : ∀ n, ∃ t k m l,
      (openSlot (ticks n s) p).root = { s.root with ts := t, slot := k, slotTop := m, slotWrites := l } := fun n => by
    obtain ⟨t, h⟩ := ticks_root n s
    exact ⟨t, t / 4, p.code + 1, [], by simp [openSlot, h]⟩
  unfold enterSlot
  split
  · exact key _
  · split
    · exact key 0
    · split
      · exact key 4
      · exact ⟨s.root.ts, s.root.slot, p.code + 1, s.root.slotWrites, rfl⟩

@[simp] theorem enterSlot_root_levels (s : State) (p : Path) : (enterSlot s p).root.levels = s.root.levels := by
  obtain ⟨_, _, _, _, h⟩ := enterSlot_root s p
  rw [h]
@[simp] theorem enterSlot_root_latches (s : State) (p : Path) : (enterSlot s p).root.latches = s.root.latches := by
  obtain ⟨_, _, _, _, h⟩ := enterSlot_root s p
  rw [h]
@[simp] theorem enterSlot_root_resp (s : State) (p : Path) : (enterSlot s p).root.resp = s.root.resp := by
  obtain ⟨_, _, _, _, h⟩ := enterSlot_root s p
  rw [h]
@[simp] theorem enterSlot_root_data (s : State) (p : Path) : (enterSlot s p).root.data = s.root.data := by
  obtain ⟨_, _, _, _, h⟩ := enterSlot_root s p
  rw [h]
@[simp] theorem enterSlot_root_arm (s : State) (p : Path) : (enterSlot s p).root.arm = s.root.arm := by
  obtain ⟨_, _, _, _, h⟩ := enterSlot_root s p
  rw [h]
@[simp] theorem enterSlot_root_resetReq (s : State) (p : Path) : (enterSlot s p).root.resetReq = s.root.resetReq := by
  obtain ⟨_, _, _, _, h⟩ := enterSlot_root s p
  rw [h]
@[simp] theorem enterSlot_root_cPhase (s : State) (p : Path) : (enterSlot s p).root.cPhase = s.root.cPhase := by
  obtain ⟨_, _, _, _, h⟩ := enterSlot_root s p
  rw [h]
@[simp] theorem enterSlot_root_cPages (s : State) (p : Path) : (enterSlot s p).root.cPages = s.root.cPages := by
  obtain ⟨_, _, _, _, h⟩ := enterSlot_root s p
  rw [h]
@[simp] theorem enterSlot_root_cWait (s : State) (p : Path) : (enterSlot s p).root.cWait = s.root.cWait := by
  obtain ⟨_, _, _, _, h⟩ := enterSlot_root s p
  rw [h]
@[simp] theorem enterSlot_root_cApply (s : State) (p : Path) : (enterSlot s p).root.cApply = s.root.cApply := by
  obtain ⟨_, _, _, _, h⟩ := enterSlot_root s p
  rw [h]
@[simp] theorem enterSlot_root_hspStatus (s : State) (p : Path) : (enterSlot s p).root.hspStatus = s.root.hspStatus := by
  obtain ⟨_, _, _, _, h⟩ := enterSlot_root s p
  rw [h]
@[simp] theorem enterSlot_root_hspIndex (s : State) (p : Path) : (enterSlot s p).root.hspIndex = s.root.hspIndex := by
  obtain ⟨_, _, _, _, h⟩ := enterSlot_root s p
  rw [h]

@[simp] theorem enterSlot_reg (s : State) (p : Path) (a : Nat) : (enterSlot s p).reg a = s.reg a := by simp [State.reg]
@[simp] theorem enterSlot_regN (s : State) (p : Path) (a : Nat) : (enterSlot s p).regN a = s.regN a := by simp [State.regN]
@[simp] theorem enterSlot_getF (s : State) (p : Path) (a : Nat) (f : Fld) : (enterSlot s p).getF a f = s.getF a f := by
  simp [State.getF]
@[simp] theorem enterSlot_flag (s : State) (p : Path) (a : Nat) (f : Fld) : (enterSlot s p).flag a f = s.flag a f := by
  simp [State.flag]
@[simp] theorem enterSlot_staged (s : State) (p : Path) (a : Nat) : (enterSlot s p).staged a = s.staged a := by
  simp [State.staged]
@[simp] theorem enterSlot_mapBit (s : State) (p : Path) (a n i : Nat) : (enterSlot s p).mapBit a n i = s.mapBit a n i := by
  simp [State.mapBit]
@[simp] theorem enterSlot_levelOf (s : State) (p q : Path) : levelOf (enterSlot s p) q = levelOf s q := by simp [levelOf]
@[simp] theorem enterSlot_effLevel (s : State) (p q : Path) : effLevel (enterSlot s p) q = effLevel s q := by simp [effLevel]
@[simp] theorem enterSlot_inRun (s : State) (p : Path) : inRun (enterSlot s p) = inRun s := by simp [inRun]
@[simp] theorem enterSlot_domSt (s : State) (p : Path) (d : Nat) : domSt (enterSlot s p) d = domSt s d := by simp [domSt]
@[simp] theorem enterSlot_domOn (s : State) (p : Path) (d : Nat) : domOn (enterSlot s p) d = domOn s d := by simp [domOn]
@[simp] theorem enterSlot_domPdOff (s : State) (p : Path) (d : Nat) : domPdOff (enterSlot s p) d = domPdOff s d := by
  simp [domPdOff]
@[simp] theorem enterSlot_pageOff (s : State) (p : Path) (g : Nat) : pageOff (enterSlot s p) g = pageOff s g := by
  simp [pageOff]
@[simp] theorem enterSlot_pageUnderTest (s : State) (p : Path) (g : Nat) :
    pageUnderTest (enterSlot s p) g = pageUnderTest s g := by simp [pageUnderTest]
@[simp] theorem enterSlot_pageWedged (s : State) (p : Path) (g : Nat) : pageWedged (enterSlot s p) g = pageWedged s g := by
  simp [pageWedged]
@[simp] theorem enterSlot_stageEn (s : State) (p : Path) (g : Nat) : stageEn (enterSlot s p) g = stageEn s g := by
  simp [stageEn]
@[simp] theorem enterSlot_inCommit (s : State) (p : Path) (g : Nat) : inCommit (enterSlot s p) g = inCommit s g := by
  simp [inCommit]
@[simp] theorem enterSlot_laneHeld (s : State) (p : Path) (n : Nat) : laneHeld (enterSlot s p) n = laneHeld s n := by
  simp [laneHeld]
@[simp] theorem enterSlot_steepHolds (s : State) (p : Path) (q : Option Path) (k : PageKind) (i : Nat) :
    steepHolds (enterSlot s p) q k i = steepHolds s q k i := by simp [steepHolds]
@[simp] theorem enterSlot_devViolation (s : State) (p q : Path) (a : Nat) (w : Option Word) :
    devViolation (enterSlot s p) q a w = devViolation s q a w := by simp [devViolation]

@[simp] theorem enterSlot_prepOff (s : State) (p : Path) : prepOff (enterSlot s p) = prepOff s := by
  funext d
  simp [prepOff, prepared, domStaged, State.stagedF]

/-! ### Served accesses -/

/-- A write that the root accepts and the block performs. -/
theorem hostWrite_performed {p : Path} {a : Nat} {w : Word} {q : Option Bool} {s u : State} {k : PageKind}
    {i : Nat} {fs : List FieldRow} (h : accepts s p a w = true) (hk : pageOf (a / 0x1000) = some (k, i))
    (hf : regFields a = some fs) (hu : performWrite (enterSlot s p) p (a / 0x1000) k i a w fs q = .done u) :
    hostWrite p a w q s = .next (written u p a) := by
  simp only [accepts, Bool.and_eq_true, Bool.not_eq_true', Option.isNone_iff_eq_none] at h
  obtain ⟨⟨⟨⟨⟨⟨h1, h2⟩, h3⟩, h4⟩, h5⟩, -⟩, -⟩ := h
  simp [hostWrite, whenCan, h1, hostWriteOp, h2, h3, devWrite, h4, h5, hk, hf, hu, written]

/-- A write that the root leaves to the block: neither a common register, nor a staged one, nor one of the root's own. -/
theorem performWrite_block {s : State} {p : Path} {page : Nat} {k : PageKind} {i a : Nat} {w : Word} {fs : List FieldRow}
    (h : steepHolds s (some p) k i = false) (ho : 0x040 ≤ a % 0x1000) (hr : fs.any (fun f => f.ty == .rws) = false)
    (hk : k ≠ .sys ∧ k ≠ .surv ∧ k ≠ .uart) :
    performWrite s p page k i a w fs none =
      orHeld s p a (mergeWord (s.reg a) w fs) (blockWrite s (some p) k i (a % 0x1000) (mergeWord (s.reg a) w fs) true) := by
  unfold performWrite rootWrite
  simp only [h, hr]
  rw [if_neg (by simp), if_neg (by omega), if_neg (by omega), if_neg (by simp), if_neg (by simp [hk]), if_neg (by simp [hk]),
    if_neg (by simp [hk])]
  simp [hk]

/-- What orHeld can answer: a refusal stays (R121); what is performed stays, or is held where it straddles (R136). -/
theorem orHeld_done (s : State) (p : Path) (a : Nat) (m : Word) (t : State) :
    orHeld s p a m (.done t) = .done (if straddles s t then holdCmd s p a m else t) := by
  unfold orHeld; dsimp only; split <;> rfl
@[simp] theorem orHeld_refuse (s : State) (p : Path) (a : Nat) (m : Word) (c : Nat) : orHeld s p a m (.refuse c) = .refuse c := rfl
@[simp] theorem orHeld_refuseAs (s : State) (p : Path) (a : Nat) (m : Word) (t : State) (c : Nat) :
    orHeld s p a m (.refuseAs t c) = .refuseAs t c := rfl

/-- The same, as a command. -/
theorem hostWrite_block {p : Path} {a : Nat} {w : Word} {s u : State} {k : PageKind}
    {i : Nat} {fs : List FieldRow} (h : accepts s p a w = true) (hk : pageOf (a / 0x1000) = some (k, i))
    (hf : regFields a = some fs) (ho : 0x040 ≤ a % 0x1000) (hr : fs.any (fun f => f.ty == .rws) = false)
    (hk' : k ≠ .sys ∧ k ≠ .surv ∧ k ≠ .uart)
    (hu : blockWrite (enterSlot s p) (some p) k i (a % 0x1000) (mergeWord (s.reg a) w fs) true = .done u) :
    hostWrite p a w none s = .next (written u p a) := by
  refine hostWrite_performed h hk hf ?_
  have hroot : rootWrite (enterSlot s p) p k (a % 0x1000) w = none := by simp [rootWrite, hk']
  simp only [accepts, heldBack, hk, hf, hr, hu, hroot, decide_eq_true ho, Bool.and_eq_true, Bool.not_eq_true', Bool.not_false,
    Bool.true_and, Option.isNone_none, beq_eq_false_iff_ne.mpr hk'.2.2, Bool.false_and] at h
  rw [performWrite_block (by rw [enterSlot_steepHolds]; exact h.1.2) ho hr hk', enterSlot_reg, hu, orHeld_done, h.2]
  rfl

/-- A write that the root accepts and the block refuses (R121). -/
theorem hostWrite_refused {p : Path} {a c : Nat} {w : Word} {q : Option Bool} {s : State} {k : PageKind}
    {i : Nat} {fs : List FieldRow} (h : accepts s p a w = true) (hk : pageOf (a / 0x1000) = some (k, i))
    (hf : regFields a = some fs) (hu : performWrite (enterSlot s p) p (a / 0x1000) k i a w fs q = .refuse c) :
    hostWrite p a w q s = .next (answer (recordRefusal (enterSlot s p) (a / 0x1000) p a true c) p .refused []) := by
  simp only [accepts, Bool.and_eq_true, Bool.not_eq_true', Option.isNone_iff_eq_none] at h
  obtain ⟨⟨⟨⟨⟨⟨h1, h2⟩, h3⟩, h4⟩, h5⟩, -⟩, -⟩ := h
  simp [hostWrite, whenCan, h1, hostWriteOp, h2, h3, devWrite, h4, h5, hk, hf, hu]

/-- A write that is a violation (R116). -/
theorem hostWrite_violation {p : Path} {a : Nat} {w : Word} {q : Option Bool} {s : State} {v : VKind}
    (h1 : canIssue s p = true) (h2 : served s p = true) (h3 : inWindow a = false) (h4 : devViolation s p a (some w) = some v) :
    hostWrite p a w q s =
      .next (answer (badKey (logViolation (enterSlot s p) p a true v) p a (some w) v) p (.violation v) []) := by
  simp [hostWrite, whenCan, h1, hostWriteOp, h2, h3, devWrite, h4]

/-- A read that is performed. -/
theorem hostRead_performed {p : Path} {a flip : Nat} {s : State} (h : acceptsRead s p a = true) :
    hostRead p a flip s =
      .next (readDone (readReg (enterSlot s p) p a flip).1 p (readReg (enterSlot s p) p a flip).2) := by
  simp only [acceptsRead, Bool.and_eq_true, Bool.not_eq_true', Option.isNone_iff_eq_none] at h
  obtain ⟨⟨⟨⟨h1, h2⟩, h3⟩, h4⟩, h5⟩ := h
  simp [hostRead, whenCan, h1, hostReadOp, h2, h3, devRead, h4, h5, readDone]

/-! ### The end of a performed access -/

@[simp] theorem answer_pending (s : State) (p : Path) (r : Resp) (d : List Word) : (answer s p r d).pending = s.pending := by
  unfold answer; dsimp only; split
  · split <;> rfl
  · rfl
@[simp] theorem answer_freeCtr (s : State) (p : Path) (r : Resp) (d : List Word) : (answer s p r d).freeCtr = s.freeCtr := by
  unfold answer; dsimp only; split
  · split <;> rfl
  · rfl
@[simp] theorem answer_phase (s : State) (p : Path) (r : Resp) (d : List Word) : (answer s p r d).phase = s.phase := by
  unfold answer; dsimp only; split
  · split <;> rfl
  · rfl
@[simp] theorem answer_pend (s : State) (p : Path) (r : Resp) (d : List Word) : (answer s p r d).pend = s.pend := by
  unfold answer; dsimp only; split
  · split <;> rfl
  · rfl
@[simp] theorem answer_pwr (s : State) (p : Path) (r : Resp) (d : List Word) : (answer s p r d).pwr = s.pwr := by
  unfold answer; dsimp only; split
  · split <;> rfl
  · rfl
@[simp] theorem answer_surv (s : State) (p : Path) (r : Resp) (d : List Word) : (answer s p r d).surv = s.surv := by
  unfold answer; dsimp only; split
  · split <;> rfl
  · rfl
@[simp] theorem answer_cfg (s : State) (p : Path) (r : Resp) (d : List Word) : (answer s p r d).cfg = s.cfg := by
  unfold answer; dsimp only; split
  · split <;> rfl
  · rfl
@[simp] theorem answer_clk (s : State) (p : Path) (r : Resp) (d : List Word) : (answer s p r d).clk = s.clk := by
  unfold answer; dsimp only; split
  · split <;> rfl
  · rfl
@[simp] theorem answer_nib (s : State) (p : Path) (r : Resp) (d : List Word) : (answer s p r d).nib = s.nib := by
  unfold answer; dsimp only; split
  · split <;> rfl
  · rfl
@[simp] theorem answer_cap (s : State) (p : Path) (r : Resp) (d : List Word) : (answer s p r d).cap = s.cap := by
  unfold answer; dsimp only; split
  · split <;> rfl
  · rfl
@[simp] theorem answer_quill (s : State) (p : Path) (r : Resp) (d : List Word) : (answer s p r d).quill = s.quill := by
  unfold answer; dsimp only; split
  · split <;> rfl
  · rfl
@[simp] theorem answer_trc (s : State) (p : Path) (r : Resp) (d : List Word) : (answer s p r d).trc = s.trc := by
  unfold answer; dsimp only; split
  · split <;> rfl
  · rfl
@[simp] theorem answer_tdc (s : State) (p : Path) (r : Resp) (d : List Word) : (answer s p r d).tdc = s.tdc := by
  unfold answer; dsimp only; split
  · split <;> rfl
  · rfl
@[simp] theorem answer_mem (s : State) (p : Path) (r : Resp) (d : List Word) : (answer s p r d).mem = s.mem := by
  unfold answer; dsimp only; split
  · split <;> rfl
  · rfl
@[simp] theorem answer_dma (s : State) (p : Path) (r : Resp) (d : List Word) : (answer s p r d).dma = s.dma := by
  unfold answer; dsimp only; split
  · split <;> rfl
  · rfl
@[simp] theorem answer_dl (s : State) (p : Path) (r : Resp) (d : List Word) : (answer s p r d).dl = s.dl := by
  unfold answer; dsimp only; split
  · split <;> rfl
  · rfl
@[simp] theorem answer_uart (s : State) (p : Path) (r : Resp) (d : List Word) : (answer s p r d).uart = s.uart := by
  unfold answer; dsimp only; split
  · split <;> rfl
  · rfl
@[simp] theorem answer_bist (s : State) (p : Path) (r : Resp) (d : List Word) : (answer s p r d).bist = s.bist := by
  unfold answer; dsimp only; split
  · split <;> rfl
  · rfl
@[simp] theorem answer_mon (s : State) (p : Path) (r : Resp) (d : List Word) : (answer s p r d).mon = s.mon := by
  unfold answer; dsimp only; split
  · split <;> rfl
  · rfl
@[simp] theorem answer_tap (s : State) (p : Path) (r : Resp) (d : List Word) : (answer s p r d).tap = s.tap := by
  unfold answer; dsimp only; split
  · split <;> rfl
  · rfl
@[simp] theorem answer_regs (s : State) (p : Path) (r : Resp) (d : List Word) : (answer s p r d).regs = s.regs := by
  unfold answer; dsimp only; split
  · split <;> rfl
  · rfl
@[simp] theorem noteWrite_pending (s : State) (p : Path) (a : Nat) : (noteWrite s p a).pending = s.pending := by
  unfold noteWrite; dsimp only; split <;> rfl
@[simp] theorem noteWrite_freeCtr (s : State) (p : Path) (a : Nat) : (noteWrite s p a).freeCtr = s.freeCtr := by
  unfold noteWrite; dsimp only; split <;> rfl
@[simp] theorem noteWrite_phase (s : State) (p : Path) (a : Nat) : (noteWrite s p a).phase = s.phase := by
  unfold noteWrite; dsimp only; split <;> rfl
@[simp] theorem noteWrite_pend (s : State) (p : Path) (a : Nat) : (noteWrite s p a).pend = s.pend := by
  unfold noteWrite; dsimp only; split <;> rfl
@[simp] theorem noteWrite_pwr (s : State) (p : Path) (a : Nat) : (noteWrite s p a).pwr = s.pwr := by
  unfold noteWrite; dsimp only; split <;> rfl
@[simp] theorem noteWrite_surv (s : State) (p : Path) (a : Nat) : (noteWrite s p a).surv = s.surv := by
  unfold noteWrite; dsimp only; split <;> rfl
@[simp] theorem noteWrite_cfg (s : State) (p : Path) (a : Nat) : (noteWrite s p a).cfg = s.cfg := by
  unfold noteWrite; dsimp only; split <;> rfl
@[simp] theorem noteWrite_clk (s : State) (p : Path) (a : Nat) : (noteWrite s p a).clk = s.clk := by
  unfold noteWrite; dsimp only; split <;> rfl
@[simp] theorem noteWrite_nib (s : State) (p : Path) (a : Nat) : (noteWrite s p a).nib = s.nib := by
  unfold noteWrite; dsimp only; split <;> rfl
@[simp] theorem noteWrite_fab (s : State) (p : Path) (a : Nat) : (noteWrite s p a).fab = s.fab := by
  unfold noteWrite; dsimp only; split <;> rfl
@[simp] theorem noteWrite_cap (s : State) (p : Path) (a : Nat) : (noteWrite s p a).cap = s.cap := by
  unfold noteWrite; dsimp only; split <;> rfl
@[simp] theorem noteWrite_quill (s : State) (p : Path) (a : Nat) : (noteWrite s p a).quill = s.quill := by
  unfold noteWrite; dsimp only; split <;> rfl
@[simp] theorem noteWrite_trc (s : State) (p : Path) (a : Nat) : (noteWrite s p a).trc = s.trc := by
  unfold noteWrite; dsimp only; split <;> rfl
@[simp] theorem noteWrite_tdc (s : State) (p : Path) (a : Nat) : (noteWrite s p a).tdc = s.tdc := by
  unfold noteWrite; dsimp only; split <;> rfl
@[simp] theorem noteWrite_mem (s : State) (p : Path) (a : Nat) : (noteWrite s p a).mem = s.mem := by
  unfold noteWrite; dsimp only; split <;> rfl
@[simp] theorem noteWrite_dma (s : State) (p : Path) (a : Nat) : (noteWrite s p a).dma = s.dma := by
  unfold noteWrite; dsimp only; split <;> rfl
@[simp] theorem noteWrite_dl (s : State) (p : Path) (a : Nat) : (noteWrite s p a).dl = s.dl := by
  unfold noteWrite; dsimp only; split <;> rfl
@[simp] theorem noteWrite_uart (s : State) (p : Path) (a : Nat) : (noteWrite s p a).uart = s.uart := by
  unfold noteWrite; dsimp only; split <;> rfl
@[simp] theorem noteWrite_bist (s : State) (p : Path) (a : Nat) : (noteWrite s p a).bist = s.bist := by
  unfold noteWrite; dsimp only; split <;> rfl
@[simp] theorem noteWrite_mon (s : State) (p : Path) (a : Nat) : (noteWrite s p a).mon = s.mon := by
  unfold noteWrite; dsimp only; split <;> rfl
@[simp] theorem noteWrite_tap (s : State) (p : Path) (a : Nat) : (noteWrite s p a).tap = s.tap := by
  unfold noteWrite; dsimp only; split <;> rfl

theorem respOf_respond (s : State) (p q : Path) (r : Resp) (d : List Word) :
    respOf (respond s p r d) q = if q = p then r else respOf s q := resp_respond s p q r d
theorem lastData_respond (s : State) (p q : Path) (r : Resp) (d : List Word) :
    lastData (respond s p r d) q = if q = p then d else lastData s q := by
  cases p <;> cases q <;> simp [respond, lastData, Path.code]

theorem answer_root (s : State) (p : Path) (r : Resp) (d : List Word) : (answer s p r d).root = (respond s p r d).root := by
  unfold answer; dsimp only; split
  · split <;> rfl
  · rfl
theorem respOf_answer (s : State) (p q : Path) (r : Resp) (d : List Word) :
    respOf (answer s p r d) q = if q = p then r else respOf s q := by
  rw [← respOf_respond s p q r d]; simp only [respOf, answer_root]
theorem lastData_answer (s : State) (p q : Path) (r : Resp) (d : List Word) :
    lastData (answer s p r d) q = if q = p then d else lastData s q := by
  rw [← lastData_respond s p q r d]; simp only [lastData, answer_root]

/-- A write counts in SYS.WRCOLL alone. -/
theorem noteWrite_reg (s : State) (p : Path) (a : Nat) {b : Nat} (h : b ≠ R.SYS_WRCOLL) : (noteWrite s p a).reg b = s.reg b := by
  unfold noteWrite; dsimp only; split
  · simp [State.satF, State.reg, State.setF, State.setReg, h]
  · rfl

theorem written_reg (u : State) (p : Path) (a : Nat) {b : Nat} (h : b ≠ R.SYS_WRCOLL) : (written u p a).reg b = u.reg b := by
  rw [← noteWrite_reg u p a h]
  simp [written, State.reg]

@[simp] theorem written_pending (u : State) (p : Path) (a : Nat) : (written u p a).pending = u.pending := by simp [written]
@[simp] theorem written_freeCtr (u : State) (p : Path) (a : Nat) : (written u p a).freeCtr = u.freeCtr := by simp [written]
@[simp] theorem written_phase (u : State) (p : Path) (a : Nat) : (written u p a).phase = u.phase := by simp [written]
@[simp] theorem written_pend (u : State) (p : Path) (a : Nat) : (written u p a).pend = u.pend := by simp [written]
@[simp] theorem written_pwr (u : State) (p : Path) (a : Nat) : (written u p a).pwr = u.pwr := by simp [written]
@[simp] theorem written_surv (u : State) (p : Path) (a : Nat) : (written u p a).surv = u.surv := by simp [written]
@[simp] theorem written_cfg (u : State) (p : Path) (a : Nat) : (written u p a).cfg = u.cfg := by simp [written]
@[simp] theorem written_clk (u : State) (p : Path) (a : Nat) : (written u p a).clk = u.clk := by simp [written]
@[simp] theorem written_nib (u : State) (p : Path) (a : Nat) : (written u p a).nib = u.nib := by simp [written]
@[simp] theorem written_cap (u : State) (p : Path) (a : Nat) : (written u p a).cap = u.cap := by simp [written]
@[simp] theorem written_quill (u : State) (p : Path) (a : Nat) : (written u p a).quill = u.quill := by simp [written]
@[simp] theorem written_trc (u : State) (p : Path) (a : Nat) : (written u p a).trc = u.trc := by simp [written]
@[simp] theorem written_tdc (u : State) (p : Path) (a : Nat) : (written u p a).tdc = u.tdc := by simp [written]
@[simp] theorem written_mem (u : State) (p : Path) (a : Nat) : (written u p a).mem = u.mem := by simp [written]
@[simp] theorem written_dma (u : State) (p : Path) (a : Nat) : (written u p a).dma = u.dma := by simp [written]
@[simp] theorem written_dl (u : State) (p : Path) (a : Nat) : (written u p a).dl = u.dl := by simp [written]
@[simp] theorem written_uart (u : State) (p : Path) (a : Nat) : (written u p a).uart = u.uart := by simp [written]
@[simp] theorem written_bist (u : State) (p : Path) (a : Nat) : (written u p a).bist = u.bist := by simp [written]
@[simp] theorem written_mon (u : State) (p : Path) (a : Nat) : (written u p a).mon = u.mon := by simp [written]
@[simp] theorem written_tap (u : State) (p : Path) (a : Nat) : (written u p a).tap = u.tap := by simp [written]

/-! ### Pages -/

/-- No page above the last FI page is implemented (Table 21.1). -/
theorem pageOf_lt {q : Nat} {k : PageKind} {i : Nat} (hq : pageOf q = some (k, i)) : q < 0x130 := by
  refine Nat.lt_of_not_le fun h => ?_
  unfold pageOf at hq
  simp (disch := omega) only [if_neg] at hq
  cases hq
theorem pageOf_mon {q i : Nat} (hq : pageOf q = some (.mon, i)) : q = 0xB0 := by
  have : ∀ q < 0x130, (pageOf q).map (·.1) = some .mon → q = 0xB0 := by decide +kernel
  exact this q (pageOf_lt hq) (by rw [hq]; rfl)
theorem pageOf_surv {q i : Nat} (hq : pageOf q = some (.surv, i)) : q = 3 := by
  have : ∀ q < 0x130, (pageOf q).map (·.1) = some .surv → q = 3 := by decide +kernel
  exact this q (pageOf_lt hq) (by rw [hq]; rfl)


end Sys2Proof.Machine
end

