-- ==== Sys2Proof/Laws/KeptBase.lean ====
section
/-! SUPPORT. How `kept` is computed: of a state written out, of a choice, of a fold, of an outcome. -/

namespace Sys2Proof.Machine

@[simp] theorem kept_mk (a b c d e f g h i j k l m n o p q r t u v w x) :
    kept (State.mk a b c d e f g h i j k l m n o p q r t u v w x) = (a, w.pwh, w.key) := rfl

theorem kept_cfg (s : State) (c) : kept { s with cfg := c } = kept s := rfl
theorem kept_phase (s : State) (p) : kept { s with phase := p } = kept s := rfl
theorem kept_surv (s : State) (v) : kept { s with surv := v } = kept s := rfl

/-- The fields in terms of `kept`, by which an update of other fields is seen to keep them. -/
theorem kept_fields : (∀ s : State, s.pending = (kept s).1) ∧ (∀ s : State, s.mon.pwh = (kept s).2.1) ∧
    ∀ s : State, s.mon.key = (kept s).2.2 := ⟨fun _ => rfl, fun _ => rfl, fun _ => rfl⟩

@[simp] theorem kept_ite {c : Prop} [Decidable c] (a b : State) : kept (if c then a else b) = if c then kept a else kept b :=
  apply_ite kept c a b

theorem kept_if {c : Prop} [Decidable c] {t s : State} (h : kept t = kept s) : kept (if c then t else s) = kept s := by
  split
  · exact h
  · rfl

@[simp] theorem foldl_kept {α : Type} {g : State → α → State} (h : ∀ s a, kept (g s a) = kept s) (l : List α) (s : State) :
    kept (l.foldl g s) = kept s := by
  induction l generalizing s with
  | nil => rfl
  | cons a l ih => rw [List.foldl_cons, ih, h]

@[simp] theorem WOut.st_done (t s : State) : (WOut.done t).st s = t := rfl
@[simp] theorem WOut.st_refuse (c : Nat) (s : State) : (WOut.refuse c).st s = s := rfl
@[simp] theorem WOut.st_refuseAs (t : State) (c : Nat) (s : State) : (WOut.refuseAs t c).st s = t := rfl
@[simp] theorem WOut.st_bad (k : VKind) (s : State) : (WOut.bad k).st s = s := rfl
@[simp] theorem WOut.st_wait (t s : State) : (WOut.wait t).st s = t := rfl

@[simp] theorem outSt_next (t s : State) : outSt (.next t) s = t := rfl
@[simp] theorem outSt_refused (r : Refusal) (s : State) : outSt (.refused r) s = s := rfl
@[simp] theorem outSt_whenCan (b : Bool) (t u s : State) : outSt (whenCan u b t) s = if b then t else u := rfl

end Sys2Proof.Machine
end

