-- ==== Sys2Proof/Laws/Kept.lean ====
section
/-! SUPPORT. What every operation of the model leaves alone: the queue of commands and the one-time-programmable items
(R547). One lemma for each operation and each meaning, in the order of the model's files. -/

namespace Sys2Proof.Machine

@[simp] theorem setReg_kept (s : State) (a : Nat) (w : Word) :
    kept (State.setReg s a w) = kept s := by simp [State.setReg, kept_fields]

@[simp] theorem setF_kept (s : State) (a : Nat) (f : Fld) (v : Nat) :
    kept (State.setF s a f v) = kept s := by simp [State.setF]

@[simp] theorem satF_kept (s : State) (a : Nat) (f : Fld) (k : Nat) :
    kept (State.satF s a f k) = kept s := by simp [State.satF]

@[simp] theorem wrapF_kept (s : State) (a : Nat) (f : Fld) (k : Nat) :
    kept (State.wrapF s a f k) = kept s := by simp [State.wrapF]

@[simp] theorem setPend_kept (s : State) (a : Nat) (w : Option Word) :
    kept (State.setPend s a w) = kept s := by simp [State.setPend, kept_fields]

@[simp] theorem setN_kept (s : State) (a : Nat) (n : Nat) :
    kept (State.setN s a n) = kept s := by simp [State.setN]

@[simp] theorem set48_kept (s : State) (lo : Nat) (hi : Nat) (v : Nat) :
    kept (State.set48 s lo hi v) = kept s := by simp [State.set48]

@[simp] theorem resetPages_kept (s : State) (p : Nat → Bool) :
    kept (State.resetPages s p) = kept s := by simp [State.resetPages, kept_fields]

@[simp] theorem setMapBit_kept (s : State) (a : Nat) (stride : Nat) (i : Nat) (v : Bool) :
    kept (State.setMapBit s a stride i v) = kept s := by simp [State.setMapBit]

@[simp] theorem free_kept (s : State) (n : Nat) :
    kept ((State.free s n).2) = kept s := by simp [State.free, kept_fields]

@[simp] theorem freeBytes_kept (s : State) (n : Nat) :
    kept ((State.freeBytes s n).2) = kept s := by simp [State.freeBytes, kept_fields]

@[simp] theorem irq_kept (s : State) (page : Nat) (bits : Nat) :
    kept (State.irq s page bits) = kept s := by simp [State.irq]

@[simp] theorem irqBit_kept (s : State) (page : Nat) (i : Nat) :
    kept (State.irqBit s page i) = kept s := by simp [State.irqBit]

@[simp] theorem portsTurn_kept (s : State) : kept (portsTurn s) = kept s := by simp [portsTurn, kept_fields]

@[simp] theorem takeSamples_kept (s : State) (b : Tab Bool) (f : Tab Bool) :
    kept (takeSamples s b f) = kept s := by simp [takeSamples, kept_fields]

@[simp] theorem setTb_kept (s : State) (h : Nat) (n : Nat) : kept (setTb s h n) = kept s := by simp [setTb, kept_fields]

@[simp] theorem tbAdvance_kept (s : State) (h : Nat) (n : Nat) :
    kept (tbAdvance s h n) = kept s := by simp [tbAdvance]

@[simp] theorem tbFollows_kept (s : State) (n : Nat) :
    kept (tbFollows s n) = kept s := by simp [tbFollows]

@[simp] theorem tick_kept (s : State) : kept (tick s) = kept s := by simp [tick, kept_fields]

@[simp] theorem ticks_kept (x0 : Nat) (x1 : State) : kept (ticks x0 x1) = kept x1 := by
  fun_induction ticks x0 x1 <;> simp_all

@[simp] theorem openSlot_kept (s : State) (p : Path) : kept (openSlot s p) = kept s := by simp [openSlot, kept_fields]

@[simp] theorem enterSlot_kept (s : State) (p : Path) :
    kept (enterSlot s p) = kept s := by simp [enterSlot, kept_fields]

@[simp] theorem noteWrite_kept (s : State) (p : Path) (a : Nat) :
    kept (noteWrite s p a) = kept s := by simp [noteWrite, kept_fields]

@[simp] theorem setLevel_kept (s : State) (p : Path) (l : Nat) :
    kept (setLevel s p l) = kept s := by simp [setLevel, kept_fields]

@[simp] theorem respond_kept (s : State) (p : Path) (r : Resp) (d : List Word) :
    kept (respond s p r d) = kept s := by simp [respond, kept_fields]

@[simp] theorem logEntry_kept (s : State) (p : Path) (a : Nat) (write : Bool) (k : VKind) :
    kept (logEntry s p a write k) = kept s := by simp [logEntry]

@[simp] theorem logViolation_kept (s : State) (p : Path) (a : Nat) (write : Bool) (k : VKind) :
    kept (logViolation s p a write k) = kept s := by simp [logViolation, kept_fields]

@[simp] theorem recordRefusal_kept (s : State) (page : Nat) (p : Path) (a : Nat) (write : Bool) (code : Nat) :
    kept (recordRefusal s page p a write code) = kept s := by simp [recordRefusal]

@[simp] theorem clearHaltRecord_kept (s : State) :
    kept (clearHaltRecord s) = kept s := by simp [clearHaltRecord]

@[simp] theorem quietEdges_kept (x0 : Nat) (x1 : State) : kept (quietEdges x0 x1) = kept x1 := by
  fun_induction quietEdges x0 x1 with
  | case1 => rfl
  | case2 s n t u ih => exact ih.trans rfl

@[simp] theorem capPass_kept (s : State) (n : Nat) :
    kept (capPass s n) = kept s := by simp [capPass, kept_fields]

@[simp] theorem haltGen_kept (s : State) (g : Nat) : kept (haltGen s g) = kept s := by simp [haltGen]

@[simp] theorem halt_kept (s : State) (cause : Nat) (a0 : Nat) (a1 : Nat) :
    kept (halt s cause a0 a1) = kept s := by simp [halt, kept_fields]

@[simp] theorem beforeHalt_kept (s : State) : kept (beforeHalt s) = kept s := by simp [beforeHalt, kept_fields]

@[simp] theorem alsoCause_kept (s t : State) : kept (alsoCause s t) = kept s := by simp [alsoCause]

theorem orAlso_kept {f : State → Out} {s : State} (h : kept (outSt (f s) s) = kept s) :
    kept (outSt (orAlso f s) s) = kept s := by
  unfold orAlso
  split
  · split
    · rw [outSt_whenCan, kept_ite, alsoCause_kept, ite_self]
    · rfl
  · exact h

@[simp] theorem keepOutside_kept (s : State) : kept (keepOutside s) = kept s := by simp [keepOutside, kept_fields]

@[simp] theorem fullReset_kept (s : State) (causes : Nat) :
    kept (fullReset s causes) = kept s := by simp [fullReset, kept_fields]

@[simp] theorem execPowerOn_kept (s : State) :
    kept (outSt (execPowerOn s) s) = kept s := by simp [execPowerOn, kept_fields]

@[simp] theorem execRailLoss_kept (r : Fin 13) (s : State) :
    kept (outSt (execRailLoss r s) s) = kept s := by simp [execRailLoss, kept_fields]

@[simp] theorem execRstNAssert_kept (s : State) :
    kept (outSt (execRstNAssert s) s) = kept s := by simp [execRstNAssert, kept_fields]

@[simp] theorem execRstNRelease_kept (prog : List (Nat × List Byte)) (s : State) :
    kept (outSt (execRstNRelease prog s) s) = kept s := by simp [execRstNRelease, kept_fields]

@[simp] theorem setCmp_kept (s : State) (n : Nat) (v : Bool) : kept (setCmp s n v) = kept s := by simp [setCmp, kept_fields]

@[simp] theorem senseNib_kept (s : State) (n : Nat) : kept (senseNib s n) = kept s := by simp [senseNib]

@[simp] theorem setCrossed_kept (s : State) (x : Nat) (j : Nat) (v : Nat) :
    kept (setCrossed s x j v) = kept s := by simp [setCrossed, kept_fields]

@[simp] theorem setCrossWait_kept (s : State) (x : Nat) (j : Nat) (q : List Nat) :
    kept (setCrossWait s x j q) = kept s := by simp [setCrossWait, kept_fields]

@[simp] theorem setOut_kept (s : State) (n : Nat) (d : Bool) (e : Bool) :
    kept (setOut s n d e) = kept s := by simp [setOut, kept_fields]

@[simp] theorem loadOut_kept (s : State) (n : Nat) : kept (loadOut s n) = kept s := by
  simp [loadOut]; repeat' split
  all_goals simp_all

@[simp] theorem setRxLine_kept (s : State) (i : Nat) (v : Bool) :
    kept (setRxLine s i v) = kept s := by simp [setRxLine, kept_fields]

@[simp] theorem lineFollows_kept (s : State) (n : Nat) :
    kept (lineFollows s n) = kept s := by simp [lineFollows]

@[simp] theorem refreshLines_kept (s : State) : kept (refreshLines s) = kept s := by simp [refreshLines]

@[simp] theorem takeInput_kept (s : State) (n : Nat) : kept (takeInput s n) = kept s := by simp [takeInput, kept_fields]

@[simp] theorem readBack_kept (s : State) (n : Nat) : kept (readBack s n) = kept s := by simp [readBack]

@[simp] theorem driveOut_kept (s : State) (n : Nat) : kept (driveOut s n) = kept s := by simp [driveOut]

@[simp] theorem followPort_kept (s : State) (n : Nat) : kept (followPort s n) = kept s := by simp [followPort]

@[simp] theorem takeCrossing_kept (s : State) (x : Nat) (j : Nat) (n : Nat) :
    kept (takeCrossing s x j n) = kept s := by simp [takeCrossing]

@[simp] theorem presentPort_kept (s : State) (x : Nat) (j : Nat) : kept (presentPort s x j) = kept s := by
  unfold presentPort
  repeat' split
  all_goals simp

@[simp] theorem sampleNib_kept (s : State) (n : Nat) : kept (sampleNib s n) = kept s := by
  unfold sampleNib; dsimp only; repeat' split
  all_goals simp_all

@[simp] theorem resumeOut_kept (s : State) (n : Nat) : kept (resumeOut s n) = kept s := by
  unfold resumeOut
  repeat' split
  all_goals simp

@[simp] theorem senseBank_kept (s : State) (k : Nat) : kept (senseBank s k) = kept s := by simp [senseBank]

@[simp] theorem refreshBank_kept (s : State) (k : Nat) :
    kept (refreshBank s k) = kept s := by simp [refreshBank]

@[simp] theorem resenseBank_kept (s : State) (k : Nat) : kept (resenseBank s k) = kept s := by simp [resenseBank]

@[simp] theorem resensePads_kept (s : State) :
    kept (resensePads s) = kept s := by simp [resensePads]

@[simp] theorem execRailGood_kept (r : Fin 13) (inLimits : Bool) (s : State) :
    kept (outSt (execRailGood r inLimits s) s) = kept s := by simp [execRailGood, kept_fields]

@[simp] theorem execRailBelowGood_kept (r : Fin 13) (inLimits : Bool) (s : State) :
    kept (outSt (execRailBelowGood r inLimits s) s) = kept s := by simp [execRailBelowGood, kept_fields]

@[simp] theorem execPadLevelChange_kept (n : Fin 336) (mv : Option (Fin 4096)) (either : Bool) (s : State) :
    kept (outSt (execPadLevelChange n mv either s) s) = kept s := by simp [execPadLevelChange, kept_fields]

@[simp] theorem execNibPortChange_kept (x : Fin 48) (j : Fin 64) (d : Bool) (e : Bool) (s : State) :
    kept (outSt (execNibPortChange x j d e s) s) = kept s := by
  unfold execNibPortChange; dsimp only
  all_goals simp_all [kept_fields]

@[simp] theorem setGroup_kept (s : State) (g : Nat) (st : Nat) (res : Nat) :
    kept (setGroup s g st res) = kept s := by simp [setGroup, kept_fields]

@[simp] theorem startWaiting_kept (s : State) (g : Nat) :
    kept (startWaiting s g) = kept s := by simp [startWaiting, kept_fields]

@[simp] theorem cutCmd_kept (s : State) (p : Option Path) (w : Word) : kept (WOut.st (cutCmd s p w) s) = kept s := by
  simp [cutCmd]; repeat' split
  all_goals simp_all

@[simp] theorem quietPulse_kept (s : State) (c : Nat) (l : Nat) :
    kept (quietPulse s c l) = kept s := by simp [quietPulse, kept_fields]

@[simp] theorem quietPoint_kept (s : State) (g : Nat) : kept (quietPoint s g) = kept s := by simp [quietPoint, kept_fields]

@[simp] theorem execQuietPointEvent_kept (g : Fin 32) (s : State) :
    kept (outSt (execQuietPointEvent g s) s) = kept s := by simp [execQuietPointEvent]

@[simp] theorem execCutoverTimeout_kept (g : Fin 32) (same : Bool) (s : State) :
    kept (outSt (execCutoverTimeout g same s) s) = kept s := by simp [execCutoverTimeout]

@[simp] theorem switchNib_kept (target : Nat) (s : State) (n : Nat) :
    kept (switchNib target s n) = kept s := by simp [switchNib, kept_fields]

@[simp] theorem execCutoverSwitch_kept (g : Fin 32) (s : State) : kept (outSt (execCutoverSwitch g s) s) = kept s := by
  simp [execCutoverSwitch]; repeat' split
  all_goals simp_all

@[simp] theorem setPllX_kept (s : State) (p : Nat) (x : Pll) :
    kept (setPllX s p x) = kept s := by simp [setPllX, kept_fields]

@[simp] theorem setPllF_kept (s : State) (p : Nat) (f : Fld) (v : Nat) :
    kept (setPllF s p f v) = kept s := by simp [setPllF]

@[simp] theorem setGenStat_kept (s : State) (g : Nat) (act : Nat) (cause : Nat) (mhz : Nat) :
    kept (setGenStat s g act cause mhz) = kept s := by simp [setGenStat]

@[simp] theorem tdcDue_kept (f : Nat) (s : State) (c : Nat) :
    kept (tdcDue f s c) = kept s := by simp [tdcDue, kept_fields]

@[simp] theorem tdcForget_kept (s : State) (h : Nat) : kept (tdcForget s h) = kept s := by
  simp [tdcForget, kept_fields]

@[simp] theorem countBreak_kept (s : State) (i : Nat) : kept (countBreak s i) = kept s := by simp [countBreak]

@[simp] theorem tdcBreak_kept (s : State) (h : Nat) : kept (tdcBreak s h) = kept s := by simp [tdcBreak]

@[simp] theorem suspendPairs_kept (f : Nat → Bool) (s : State) :
    kept (suspendPairs f s) = kept s := by simp [suspendPairs, kept_fields]

@[simp] theorem genPre_kept (s : State) (g : Nat) :
    kept (genPre s g) = kept s := by simp [genPre]

@[simp] theorem genHook_kept (s : State) (g : Nat) : kept (genHook s g) = kept s := by simp [genHook, kept_fields]

@[simp] theorem syncFollower_kept (g : Nat) (s : State) (f : Nat) :
    kept (syncFollower g s f) = kept s := by simp [syncFollower]

@[simp] theorem setGen_kept (s : State) (g : Nat) (act : Nat) (cause : Nat) (mhz : Nat) :
    kept (setGen s g act cause mhz) = kept s := by simp [setGen]

@[simp] theorem gateGen_kept (s : State) (g : Nat) (cause : Nat) :
    kept (gateGen s g cause) = kept s := by simp [gateGen]

@[simp] theorem execGeneratorFallback_kept (g : Fin 66) (s : State) :
    kept (outSt (execGeneratorFallback g s) s) = kept s := by simp [execGeneratorFallback]

@[simp] theorem execGeneratorFallbackStop_kept (g : Fin 66) (s : State) :
    kept (outSt (execGeneratorFallbackStop g s) s) = kept s := by
  simp [execGeneratorFallbackStop]; repeat' split
  all_goals simp_all

@[simp] theorem returnGen_kept (s : State) (g : Nat) : kept (returnGen s g) = kept s := by simp [returnGen]

@[simp] theorem execGeneratorReturn_kept (g : Fin 66) (s : State) :
    kept (outSt (execGeneratorReturn g s) s) = kept s := by simp [execGeneratorReturn]

@[simp] theorem applyGen_kept (s : State) (g : Nat) : kept (applyGen s g) = kept s := by
  simp [applyGen]; repeat' split
  all_goals simp_all

@[simp] theorem pllEnter_kept (s : State) (p : Nat) (st : Nat) (cur : Nat) (x : Pll) :
    kept (pllEnter s p st cur x) = kept s := by simp [pllEnter]

@[simp] theorem acqFail_kept (s : State) (p : Nat) (cause : Nat) :
    kept (acqFail s p cause) = kept s := by simp [acqFail]

@[simp] theorem pllAcquire_kept (s : State) (p : Nat) : kept (pllAcquire s p) = kept s := by
  unfold pllAcquire
  repeat' split
  all_goals simp

@[simp] theorem pllLol_kept (s : State) (p : Nat) : kept (pllLol s p) = kept s := by simp [pllLol]

@[simp] theorem pllSwitch_kept (s : State) (p : Nat) (target : Nat) :
    kept (pllSwitch s p target) = kept s := by simp [pllSwitch]

@[simp] theorem pllHoldover_kept (s : State) (p : Nat) : kept (pllHoldover s p) = kept s := by
  unfold pllHoldover; dsimp only
  repeat' split
  all_goals simp_all

@[simp] theorem pllReview_kept (s : State) (p : Nat) : kept (pllReview s p) = kept s := by
  simp [pllReview]; repeat' split
  all_goals simp_all

@[simp] theorem pllLostRef_kept (s : State) (p : Nat) : kept (pllLostRef s p) = kept s := by
  simp [pllLostRef]; repeat' split
  all_goals simp_all

@[simp] theorem pllRefChange_kept (s : State) (p : Nat) : kept (pllRefChange s p) = kept s := by
  simp [pllRefChange]; repeat' split
  all_goals simp_all

@[simp] theorem allPllRefChange_kept (s : State) :
    kept (allPllRefChange s) = kept s := by simp [allPllRefChange]

@[simp] theorem setDisq_kept (s : State) (r : Nat) (v : Nat) :
    kept (setDisq s r v) = kept s := by simp [setDisq, kept_fields]

@[simp] theorem setGoodWin_kept (s : State) (r : Nat) (n : Nat) :
    kept (setGoodWin s r n) = kept s := by simp [setGoodWin, kept_fields]

@[simp] theorem disqualify_kept (n : Nat) : ∀ (s : State) (r : Nat), kept (disqualify n s r) = kept s := by
  induction n with
  | zero => intro s r; rfl
  | succ n ih =>
    intro s r
    simp only [disqualify]
    split
    · simp
    · rw [foldl_kept ih]; simp

@[simp] theorem execRefWindowEnd_kept (r : Fin 4) (count : Nat) (throughout : Bool) (now : Bool) (s : State) :
    kept (outSt (execRefWindowEnd r count throughout now s) s) = kept s := by simp [execRefWindowEnd]

@[simp] theorem execRefEdgesStop_kept (r : Fin 4) (s : State) :
    kept (outSt (execRefEdgesStop r s) s) = kept s := by simp [execRefEdgesStop]

@[simp] theorem execPllCalibrationDone_kept (k : Fin 4) (mhz : Nat) (s : State) :
    kept (outSt (execPllCalibrationDone k mhz s) s) = kept s := by simp [execPllCalibrationDone]

@[simp] theorem steepPllLocked_kept (s : State) (p : Nat) :
    kept (steepPllLocked s p) = kept s := by simp [steepPllLocked]

@[simp] theorem pllLocked_kept (s : State) (p : Nat) : kept (pllLocked s p) = kept s := by simp [pllLocked]

@[simp] theorem pllWindow_kept (s : State) (p : Nat) (count : Nat) (ok : Bool) : kept (pllWindow s p count ok) = kept s := by
  unfold pllWindow
  repeat' split
  all_goals simp

@[simp] theorem execPllLockWindowEnd_kept (k : Fin 4) (count : Nat) (s : State) :
    kept (outSt (execPllLockWindowEnd k count s) s) = kept s := by simp [execPllLockWindowEnd]

@[simp] theorem execPllSwitchInput_kept (k : Fin 4) (s : State) :
    kept (outSt (execPllSwitchInput k s) s) = kept s := by simp [execPllSwitchInput]

@[simp] theorem execPllRevertHoldoffExpire_kept (k : Fin 4) (s : State) :
    kept (outSt (execPllRevertHoldoffExpire k s) s) = kept s := by simp [execPllRevertHoldoffExpire]

@[simp] theorem execSyncInEdge_kept (rising : Bool) (ignored : Bool) (s : State) :
    kept (outSt (execSyncInEdge rising ignored s) s) = kept s := by simp [execSyncInEdge, kept_fields]

@[simp] theorem execPllOutputRestart_kept (k : Fin 4) (s : State) :
    kept (outSt (execPllOutputRestart k s) s) = kept s := by simp [execPllOutputRestart, kept_fields]

@[simp] theorem clkWrite_kept (s : State) (off : Nat) (w : Word) : kept (WOut.st (clkWrite s off w) s) = kept s := by
  simp [clkWrite]; repeat' split
  all_goals simp_all

@[simp] theorem bramSet_kept (s : State) (x : Nat) (m : Nat) (w : Nat) (v : Nat) :
    kept (bramSet s x m w v) = kept s := by simp [bramSet, kept_fields]

@[simp] theorem fiCe_kept (s : State) (x : Nat) (m : Nat) (w : Nat) (synd : Nat) :
    kept (fiCe s x m w synd) = kept s := by simp [fiCe]

@[simp] theorem fiUe_kept (s : State) (x : Nat) (m : Nat) (w : Nat) (kind : Nat) (synd : Nat) :
    kept (fiUe s x m w kind synd) = kept s := by simp [fiUe]

@[simp] theorem bramRead_kept (x : Nat) (m : Nat) (b : Nat) (w : Nat) (v : Nat) (s : State) :
    kept (bramRead x m b w v s) = kept s := by
  unfold bramRead
  repeat' split
  all_goals simp [kept_fields]

@[simp] theorem bramWrite_kept (x : Nat) (m : Nat) (w : Nat) (v : Nat) (d : Nat) (be : Nat) (s : State) :
    kept (bramWrite x m w v d be s) = kept s := by
  unfold bramWrite
  repeat' split
  all_goals simp

@[simp] theorem bramFlip_kept (x : Nat) (m : Nat) (s : State) (x0 : BramAct) : kept (bramFlip x m s x0) = kept s := by
  unfold bramFlip
  repeat' split
  all_goals simp

@[simp] theorem bramDo_kept (x : Nat) (m : Nat) (s0 : State) (b : Nat) (s : State) (x0 : BramAct) :
    kept (bramDo x m s0 b s x0) = kept s := by
  unfold bramDo
  repeat' split
  all_goals simp

@[simp] theorem bramEdge_kept (x : Nat) (m : Nat) (p : BramAct) (q : BramAct) (s : State) :
    kept (bramEdge x m p q s) = kept s := by
  unfold bramEdge
  repeat' split
  all_goals simp

@[simp] theorem bramPorts_kept (x : Fin 48) (m : Fin 24) (b : Fin 2) (p : BramAct) (other : Option BramAct) (s : State) :
    kept (outSt (bramPorts x m b p other s) s) = kept s := by
  unfold bramPorts
  repeat' split
  all_goals simp

@[simp] theorem execBramRead_kept (x : Fin 48) (m : Fin 24) (b : Fin 2) (w : Fin 512) (flip : BitVec 72) (other : Option BramAct) (s : State) :
    kept (outSt (execBramRead x m b w flip other s) s) = kept s := by simp [execBramRead]

@[simp] theorem execBramWriteFull_kept (x : Fin 48) (m : Fin 24) (b : Fin 2) (w : Fin 512) (d : BitVec 64) (other : Option BramAct) (s : State) :
    kept (outSt (execBramWriteFull x m b w d other s) s) = kept s := by simp [execBramWriteFull]

@[simp] theorem execBramWritePartial_kept (x : Fin 48) (m : Fin 24) (b : Fin 2) (w : Fin 512) (d : BitVec 64) (be : BitVec 8) (flip : BitVec 72) (other : Option BramAct) (s : State) :
    kept (outSt (execBramWritePartial x m b w d be flip other s) s) = kept s := by simp [execBramWritePartial]

@[simp] theorem execSliceOperation_kept (x : Fin 48) (k : Fin 32) (a : BitVec 27) (b : BitVec 18) (c : BitVec 48) (z : SliceZ) (sub : Bool) (sat : Bool) (s : State) :
    kept (outSt (execSliceOperation x k a b c z sub sat s) s) = kept s := by simp [execSliceOperation, kept_fields]

@[simp] theorem hsSet_kept (s : State) (k : Nat) (h : Hs) : kept (hsSet s k h) = kept s := by simp [hsSet, kept_fields]

@[simp] theorem execHandshakeTransfer_kept (h : HsPort) (d : Option (BitVec 64)) (took : Nat) (crosses : Bool) (s : State) :
    kept (outSt (execHandshakeTransfer h d took crosses s) s) = kept s := by
  unfold execHandshakeTransfer
  repeat' split
  all_goals simp

@[simp] theorem wedgePage_kept (s : State) (page : Nat) :
    kept (wedgePage s page) = kept s := by simp [wedgePage]

@[simp] theorem execHandshakeWedge_kept (c : Crossing) (s : State) : kept (outSt (execHandshakeWedge c s) s) = kept s := by
  unfold execHandshakeWedge
  repeat' split
  all_goals simp

@[simp] theorem setDrained_kept (s : State) (x : Nat) (v : Bool) :
    kept (setDrained s x v) = kept s := by simp [setDrained]

@[simp] theorem execIslandDrained_kept (x : Fin 48) (s : State) :
    kept (outSt (execIslandDrained x s) s) = kept s := by simp [execIslandDrained]

@[simp] theorem reloadPorts_kept (s : State) (x : Nat) : kept (reloadPorts s x) = kept s := by simp [reloadPorts]

@[simp] theorem fenceApply_kept (s : State) (x : Nat) :
    kept (fenceApply s x) = kept s := by simp [fenceApply]

@[simp] theorem fenceLift_kept (s : State) (x : Nat) : kept (fenceLift s x) = kept s := by simp [fenceLift]

@[simp] theorem freshOutputs_kept (s : State) (x : Nat) :
    kept (freshOutputs s x) = kept s := by simp [freshOutputs, kept_fields, -Nat.reducePow]

@[simp] theorem fiWrite_kept (s : State) (x : Nat) (off : Nat) (w : Word) :
    kept (WOut.st (fiWrite s x off w) s) = kept s := by
  simp [fiWrite]; repeat' split
  all_goals simp_all

@[simp] theorem readFlash_kept (s : State) (a : Nat) (n : Nat) :
    kept (readFlash s a n) = kept s := by simp [readFlash, kept_fields]

@[simp] theorem setVerified_kept (s : State) (x : Nat) (v : Bool) :
    kept (setVerified s x v) = kept s := by simp [setVerified]

@[simp] theorem setIslSrc_kept (s : State) (x : Nat) (a : Nat) :
    kept (setIslSrc s x a) = kept s := by simp [setIslSrc, kept_fields]

@[simp] theorem writeFrames_kept (s : State) (x : Nat) (bs : List Byte) :
    kept (writeFrames s x bs) = kept s := by simp [writeFrames, kept_fields]

@[simp] theorem discardQueues_kept (s : State) (x : Nat) :
    kept (discardQueues s x) = kept s := by simp [discardQueues]

@[simp] theorem loadIsland_kept (s : State) (x : Nat) (addr : Nat) (bad : Option (Fin 1024)) :
    kept ((loadIsland s x addr bad).2) = kept s := by
  simp [loadIsland]; repeat' split
  all_goals simp_all

@[simp] theorem cfgcWrite_kept (s : State) (off : Nat) (w : Word) : kept (WOut.st (cfgcWrite s off w) s) = kept s := by
  simp [cfgcWrite, kept_fields]; repeat' split
  all_goals simp_all [kept_fields]

@[simp] theorem prFail_kept (s : State) (x : Nat) (why : Nat) :
    kept (prFail s x why) = kept s := by simp [prFail, kept_fields]

@[simp] theorem prStage_kept (bad : Option (Fin 1024)) (s : State) : kept (prStage bad s) = kept s := by
  unfold prStage
  repeat' split
  all_goals simp [kept_fields]

@[simp] theorem execPrComplete_kept (bad : Option (Fin 1024)) (one : Bool) (s : State) :
    kept (outSt (execPrComplete bad one s) s) = kept s := by simp [execPrComplete]

@[simp] theorem blotAt_kept (s : State) (x : Nat) (f : Nat) :
    kept (blotAt s x f) = kept s := by simp [blotAt]

@[simp] theorem blotStart_kept (s : State) : kept (blotStart s) = kept s :=
  (kept_cfg _ _).trans (by simp)

@[simp] theorem blotFrameEnd_kept (s : State) : kept (blotFrameEnd s) = kept s := by simp [blotFrameEnd]

@[simp] theorem blotCycleEnd_kept (s : State) : kept (blotCycleEnd s) = kept s := by simp [blotCycleEnd, kept_fields]

@[simp] theorem blotNext_kept (s : State) (x : Nat) (f : Nat) : kept (blotNext s x f) = kept s := by
  simp [blotNext, kept_fields]; repeat' split
  all_goals simp_all [kept_fields]

@[simp] theorem cfgSet_kept (s : State) (x : Nat) (f : Nat) (w : Nat) (v : Nat) :
    kept (cfgSet s x f w v) = kept s := by simp [cfgSet, kept_fields]

@[simp] theorem upsetFrame_kept (s : State) (x : Nat) (f : Nat) (x3 : List (Fin 32 × BitVec 72)) :
    kept (upsetFrame s x f x3) = kept s := by
  fun_induction upsetFrame s x f x3 <;> simp_all

@[simp] theorem scrubWord_kept (x : Nat) (f : Nat) (s : State) (w : Nat) :
    kept (scrubWord x f s w) = kept s := by simp [scrubWord]

@[simp] theorem setLastUncorr_kept (s : State) (x : Nat) (f : Nat) (outcome : Nat) :
    kept (setLastUncorr s x f outcome) = kept s := by simp [setLastUncorr]

@[simp] theorem uncorrFrame_kept (s : State) (x : Nat) (f : Nat) :
    kept (uncorrFrame s x f) = kept s := by simp [uncorrFrame, kept_fields]

@[simp] theorem blotRead_kept (s : State) (x : Nat) (f : Nat) : kept (blotRead s x f) = kept s := by simp [blotRead]

@[simp] theorem frameReadOnce_kept (flips : List (Fin 32 × BitVec 72)) (s : State) :
    kept (outSt (frameReadOnce flips s) s) = kept s := by
  simp [frameReadOnce]; repeat' split
  all_goals simp_all

@[simp] theorem execBlotterFrameRead_kept (flips : List (Fin 32 × BitVec 72)) (s : State) :
    kept (outSt (execBlotterFrameRead flips s) s) = kept s := orAlso_kept (frameReadOnce_kept flips s)

@[simp] theorem execBlotterIntervalExpire_kept (s : State) :
    kept (outSt (execBlotterIntervalExpire s) s) = kept s := by simp [execBlotterIntervalExpire, kept_fields]

@[simp] theorem execBlotterReload_kept (flips : List (Fin 32 × BitVec 72)) (s : State) :
    kept (outSt (execBlotterReload flips s) s) = kept s := by simp [execBlotterReload, kept_fields]

@[simp] theorem blotFence_kept (old s : State) (x : Nat) : kept (blotFence old s x) = kept s := by
  unfold blotFence; repeat' split
  all_goals simp [kept_fields]

@[simp] theorem blotWrite_kept (s : State) (off : Nat) (w : Word) : kept (WOut.st (blotWrite s off w) s) = kept s := by
  simp [blotWrite]; repeat' split
  all_goals simp_all

@[simp] theorem setLane_kept (s : State) (n : Nat) (l : Lane) :
    kept (setLane s n l) = kept s := by simp [setLane, kept_fields]

@[simp] theorem setLaneSt_kept (s : State) (n : Nat) (st : Nat) :
    kept (setLaneSt s n st) = kept s := by simp [setLaneSt]

@[simp] theorem enterHunt_kept (s : State) (n : Nat) (rate : Nat) :
    kept (enterHunt s n rate) = kept s := by simp [enterHunt]

@[simp] theorem newTraining_kept (s : State) (n : Nat) :
    kept (newTraining s n) = kept s := by simp [newTraining]

@[simp] theorem laneOff_kept (s : State) (n : Nat) : kept (laneOff s n) = kept s := by simp [laneOff]

@[simp] theorem startupLane_kept (s : State) (n : Nat) (hi : Nat) :
    kept (startupLane s n hi) = kept s := by simp [startupLane]

@[simp] theorem steepClocks_kept (s : State) (khz : Nat) : kept (steepClocks s khz) = kept s := by
  simp [steepClocks, kept_fields]; repeat' split
  all_goals simp_all [kept_fields]

@[simp] theorem steepGenBack_kept (s : State) : kept (steepGenBack s) = kept s := by simp [steepGenBack]

@[simp] theorem steepClocksBack_kept (s : State) :
    kept (steepClocksBack s) = kept s := by simp [steepClocksBack, kept_fields]

@[simp] theorem markStep_kept (s : State) (n : Nat) : kept (markStep s n) = kept s := by simp [markStep, kept_fields]

@[simp] theorem rngOk_kept (s : State) : kept (rngOk s) = kept s := by simp [rngOk]

@[simp] theorem execSteepStart_kept (s : State) :
    kept (outSt (execSteepStart s) s) = kept s := by simp [execSteepStart, kept_fields]

@[simp] theorem setRes_kept (s : State) (i : Nat) (r : SurvRes) :
    kept (setRes s i r) = kept s := by simp [setRes, kept_fields]

@[simp] theorem steepLanes_kept (khz : Nat) (x1 : Nat) (x2 : List SurvItem) (x3 : State) :
    kept (steepLanes khz x1 x2 x3) = kept x3 := by
  fun_induction steepLanes khz x1 x2 x3 <;> simp_all

@[simp] theorem execSteepHeaderCheck_kept (s : State) :
    kept (outSt (execSteepHeaderCheck s) s) = kept s := by simp [execSteepHeaderCheck, kept_fields]

@[simp] theorem execSteepPll0LockTimeout_kept (s : State) :
    kept (outSt (execSteepPll0LockTimeout s) s) = kept s := by simp [execSteepPll0LockTimeout, kept_fields]

@[simp] theorem fixValues_kept (kind : Nat) (mv : List Nat) (x2 : Nat) (x3 : List SurvItem) (x4 : State) :
    kept (fixValues kind mv x2 x3 x4) = kept x4 := by
  fun_induction fixValues kind mv x2 x3 x4 <;> simp_all

@[simp] theorem skipBanks_kept (x0 : Nat) (x1 : List SurvItem) (x2 : State) : kept (skipBanks x0 x1 x2) = kept x2 := by
  fun_induction skipBanks x0 x1 x2 <;> simp_all

@[simp] theorem execRailSurvey_kept (mv : List Nat) (s : State) :
    kept (outSt (execRailSurvey mv s) s) = kept s := by simp [execRailSurvey, kept_fields]

@[simp] theorem execFsenseSurvey_kept (mv : List Nat) (s : State) :
    kept (outSt (execFsenseSurvey mv s) s) = kept s := by simp [execFsenseSurvey, kept_fields]

@[simp] theorem execNibIdleSurvey_kept (mv : List Nat) (s : State) :
    kept (outSt (execNibIdleSurvey mv s) s) = kept s := by simp [execNibIdleSurvey, kept_fields]

@[simp] theorem beginSurvey_kept (s : State) (n code : Nat) :
    kept (beginSurvey s n code) = kept s := by simp [beginSurvey, kept_fields]

@[simp] theorem endSurvey_kept (s : State) (n : Nat) :
    kept (endSurvey s n) = kept s := by simp [endSurvey, kept_fields]

@[simp] theorem execLoadSurveyRun_kept (nib : Fin 336) (readings : List (Nat × Nat)) (s : State) :
    kept (outSt (execLoadSurveyRun nib readings s) s) = kept s := by
  simp [execLoadSurveyRun, kept_fields]; repeat' split
  all_goals simp_all [kept_fields]

@[simp] theorem execCableSurvey_kept (nib : Fin 336) (shots : List Nat) (fin : CableEnd) (s : State) :
    kept (outSt (execCableSurvey nib shots fin s) s) = kept s := by
  simp [execCableSurvey]; repeat' split
  all_goals simp_all [kept_fields]

@[simp] theorem inkSync_kept (s : State) : kept (inkSync s) = kept s := by simp [inkSync]

@[simp] theorem pushWord_kept (s : State) (w : Nat) (k : Nat) :
    kept (pushWord s w k) = kept s := by simp [pushWord, kept_fields]

@[simp] theorem recordLost_kept (s : State) : kept (recordLost s) = kept s := by simp [recordLost, kept_fields]

@[simp] theorem hdrDone_kept (s : State) : kept (hdrDone s) = kept s := by
  unfold hdrDone
  repeat' split
  all_goals simp [kept_fields]

@[simp] theorem fillHeader_kept (s : State) (t : Nat) (n : Nat) : kept (fillHeader s t n) = kept s := by
  simp [fillHeader, kept_fields]; repeat' split
  all_goals simp_all [kept_fields]

@[simp] theorem closeSeg_kept (s : State) : kept (closeSeg s) = kept s := by
  simp [closeSeg, kept_fields]; repeat' split
  all_goals simp_all [kept_fields]

@[simp] theorem tryMark_kept (s : State) (t : Nat) (kind : Nat) (arg : Nat) (k : Nat) :
    kept ((tryMark s t kind arg k).1) = kept s := by
  unfold tryMark; dsimp only
  repeat' split
  all_goals simp_all [kept_fields]

@[simp] theorem lostMark_kept (s : State) (t : Nat) : kept (lostMark s t) = kept s := by simp [lostMark, kept_fields]

@[simp] theorem prelude_kept (s : State) (t : Nat) : kept (prelude s t) = kept s := by
  have h := tryMark_kept s t 3 0 0
  unfold prelude
  cases e : tryMark s t 3 0 0 with
  | mk u v => rw [e] at h; cases v <;> simp_all [kept_fields]

@[simp] theorem mark_kept (s : State) (kind arg k : Nat) : kept (mark s kind arg k).1 = kept s := by
  have h := tryMark_kept (prelude s (edgeTs s)) (edgeTs s) kind arg k
  unfold mark
  split
  · rename_i t e; rw [e] at h; simpa using h
  · rename_i t e; rw [e] at h; simpa using h

@[simp] theorem pushTime_kept (n : Nat) (s : State) (t : Nat) : kept (pushTime n s t) = kept s := by
  induction n generalizing s t with
  | zero => rfl
  | succ n ih => simp [pushTime, ih, kept_fields]

@[simp] theorem pushTrans_kept (s : State) (g lev evt sub t : Nat) : kept (pushTrans s g lev evt sub t) = kept s := by
  unfold pushTrans
  dsimp only
  generalize (if (prelude s s.cap.ts).cap.bpos = 0 then 1 else
    if (prelude s s.cap.ts).cap.hi ≠ some (t / 2 ^ 36) then if (prelude s s.cap.ts).cap.bpos = 511 then 2 else 1 else 0) = n
  split <;> simp

@[simp] theorem padBlock_kept (x0 : Nat) (x1 : State) : kept (padBlock x0 x1) = kept x1 := by
  fun_induction padBlock x0 x1 <;> simp_all

@[simp] theorem pushBytes_kept (x0 : Nat) (x1 : State) (x2 : List Byte) : kept ((pushBytes x0 x1 x2).1) = kept x1 := by
  fun_induction pushBytes x0 x1 x2 <;> simp_all

@[simp] theorem pushFrame_kept (s0 : State) (frame : List Byte) :
    kept (pushFrame s0 frame) = kept s0 := by simp [pushFrame, kept_fields]

@[simp] theorem spillEnd_kept (s : State) : kept (spillEnd s) = kept s := by simp [spillEnd]

@[simp] theorem cutSeg_kept (s : State) (i : Nat) (n : Nat) : kept (cutSeg s i n) = kept s := by simp [cutSeg, kept_fields]

@[simp] theorem enterDone_kept (s : State) (cause : Nat) : kept (enterDone s cause) = kept s := by
  simp [enterDone, kept_fields]; repeat' split
  all_goals simp_all

@[simp] theorem applyPolicy_kept (s : State) : kept (applyPolicy s) = kept s := by
  simp [applyPolicy, kept_fields]; repeat' split
  all_goals simp_all [kept_fields]

@[simp] theorem dropInkBlock_kept (s : State) : kept (dropInkBlock s) = kept s := by simp [dropInkBlock, kept_fields]

@[simp] theorem raiseCause_kept (s : State) (x : Nat) (cause : Nat) :
    kept (raiseCause s x cause) = kept s := by simp [raiseCause]

theorem storeWord_kept {all : Bool} {s t : State} (h : storeWord all s = some t) : kept t = kept s := by
  unfold storeWord at h
  split at h
  · cases h
  · split at h
    · cases h
    · split at h
      · cases h
      · cases h
        simp only [kept_ite]
        split <;> simp [kept_fields, kept_ite]

@[simp] theorem storeWords_kept (all : Bool) (n : Nat) (s : State) : kept (storeWords all n s) = kept s := by
  induction n generalizing s with
  | zero => rfl
  | succ n ih =>
    simp only [storeWords]
    split
    · rfl
    · rename_i t e; rw [ih, storeWord_kept e]

@[simp] theorem enterFull_kept (s : State) :
    kept (enterFull s) = kept s := by simp [enterFull, kept_fields]

@[simp] theorem flushQueue_kept (all : Bool) (s : State) :
    kept (flushQueue all s) = kept s := by simp [flushQueue]

@[simp] theorem noteFull_kept (s : State) :
    kept (noteFull s) = kept s := by simp [noteFull, kept_fields]

@[simp] theorem fullEnds_kept (s : State) : kept (fullEnds s) = kept s := by simp [fullEnds, kept_fields]

@[simp] theorem inkEdges_kept (s : State) (e : Nat) : kept (inkEdges s e) = kept s := by
  unfold inkEdges
  split
  · rfl
  · simp

@[simp] theorem trigMark_kept (arg : Nat) (s : State) : kept (trigMark arg s) = kept s := by simp [trigMark, kept_fields]

@[simp] theorem captureTriggerOp_kept (s : State) (arg : Nat) : kept (captureTriggerOp s arg) = kept s := by
  simp [captureTriggerOp]

@[simp] theorem trigMarks_kept (x0 : List Nat) (x1 : State) : kept (trigMarks x0 x1) = kept x1 := by
  fun_induction trigMarks x0 x1 <;> simp_all

@[simp] theorem dropTrigs_kept (s : State) : kept (dropTrigs s) = kept s := by simp [dropTrigs, kept_fields]

@[simp] theorem captureStopOp_kept (s : State) : kept (captureStopOp s) = kept s := by
  unfold captureStopOp
  simp

@[simp] theorem takeTrig_kept (arg : Nat) (s : State) : kept (takeTrig arg s) = kept s := by simp [takeTrig, kept_fields]

@[simp] theorem execCaptureTrigger_kept (s : State) :
    kept (outSt (execCaptureTrigger s) s) = kept s := by
  unfold execCaptureTrigger; split <;> simp

@[simp] theorem execCapturePostDone_kept (s : State) :
    kept (outSt (execCapturePostDone s) s) = kept s := by simp [execCapturePostDone]

@[simp] theorem execInkwellFull_kept (s : State) :
    kept (outSt (execInkwellFull s) s) = kept s := by simp [execInkwellFull]

@[simp] theorem execThrottleOff_kept (s : State) :
    kept (outSt (execThrottleOff s) s) = kept s := by simp [execThrottleOff, kept_fields]

@[simp] theorem recordGroup_kept (g : Nat) (sub : Nat) (lev : Nat) (evt : Nat) (t : Nat) (s : State) :
    kept (recordGroup g sub lev evt t s) = kept s := by simp [recordGroup]

@[simp] theorem transEdge_kept (a0 f0 b f : Tab Bool) (l : List Nat) (s : State) :
    kept (transEdge a0 f0 b f l s) = kept s := by
  induction l generalizing s with
  | nil => rfl
  | cons g gs ih => simp only [transEdge]; rw [ih]; split <;> simp

@[simp] theorem fullEdge_kept (s : State) (frame : List Byte) :
    kept (fullEdge s frame) = kept s := by simp [fullEdge, kept_fields]

@[simp] theorem setProbes_kept (x0 : List (Fin 64 × Bool)) (x1 : State) : kept (setProbes x0 x1) = kept x1 := by
  fun_induction setProbes x0 x1 <;> simp_all [kept_fields]

@[simp] theorem takeTrigs_kept (x0 : List Nat) (x1 : State) : kept (takeTrigs x0 x1) = kept x1 := by
  fun_induction takeTrigs x0 x1 <;> simp_all [kept_fields]

@[simp] theorem takeEvents_kept (s : State) :
    kept (takeEvents s) = kept s := by simp [takeEvents]

@[simp] theorem captureEdge_kept (s0 : State) (probes : List (Fin 64 × Bool)) (fall : List (Fin 336 × Bool)) (e : Nat) :
    kept (captureEdge s0 probes fall e) = kept s0 := by
  unfold captureEdge
  simp [kept_fields]

@[simp] theorem inkFetch_kept (s : State) (i : Nat) (flip : Nat) : kept ((inkFetch s i flip).1) = kept s := by
  simp [inkFetch, kept_fields]; repeat' split
  all_goals simp_all [kept_fields]

@[simp] theorem inkWinLo_kept (s : State) (flip : Nat) :
    kept ((inkWinLo s flip).1) = kept s := by simp [inkWinLo]

@[simp] theorem inkWinHi_kept (s : State) : kept ((inkWinHi s).1) = kept s := by simp [inkWinHi]

@[simp] theorem capArm_kept (s : State) : kept (capArm s) = kept s := by simp [capArm, kept_fields]

@[simp] theorem capCmd_kept (s : State) (w : Word) : kept (WOut.st (capCmd s w) s) = kept s := by
  simp [capCmd]; repeat' split
  all_goals simp_all

@[simp] theorem capWrite_kept (s : State) (off : Nat) (w : Word) : kept (WOut.st (capWrite s off w) s) = kept s := by
  simp [capWrite]; repeat' split
  all_goals simp_all

@[simp] theorem inkRdOp_kept (s : State) (spill : Bool) (v : Nat) : kept (WOut.st (inkRdOp s spill v) s) = kept s := by
  simp [inkRdOp, kept_fields]; repeat' split
  all_goals simp_all [kept_fields]

@[simp] theorem inkWrite_kept (s : State) (off : Nat) (w : Word) : kept (WOut.st (inkWrite s off w) s) = kept s := by
  simp [inkWrite]; repeat' split
  all_goals simp_all

@[simp] theorem setCtx_kept (s : State) (x : Nat) (c : QCtx) :
    kept (setCtx s x c) = kept s := by simp [setCtx, kept_fields]

@[simp] theorem stepCtx_kept (s : State) (x : Nat) : kept (stepCtx s x) = kept s := by simp [stepCtx]

@[simp] theorem setStoreRaw_kept (s : State) (a : Nat) (v : Nat) :
    kept (setStoreRaw s a v) = kept s := by simp [setStoreRaw, kept_fields]

@[simp] theorem storeLands_kept (s : State) : kept (storeLands s) = kept s := by simp [storeLands, kept_fields]

@[simp] theorem nextEdge_kept (s : State) : kept (nextEdge s) = kept s := by simp [nextEdge, kept_fields]

@[simp] theorem turn_kept (s : State) (x : Nat) : kept (turn s x) = kept s := by simp [turn, kept_fields]

@[simp] theorem sendTrig_kept (arg : Nat) (s : State) :
    kept (sendTrig arg s) = kept s := by simp [sendTrig, kept_fields]

@[simp] theorem pulseLine_kept (x : Nat) (s : State) (l : Nat) :
    kept (pulseLine x s l) = kept s := by simp [pulseLine, kept_fields]

@[simp] theorem deadTime_kept (s : State) (x : Nat) (trig : Bool) (rearm : Bool) :
    kept (deadTime s x trig rearm) = kept s := by
  simp [deadTime]; repeat' split
  all_goals simp_all

@[simp] theorem leaveRun_kept (s : State) (x : Nat) (st : Nat) :
    kept (leaveRun s x st) = kept s := by simp [leaveRun]

@[simp] theorem wordFrame_kept (s : State) (x : Nat) (w : Nat) (c : Bool) :
    kept (wordFrame s x w c) = kept s := by simp [wordFrame]

theorem runWord_kept {f : State → Nat → State} (hf : ∀ s w, kept (f s w) = kept s) (s : State) (x : Nat) :
    kept (runWord s x f) = kept s := by
  simp only [runWord]
  split
  · rw [hf]; simp
  · simp

@[simp] theorem execQuillNop_kept (x : Fin 8) (s : State) :
    kept (outSt (execQuillNop x s) s) = kept s := by simp [execQuillNop, runWord_kept]

@[simp] theorem cinc_kept (x : Nat) (s : State) (w : Nat) :
    kept (cinc x s w) = kept s := by simp [cinc]

@[simp] theorem execQuillCinc_kept (x : Fin 8) (s : State) :
    kept (outSt (execQuillCinc x s) s) = kept s := by simp [execQuillCinc, runWord_kept]

@[simp] theorem cclr_kept (x : Nat) (s : State) (w : Nat) :
    kept (cclr x s w) = kept s := by simp [cclr]

@[simp] theorem execQuillCclr_kept (x : Fin 8) (s : State) :
    kept (outSt (execQuillCclr x s) s) = kept s := by simp [execQuillCclr, runWord_kept]

@[simp] theorem tstart_kept (x : Nat) (s : State) (w : Nat) :
    kept (tstart x s w) = kept s := by simp [tstart]

@[simp] theorem execQuillTstart_kept (x : Fin 8) (s : State) :
    kept (outSt (execQuillTstart x s) s) = kept s := by simp [execQuillTstart, runWord_kept]

@[simp] theorem tstop_kept (x : Nat) (s : State) (w : Nat) :
    kept (tstop x s w) = kept s := by simp [tstop]

@[simp] theorem execQuillTstop_kept (x : Fin 8) (s : State) :
    kept (outSt (execQuillTstop x s) s) = kept s := by simp [execQuillTstop, runWord_kept]

@[simp] theorem execQuillIrq_kept (x : Fin 8) (s : State) :
    kept (outSt (execQuillIrq x s) s) = kept s := by simp [execQuillIrq, runWord_kept]

@[simp] theorem cstop_kept (s : State) (w : Nat) :
    kept (cstop s w) = kept s := by simp [cstop, kept_fields]

@[simp] theorem execQuillCstop_kept (x : Fin 8) (s : State) :
    kept (outSt (execQuillCstop x s) s) = kept s := by simp [execQuillCstop, runWord_kept]

@[simp] theorem execQuillSetpol_kept (x : Fin 8) (s : State) :
    kept (outSt (execQuillSetpol x s) s) = kept s := by simp [execQuillSetpol, runWord_kept]

@[simp] theorem execQuillHalt_kept (x : Fin 8) (s : State) :
    kept (outSt (execQuillHalt x s) s) = kept s := by simp [execQuillHalt, runWord_kept]

@[simp] theorem rett_kept (x : Nat) (s : State) (x2 : Nat) :
    kept (rett x s x2) = kept s := by simp [rett]

@[simp] theorem execQuillRett_kept (x : Fin 8) (s : State) :
    kept (outSt (execQuillRett x s) s) = kept s := by simp [execQuillRett, runWord_kept]

@[simp] theorem takeTrap_kept (s : State) (x : Nat) (cause : Nat) (keepPc : Bool) :
    kept (takeTrap s x cause keepPc) = kept s := by simp [takeTrap]

@[simp] theorem doubleTrap_kept (s : State) (x : Nat) (cause : Nat) :
    kept (doubleTrap s x cause) = kept s := by simp [doubleTrap]

@[simp] theorem microTrapOnce_kept (x : Fin 8) (flip : BitVec 99) (s : State) :
    kept (outSt (microTrapOnce x flip s) s) = kept s := by
  simp [microTrapOnce]; repeat' split
  all_goals simp_all

@[simp] theorem execMicroTrap_kept (x : Fin 8) (flip : BitVec 99) (s : State) :
    kept (outSt (execMicroTrap x flip s) s) = kept s := orAlso_kept (microTrapOnce_kept x flip s)

@[simp] theorem startCtx_kept (s : State) (x : Nat) :
    kept (startCtx s x) = kept s := by simp [startCtx, kept_fields]

@[simp] theorem qcxCmd_kept (s : State) (x : Nat) (w : Word) : kept (WOut.st (qcxCmd s x w) s) = kept s := by
  simp [qcxCmd]; repeat' split
  all_goals simp_all

@[simp] theorem heldSet_kept (s : State) (p : Option Path) (a : Nat) (w : Option Word) :
    kept (heldSet s p a w) = kept s := by simp [heldSet, kept_fields]

@[simp] theorem limitHi_kept (s : State) (p : Option Path) (a : Nat) (w : Word) :
    kept (limitHi s p a w) = kept s := by simp [limitHi]

@[simp] theorem qcxWrite_kept (s : State) (p : Option Path) (x : Nat) (off : Nat) (w : Word) :
    kept (WOut.st (qcxWrite s p x off w) s) = kept s := by
  simp [qcxWrite]; repeat' split
  all_goals simp_all

@[simp] theorem qstSet_kept (s : State) (p : Option Path) (i : Nat) (v : Nat) :
    kept (qstSet s p i v) = kept s := by simp [qstSet, kept_fields]

@[simp] theorem qstAdvance_kept (s : State) (p : Option Path) :
    kept (qstAdvance s p) = kept s := by simp [qstAdvance]

@[simp] theorem qstWrite_kept (s : State) (p : Option Path) (off : Nat) (w : Word) :
    kept ((qstWrite s p off w).st s) = kept s := by
  unfold qstWrite
  repeat' split
  all_goals simp [kept_fields]

@[simp] theorem storeUpset_kept (s : State) (a v : Nat) :
    kept (storeUpset s a v) = kept s := by simp [storeUpset, kept_fields]

@[simp] theorem qstReadOp_kept (s : State) (p : Option Path) (i : Nat) (flip : Nat) :
    kept ((qstReadOp s p i flip).1) = kept s := by
  simp [qstReadOp]; repeat' split
  all_goals simp_all

@[simp] theorem setTdcQ_kept (s : State) (c : Nat) (q : List TEnt) :
    kept (setTdcQ s c q) = kept s := by simp [setTdcQ, kept_fields]

@[simp] theorem tdcCts_kept (s : State) (h : Nat) : kept ((tdcCts s h).1) = kept s := by
  simp [tdcCts]; repeat' split
  all_goals simp_all

@[simp] theorem setOver_kept (s : State) (c : Nat) (o : Option TOver) :
    kept (setOver s c o) = kept s := by simp [setOver, kept_fields]

@[simp] theorem tdcError_kept (s : State) : kept (tdcError s).2 = kept s := by simp [tdcError]

@[simp] theorem tdcStore_kept (s : State) (c : Nat) (raw : Nat) (rising : Bool) :
    kept (tdcStore s c raw rising) = kept s := by simp [tdcStore, kept_fields]

@[simp] theorem tdcUndo_kept (s : State) (c : Nat) : kept (tdcUndo s c) = kept s := by
  unfold tdcUndo
  repeat' split
  all_goals simp [kept_fields]

@[simp] theorem tdcChannelEdge_kept (rising : Bool) (step : Nat) (s : State) (c : Nat) :
    kept (tdcChannelEdge rising step s c) = kept s := by
  simp [tdcChannelEdge, kept_fields]; repeat' split
  all_goals simp_all [kept_fields]

@[simp] theorem tinEdge_kept (s : State) (t : Nat) (rising : Bool) : kept ((tinEdge s t rising).1) = kept s := by
  simp [tinEdge, kept_fields]; repeat' split
  all_goals simp_all [kept_fields]

@[simp] theorem tbPass_kept (s : State) (a b : Nat) :
    kept (tbPass s a b) = kept s := by simp [tbPass]

@[simp] theorem execTdcEdge_kept (src : TdcSrc) (rising : Bool) (a : Nat × Nat) (b : Nat × Nat) (s : State) :
    kept (outSt (execTdcEdge src rising a b s) s) = kept s := by
  simp [execTdcEdge]; repeat' split
  all_goals simp_all

@[simp] theorem execTdcRecalibrate_kept (c : Fin 32) (s : State) :
    kept (outSt (execTdcRecalibrate c s) s) = kept s := by simp [execTdcRecalibrate]

@[simp] theorem setHz_kept (s : State) (t : Nat) (n : Nat) : kept (setHz s t n) = kept s := by simp [setHz, kept_fields]

@[simp] theorem execTinFreqWindow_kept (t : Fin 4) (active : Bool) (s : State) :
    kept (outSt (execTinFreqWindow t active s) s) = kept s := by simp [execTinFreqWindow]

@[simp] theorem tdcPop_kept (s : State) (c : Nat) : kept ((tdcPop s c).1) = kept s := by
  simp [tdcPop]; repeat' split
  all_goals simp_all

@[simp] theorem tdcReadW0_kept (s : State) (p : Nat) (c : Nat) :
    kept ((tdcReadW0 s p c).1) = kept s := by simp [tdcReadW0, kept_fields]

@[simp] theorem tdcDmaRead_kept (s : State) (c : Nat) :
    kept ((tdcDmaRead s c).1) = kept s := by simp [tdcDmaRead]

@[simp] theorem tdcCfgOp_kept (s : State) (c : Nat) (w : Word) : kept (WOut.st (tdcCfgOp s c w) s) = kept s := by
  simp [tdcCfgOp, kept_fields]; repeat' split
  all_goals simp_all [kept_fields]

@[simp] theorem tdcZeroOp_kept (s : State) : kept (WOut.st (tdcZeroOp s) s) = kept s := by
  simp [tdcZeroOp, kept_fields]; repeat' split
  all_goals simp_all [kept_fields]

@[simp] theorem tdcWrite_kept (s : State) (i : Nat) (off : Nat) (w : Word) :
    kept (WOut.st (tdcWrite s i off w) s) = kept s := by
  simp [tdcWrite]; repeat' split
  all_goals simp_all

@[simp] theorem tinWrite_kept (s : State) (off : Nat) (w : Word) : kept (WOut.st (tinWrite s off w) s) = kept s := by
  simp [tinWrite, kept_fields]; repeat' split
  all_goals simp_all [kept_fields]

@[simp] theorem setPair_kept (s : State) (n : Nat) (p : TPair) :
    kept (setPair s n p) = kept s := by simp [setPair, kept_fields]

@[simp] theorem setStanding_kept (s : State) (n : Nat) (v : Bool) :
    kept (setStanding s n v) = kept s := by simp [setStanding]

@[simp] theorem samplePair_kept (s : State) (n : Nat) :
    kept (samplePair s n) = kept s := by simp [samplePair]

@[simp] theorem sampleTx_kept (s : State) (k : Nat) :
    kept (sampleTx s k) = kept s := by simp [sampleTx, kept_fields]

@[simp] theorem traceSample_kept (s : State) :
    kept (traceSample s) = kept s := by simp [traceSample]

@[simp] theorem execCaptureSample_kept (probes : List (Fin 64 × Bool)) (fall : List (Fin 336 × Bool)) (e : Nat) (s : State) :
    kept (outSt (execCaptureSample probes fall e s) s) = kept s := by
  unfold execCaptureSample
  repeat' split
  all_goals simp

@[simp] theorem writeRec_kept (s : State) (ws : List Nat) :
    kept (writeRec s ws) = kept s := by simp [writeRec, kept_fields]

@[simp] theorem countMatch_kept (s : State) (n : Nat) :
    kept (countMatch s n) = kept s := by simp [countMatch]

@[simp] theorem formTxn_kept (l : TEdge) (v : TEdge) (s : State) (k : Nat) :
    kept (formTxn l v s k) = kept s := by simp [formTxn, kept_fields]

@[simp] theorem matchEdges_kept (s : State) (n : Nat) (l : TEdge) (v : TEdge) :
    kept (matchEdges s n l v) = kept s := by simp [matchEdges]

@[simp] theorem execTraceEdge_kept (n : Fin 336) (legacy : Bool) (s : State) :
    kept (outSt (execTraceEdge n legacy s) s) = kept s := by
  simp [execTraceEdge]; repeat' split
  all_goals simp_all

@[simp] theorem execTraceDivergence_kept (n : Fin 336) (s : State) :
    kept (outSt (execTraceDivergence n s) s) = kept s := by
  simp [execTraceDivergence]; repeat' split
  all_goals simp_all

@[simp] theorem execTraceResync_kept (n : Fin 336) (s : State) :
    kept (outSt (execTraceResync n s) s) = kept s := by simp [execTraceResync]

@[simp] theorem standData_kept (diff : Nat) (x1 : Nat) (x2 : List Nat) (x3 : State) :
    kept (standData diff x1 x2 x3) = kept x3 := by
  fun_induction standData diff x1 x2 x3 <;> simp_all

@[simp] theorem txnDiff_kept (s : State) (t : TTxn) : kept (txnDiff s t) = kept s := by simp [txnDiff]

@[simp] theorem execTransactionDecide_kept (k : Fin 8) (s : State) :
    kept (outSt (execTransactionDecide k s) s) = kept s := by
  unfold execTransactionDecide
  repeat' split
  all_goals simp [kept_fields]

@[simp] theorem clearStanding_kept (s : State) :
    kept (clearStanding s) = kept s := by simp [clearStanding]

@[simp] theorem trcCtrl_kept (s : State) (w : Word) : kept (WOut.st (trcCtrl s w) s) = kept s := by
  simp [trcCtrl, kept_fields]; repeat' split
  all_goals simp_all [kept_fields]

@[simp] theorem trcWrite_kept (s : State) (off : Nat) (w : Word) : kept (WOut.st (trcWrite s off w) s) = kept s := by
  simp [trcWrite]; repeat' split
  all_goals simp_all

@[simp] theorem trcReadW0_kept (s : State) (p : Nat) : kept ((trcReadW0 s p).1) = kept s := by
  simp [trcReadW0, kept_fields]; repeat' split
  all_goals simp_all [kept_fields]

@[simp] theorem pairChanged_kept (s : State) (n : Nat) :
    kept (pairChanged s n) = kept s := by simp [pairChanged, kept_fields]

@[simp] theorem traceApply_kept (old : State) (s : State) :
    kept (traceApply old s) = kept s := by simp [traceApply]

@[simp] theorem memError_kept (s : State) : kept (memError s) = kept s := by simp [memError]

@[simp] theorem memCe_kept (s : State) (req : Nat) (line : Nat) :
    kept (memCe s req line) = kept s := by simp [memCe]

@[simp] theorem memUeLast_kept (s : State) (req : Nat) (slot : Nat) (line : Nat) (kind : Nat) :
    kept (memUeLast s req slot line kind) = kept s := by simp [memUeLast]

@[simp] theorem memUe_kept (s : State) (req : Nat) (slot : Nat) (line : Nat) (kind : Nat) :
    kept (memUe s req slot line kind) = kept s := by simp [memUe]

@[simp] theorem integrityHalt_kept (s : State) (req : Nat) (a : Nat) :
    kept (integrityHalt s req a) = kept s := by simp [integrityHalt]

@[simp] theorem setBeats_kept (s : State) (i : Nat) (bs : List Nat) :
    kept (setBeats s i bs) = kept s := by simp [setBeats, kept_fields]

@[simp] theorem setTag_kept (s : State) (i : Nat) (bs : List Nat) :
    kept (setTag s i bs) = kept s := by simp [setTag, kept_fields]

@[simp] theorem putLine_kept (s : State) (k : KeySet) (i : Nat) (ct : List Byte) (poison : Bool) :
    kept (putLine s k i ct poison) = kept s := by simp [putLine]

@[simp] theorem upsetLine_kept (s : State) (i : Nat) (flips : List (Fin 18 × BitVec 72)) :
    kept (upsetLine s i flips) = kept s := by simp [upsetLine]

@[simp] theorem fillReaches_kept (s : State) (i : Nat) : kept (fillReaches s i) = kept s := by
  simp [fillReaches, kept_fields]; repeat' split
  all_goals simp_all [kept_fields]

@[simp] theorem tagCheck_kept (s : State) (req : Nat) (a : Nat) (i : Nat) (k : KeySet) (ct : List Byte) :
    kept ((tagCheck s req a i k ct).1) = kept s := by
  simp [tagCheck]; repeat' split
  all_goals simp_all

@[simp] theorem readLine_kept (s : State) (req : Nat) (a : Nat) (i : Nat) (k : KeySet) :
    kept ((readLine s req a i k).1) = kept s := by
  simp [readLine]; repeat' split
  all_goals simp_all

@[simp] theorem inkWords_kept (n w : Nat) (l : List (Fin 18 × BitVec 72)) (j : Nat) (s : State) :
    kept (inkWords n w l j s).1 = kept s := by
  induction n generalizing w j s with
  | zero => rfl
  | succ n ih => simp [inkWords, ih]

@[simp] theorem answerError_kept (s : State) (code : Nat) :
    kept ((answerError s code).1) = kept s := by simp [answerError]

@[simp] theorem memRead_kept (s : State) (req a len : Nat) (flips : List (Fin 18 × BitVec 72)) (filled : Bool) :
    kept (memRead s req a len flips filled).1 = kept s := by
  have h1 (b : Nat) : kept (upsetLine (if filled then fillReaches s b else s) b flips) = kept s := by simp [kept_ite]
  unfold memRead
  split
  · simp
  · split
    · simp
    · dsimp only; split <;> simp
  · split <;> simp
  · rename_i byte _
    dsimp only
    split
    · simp
    · split
      · simp
      · rename_i k _
        have h := readLine_kept (upsetLine (if filled then fillReaches s (byte / 64) else s) (byte / 64) flips) req a (byte / 64) k
        rw [h1] at h
        split <;> rename_i e <;> rw [e] at h <;> simp_all

@[simp] theorem partialWrite_kept (s : State) (req a i off : Nat) (k : KeySet) (d : List Byte) :
    kept (partialWrite s req a i off k d).1 = kept s := by
  unfold partialWrite
  dsimp only
  split
  · split <;> simp
  · have h := tagCheck_kept (if lineClass (lineBeats s i) = 1 then memCe s req i else s) req a i k (beatBytes (lineBeats s i))
    have h2 : kept (if lineClass (lineBeats s i) = 1 then memCe s req i else s) = kept s := by simp [kept_ite]
    split <;> rename_i e <;> rw [e] at h <;> simp_all

@[simp] theorem memWrite_kept (s : State) (req : Nat) (a : Nat) (d : List Byte) (poison : Bool) (flips : List (Fin 18 × BitVec 72)) (filled : Bool) :
    kept ((memWrite s req a d poison flips filled).1) = kept s := by
  simp [memWrite]; repeat' split
  all_goals simp_all

@[simp] theorem notePeak_kept (s : State) : kept (notePeak s) = kept s := by simp [notePeak]

@[simp] theorem ctlTags_kept (s : State) : kept (ctlTags s) = kept s := by simp [ctlTags, kept_fields]

@[simp] theorem noteIssue_kept (s : State) :
    kept (noteIssue s) = kept s := by simp [noteIssue]

@[simp] theorem noteGrant_kept (s : State) (spill : Bool) :
    kept (noteGrant s spill) = kept s := by simp [noteGrant, kept_fields]

@[simp] theorem spillWords_kept (n w len : Nat) (s : State) : kept (spillWords n w len s).1 = kept s := by
  induction n generalizing w s with
  | zero => rfl
  | succ n ih =>
    simp only [spillWords]
    split
    · simp [ih]
    · simp only [ih]; split <;> simp

@[simp] theorem spillIssue_kept (s : State) (flips : List (Fin 18 × BitVec 72)) (filled : Bool) :
    kept (spillIssue s flips filled) = kept s := by simp [spillIssue, kept_fields]

@[simp] theorem execSpillLineAck_kept (n : Nat) (s : State) :
    kept (outSt (execSpillLineAck n s) s) = kept s := by simp [execSpillLineAck, kept_fields]

@[simp] theorem drawKeys_kept (s : State) :
    kept ((drawKeys s).2) = kept s := by simp [drawKeys]

@[simp] theorem setMemState_kept (s : State) (st : Nat) :
    kept (setMemState s st) = kept s := by simp [setMemState]

@[simp] theorem memFail_kept (s : State) (err : Nat) :
    kept (memFail s err) = kept s := by simp [memFail, kept_fields]

@[simp] theorem loseDram_kept (s : State) : kept (loseDram s) = kept s := by simp [loseDram, kept_fields]

@[simp] theorem loseMemc_kept (s : State) : kept (loseMemc s) = kept s := by
  unfold loseMemc; exact loseDram_kept s

@[simp] theorem memcInitOp_kept (s : State) : kept (WOut.st (memcInitOp s) s) = kept s := by
  simp [memcInitOp, kept_fields]; repeat' split
  all_goals simp_all [kept_fields]

@[simp] theorem memcStopOp_kept (s : State) : kept (WOut.st (memcStopOp s) s) = kept s := by
  simp [memcStopOp]; repeat' split
  all_goals simp_all

@[simp] theorem memcFillOp_kept (s : State) : kept (WOut.st (memcFillOp s) s) = kept s := by
  simp [memcFillOp, kept_fields]; repeat' split
  all_goals simp_all [kept_fields]

@[simp] theorem memcCmd_kept (s : State) (w : Word) : kept (WOut.st (memcCmd s w) s) = kept s := by
  simp [memcCmd]; repeat' split
  all_goals simp_all

@[simp] theorem execMemcTrainDone_kept (fail : Fin 6) (s : State) :
    kept (outSt (execMemcTrainDone fail s) s) = kept s := by simp [execMemcTrainDone]

@[simp] theorem execMemcTrainTimeout_kept (step : Fin 6) (s : State) :
    kept (outSt (execMemcTrainTimeout step s) s) = kept s := by simp [execMemcTrainTimeout]

@[simp] theorem finishFill_kept (s : State) (lo : Nat) (n : Nat) (k : KeySet) :
    kept (finishFill s lo n k) = kept s := by simp [finishFill, kept_fields]

@[simp] theorem execMemcFillDone_kept (s : State) : kept (outSt (execMemcFillDone s) s) = kept s := by
  simp [execMemcFillDone, kept_fields]; repeat' split
  all_goals simp_all [kept_fields]

@[simp] theorem execDdrAlert_kept (again : Bool) (s : State) :
    kept (outSt (execDdrAlert again s) s) = kept s := by simp [execDdrAlert, kept_fields]

@[simp] theorem memcClear_kept (s : State) :
    kept (memcClear s) = kept s := by simp [memcClear]

@[simp] theorem memcWrite_kept (s : State) (off : Nat) (w : Word) : kept (WOut.st (memcWrite s off w) s) = kept s := by
  simp [memcWrite]; repeat' split
  all_goals simp_all

@[simp] theorem xtsWrite_kept (s : State) (off : Nat) (w : Word) : kept (WOut.st (xtsWrite s off w) s) = kept s := by
  simp [xtsWrite]; repeat' split
  all_goals simp_all

@[simp] theorem setSlot_kept (s : State) (k : Nat) (v : Option KeySet) :
    kept (setSlot s k v) = kept s := by simp [setSlot, kept_fields]

@[simp] theorem loadKeys_kept (s : State) (p : Option Path) : kept ((loadKeys s p).2) = kept s := by
  unfold loadKeys; dsimp only
  repeat' split
  all_goals simp_all

@[simp] theorem keysCmd_kept (s : State) (p : Option Path) (w : Word) : kept (WOut.st (keysCmd s p w) s) = kept s := by
  simp [keysCmd, kept_fields]; repeat' split
  all_goals simp_all [kept_fields]

@[simp] theorem keysWrite_kept (s : State) (p : Option Path) (off : Nat) (w : Word) :
    kept (WOut.st (keysWrite s p off w) s) = kept s := by
  simp [keysWrite, kept_fields]; repeat' split
  all_goals simp_all [kept_fields]

@[simp] theorem sendNow_kept (s : State) (n : Nat) (p : Pkt) (enc : Bool) :
    kept (sendNow s n p enc) = kept s := by simp [sendNow]

@[simp] theorem drainOut_kept (x0 : Nat) (x1 : Nat) (x2 : State) : kept (drainOut x0 x1 x2) = kept x2 := by
  fun_induction drainOut x0 x1 x2 <;> simp_all

@[simp] theorem routeSend_kept (s : State) (n : Nat) (p : Pkt) :
    kept (routeSend s n p) = kept s := by simp [routeSend]

@[simp] theorem sendCpl_kept (s : State) (lane : Nat) (dst : Nat) (tag : Nat) (addr : Nat) (status : Nat) (kind : Nat) (word : Nat) (d : List Nat) :
    kept (sendCpl s lane dst tag addr status kind word d) = kept s := by simp [sendCpl]

@[simp] theorem unreachable_kept (s : State) (lane : Nat) (p : Pkt) :
    kept (unreachable s lane p) = kept s := by simp [unreachable]

@[simp] theorem forward_kept (s : State) (lane : Nat) (p : Pkt) : kept (forward s lane p) = kept s := by
  simp [forward]; repeat' split
  all_goals simp_all

@[simp] theorem setStrm_kept (s : State) (k : Nat) (x : Strm) :
    kept (setStrm s k x) = kept s := by simp [setStrm, kept_fields]

@[simp] theorem streamSend_kept (s : State) (k : Nat) :
    kept (streamSend s k) = kept s := by simp [streamSend]

@[simp] theorem streamsSend_kept (s : State) :
    kept (streamsSend s) = kept s := by simp [streamsSend]

@[simp] theorem streamPut_kept (s : State) (k : Nat) (d : List Byte) :
    kept (streamPut s k d) = kept s := by simp [streamPut]

@[simp] theorem streamFullFor_kept (s : State) (k : Nat) (e : Nat) :
    kept (streamFullFor s k e) = kept s := by simp [streamFullFor]

@[simp] theorem execStreamPacketClose_kept (k : Fin 16) (s : State) :
    kept (outSt (execStreamPacketClose k s) s) = kept s := by simp [execStreamPacketClose]

@[simp] theorem setChan_kept (s : State) (c : Nat) (h : Chan) :
    kept (setChan s c h) = kept s := by simp [setChan, kept_fields]

@[simp] theorem setChanSt_kept (s : State) (c : Nat) (st : Nat) :
    kept (setChanSt s c st) = kept s := by simp [setChanSt]

@[simp] theorem setAddr40_kept (s : State) (lo : Nat) (hi : Nat) (a : Nat) :
    kept (setAddr40 s lo hi a) = kept s := by simp [setAddr40]

@[simp] theorem setSrc_kept (s : State) (c : Nat) (a : Nat) :
    kept (setSrc s c a) = kept s := by simp [setSrc]

@[simp] theorem setDst_kept (s : State) (c : Nat) (a : Nat) :
    kept (setDst s c a) = kept s := by simp [setDst]

@[simp] theorem dmaIrq_kept (s : State) (c : Nat) (base : Nat) :
    kept (dmaIrq s c base) = kept s := by simp [dmaIrq]

@[simp] theorem noteErr_kept (s : State) (c : Nat) (resp : Nat) (ph : Nat) (addr : Nat) (n : Nat) :
    kept (noteErr s c resp ph addr n) = kept s := by
  simp [noteErr]; repeat' split
  all_goals simp_all

@[simp] theorem linkCheck_kept (s : State) (c : Nat) :
    kept (linkCheck s c) = kept s := by simp [linkCheck]

@[simp] theorem enterError_kept (s : State) (c : Nat) (resp : Nat) (ph : Nat) (addr : Nat) (n : Nat) :
    kept (enterError s c resp ph addr n) = kept s := by simp [enterError]

@[simp] theorem enterPaused_kept (s : State) (c : Nat) :
    kept (enterPaused s c) = kept s := by simp [enterPaused]

@[simp] theorem settle_kept (s : State) (c : Nat) : kept (settle s c) = kept s := by
  simp [settle]; repeat' split
  all_goals simp_all

@[simp] theorem chanStep_kept (s : State) (c : Nat) :
    kept (chanStep s c) = kept s := by simp [chanStep]

@[simp] theorem closeStreams_kept (old : State) (s : State) :
    kept (closeStreams old s) = kept s := by simp [closeStreams]

theorem issued_kept (c ph n addr : Nat) (r : State × MemAns) : kept (issued c ph n addr r) = kept r.1 := by
  obtain ⟨t, a⟩ := r
  simp [issued, kept_fields]

@[simp] theorem passElem_kept (s : State) (c : Nat) :
    kept (passElem s c) = kept s := by simp [passElem]

@[simp] theorem readOnce_kept (c : Fin 32) (k : DmaRead) (flips : List (Fin 18 × BitVec 72)) (filled : Bool) (s : State) :
    kept (outSt (readOnce c k flips filled s) s) = kept s := by
  cases k <;> simp only [readOnce, outSt_whenCan, kept_ite, issued_kept]
  · simp
  · simp
  · split
    · split <;> simp
    · rfl

@[simp] theorem execMemoryRead_kept (c : Fin 32) (k : DmaRead) (flips : List (Fin 18 × BitVec 72)) (filled : Bool) (s : State) :
    kept (outSt (execMemoryRead c k flips filled s) s) = kept s := orAlso_kept (readOnce_kept c k flips filled s)

@[simp] theorem passWrite_kept (s : State) (c : Nat) :
    kept (passWrite s c) = kept s := by simp [passWrite]

@[simp] theorem writeOnce_kept (r : MemWriter) (flips : List (Fin 18 × BitVec 72)) (filled : Bool) (s : State) :
    kept (outSt (writeOnce r flips filled s) s) = kept s := by
  cases r <;> simp [writeOnce, kept_ite, issued_kept]

@[simp] theorem execMemoryWrite_kept (r : MemWriter) (flips : List (Fin 18 × BitVec 72)) (filled : Bool) (s : State) :
    kept (outSt (execMemoryWrite r flips filled s) s) = kept s := orAlso_kept (writeOnce_kept r flips filled s)

@[simp] theorem answered_kept (s : State) (c : Nat) (i : Nat) :
    kept (answered s c i) = kept s := by simp [answered]

@[simp] theorem bufWrite_kept (c : Nat) (x1 : Nat) (x2 : List Nat) (x3 : State) :
    kept (bufWrite c x1 x2 x3) = kept x3 := by
  fun_induction bufWrite c x1 x2 x3 <;> simp_all

@[simp] theorem readAnswer_kept (s : State) (c : Nat) (i : Nat) (r : DReq) :
    kept (readAnswer s c i r) = kept s := by simp [readAnswer]

@[simp] theorem bufElem_kept (s : State) (c : Nat) :
    kept (bufElem s c) = kept s := by simp [bufElem]

@[simp] theorem execDmaReadResponse_kept (c : Fin 32) (i : Nat) (s : State) :
    kept (outSt (execDmaReadResponse c i s) s) = kept s := by
  simp [execDmaReadResponse]; repeat' split
  all_goals simp_all

@[simp] theorem elemWritten_kept (s : State) (c : Nat) :
    kept (elemWritten s c) = kept s := by simp [elemWritten]

@[simp] theorem takeElem_kept (s : State) (c : Nat) :
    kept (takeElem s c) = kept s := by simp [takeElem]

@[simp] theorem execDmaWriteAck_kept (c : Fin 32) (i : Nat) (s : State) :
    kept (outSt (execDmaWriteAck c i s) s) = kept s := by
  simp [execDmaWriteAck]; repeat' split
  all_goals simp_all

@[simp] theorem beginTransfer_kept (s : State) (c : Nat) :
    kept (beginTransfer s c) = kept s := by simp [beginTransfer]

@[simp] theorem loadDesc_kept (c : Nat) (ws : List Nat) (s : State) :
    kept (loadDesc c ws s) = kept s := by simp [loadDesc]

@[simp] theorem execDmaDescriptorLoad_kept (c : Fin 32) (s : State) :
    kept (outSt (execDmaDescriptorLoad c s) s) = kept s := by
  simp [execDmaDescriptorLoad]; repeat' split
  all_goals simp_all

@[simp] theorem dmaStartOp_kept (s : State) (c : Nat) : kept (WOut.st (dmaStartOp s c) s) = kept s := by
  simp [dmaStartOp]; repeat' split
  all_goals simp_all

@[simp] theorem dmaPauseOp_kept (s : State) (c : Nat) : kept (WOut.st (dmaPauseOp s c) s) = kept s := by
  simp [dmaPauseOp]; repeat' split
  all_goals simp_all

@[simp] theorem dmaResumeOp_kept (s : State) (c : Nat) : kept (WOut.st (dmaResumeOp s c) s) = kept s := by
  simp [dmaResumeOp]; repeat' split
  all_goals simp_all

@[simp] theorem dmaCancelOp_kept (s : State) (c : Nat) : kept (WOut.st (dmaCancelOp s c) s) = kept s := by
  simp [dmaCancelOp]; repeat' split
  all_goals simp_all

@[simp] theorem dmaCmd_kept (s : State) (c : Nat) (w : Nat) : kept (WOut.st (dmaCmd s c w) s) = kept s := by
  simp [dmaCmd]; repeat' split
  all_goals simp_all

@[simp] theorem dmaWrite_kept (s : State) (i : Nat) (off : Nat) (w : Word) :
    kept (WOut.st (dmaWrite s i off w) s) = kept s := by
  simp [dmaWrite]; repeat' split
  all_goals simp_all

@[simp] theorem dlnkWrite_kept (s : State) (off : Nat) (w : Word) :
    kept (WOut.st (dlnkWrite s off w) s) = kept s := by simp [dlnkWrite]

@[simp] theorem dropLink_kept (s : State) (n : Nat) :
    kept (dropLink s n) = kept s := by simp [dropLink]

@[simp] theorem leaveUp_kept (s : State) (n : Nat) :
    kept (leaveUp s n) = kept s := by simp [leaveUp]

@[simp] theorem restartLane_kept (old : State) (s : State) (n : Nat) :
    kept (restartLane old s n) = kept s := by simp [restartLane]

@[simp] theorem dropLane_kept (old : State) (s : State) (n : Nat) :
    kept (dropLane old s n) = kept s := by simp [dropLane]

@[simp] theorem execLaneSynthTimeout_kept (n : Fin 8) (s : State) :
    kept (outSt (execLaneSynthTimeout n s) s) = kept s := by simp [execLaneSynthTimeout]

@[simp] theorem execLaneHuntTimeout_kept (n : Fin 8) (s : State) :
    kept (outSt (execLaneHuntTimeout n s) s) = kept s := by simp [execLaneHuntTimeout]

@[simp] theorem execLaneRateChange_kept (n : Fin 8) (s : State) :
    kept (outSt (execLaneRateChange n s) s) = kept s := by simp [execLaneRateChange]

@[simp] theorem execLaneCvRetrain_kept (n : Fin 8) (s : State) :
    kept (outSt (execLaneCvRetrain n s) s) = kept s := by simp [execLaneCvRetrain]

@[simp] theorem answerReq_kept (s : State) (n : Nat) (v : Vector Byte 15) :
    kept (answerReq s n v) = kept s := by simp [answerReq]

@[simp] theorem eqDegrade_kept (s : State) (n : Nat) :
    kept (eqDegrade s n) = kept s := by simp [eqDegrade]

@[simp] theorem execEqRequestLimit_kept (n : Fin 8) (s : State) :
    kept (outSt (execEqRequestLimit n s) s) = kept s := by simp [execEqRequestLimit]

@[simp] theorem countReqs_kept (s : State) (n : Nat) (sent : Nat) :
    kept (countReqs s n sent) = kept s := by simp [countReqs]

@[simp] theorem takeAnswer_kept (s : State) (n : Nat) (v : Vector Byte 15) (metric : Nat) :
    kept (takeAnswer s n v metric) = kept s := by simp [takeAnswer]

@[simp] theorem enterEq_kept (s : State) (n : Nat) :
    kept (enterEq s n) = kept s := by simp [enterEq]

@[simp] theorem sendKeyx_kept (s : State) (n : Nat) :
    kept (sendKeyx s n) = kept s := by simp [sendKeyx]

@[simp] theorem cryptoBackLane_kept (s : State) (n : Nat) : kept (cryptoBackLane s n) = kept s := by simp [cryptoBackLane]

@[simp] theorem cryptoBack_kept (s : State) : kept (cryptoBack s) = kept s := by simp [cryptoBack]

@[simp] theorem enterUp_kept (s : State) (n : Nat) :
    kept (enterUp s n) = kept s := by simp [enterUp]

@[simp] theorem setAdvances_kept (s : State) (n : Nat) (v : Vector Byte 15) : kept (setAdvances s n v) = kept s := by
  simp [setAdvances]; repeat' split
  all_goals simp_all

@[simp] theorem notePartner_kept (s : State) (n : Nat) (v : Vector Byte 15) :
    kept (notePartner s n v) = kept s := by simp [notePartner]

@[simp] theorem execTrainingSetReceived_kept (n : Fin 8) (v : Vector Byte 15) (bad : Bool) (metric : Fin 128) (sent : Nat) (s : State) :
    kept (outSt (execTrainingSetReceived n v bad metric sent s) s) = kept s := by simp [execTrainingSetReceived]

@[simp] theorem execEyeScanDone_kept (n : Fin 8) (errs : Word) (s : State) :
    kept (outSt (execEyeScanDone n errs s) s) = kept s := by simp [execEyeScanDone]

@[simp] theorem sendAck_kept (s : State) (n : Nat) :
    kept (sendAck s n) = kept s := by simp [sendAck]

@[simp] theorem discardNak_kept (s : State) (n : Nat) :
    kept (discardNak s n) = kept s := by simp [discardNak]

@[simp] theorem delivered_kept (s : State) (n : Nat) :
    kept (delivered s n) = kept s := by simp [delivered]

theorem receive_kept (s : State) (n : Nat) (k : Packet) :
    match receive s n k with
    | .drop t => kept t = kept s
    | .take t _ => kept t = kept s := by
  unfold receive
  by_cases h1 : pkSeq k ≠ (laneOf s n).rxSeq
  · rw [if_pos h1]; dsimp only; split <;> simp
  · rw [if_neg h1]
    dsimp only
    by_cases h2 : (pkEnc k != laneEnc s n) = true
    · rw [if_pos h2]; simp
    · rw [if_neg h2]
      by_cases h3 : pkEnc k = true
      · rw [if_pos h3]
        cases (laneOf (delivered s n) n).sess with
        | none => simp
        | some e =>
          dsimp only
          cases openPkt e (pkPkt k) with
          | none => simp
          | some p => simp
      · rw [if_neg h3]; simp

theorem routed_kept (s : State) (n : Nat) (k : Packet) {own : State → List Nat → State}
    (ho : ∀ t l, kept (own t l) = kept t) : kept (routed s n k own) = kept s := by
  have h := receive_kept s n k
  unfold routed
  split <;> rename_i e <;> rw [e] at h
  · exact h
  · split
    · rw [ho]; exact h
    · simpa using h

theorem routedArrival_kept (ok : Bool) (n : Nat) (k : Packet) {own : State → List Nat → State} (s : State)
    (ho : ∀ t l, kept (own t l) = kept t) : kept (outSt (routedArrival ok n k own s) s) = kept s :=
  orAlso_kept (by simp [routed_kept _ _ _ ho])

@[simp] theorem queueReq_kept (s : State) (n : Nat) (k : Packet) (pay : List Nat) :
    kept (queueReq s n k pay) = kept s := by simp [queueReq, kept_fields]

@[simp] theorem takeReq_kept (bad : Bool) (n : Nat) (k : Packet) (s : State) (pay : List Nat) :
    kept (takeReq bad n k s pay) = kept s := by simp [takeReq]

@[simp] theorem execDraughtRd_kept (n : Fin 8) (k : Packet) (s : State) :
    kept (outSt (execDraughtRd n k s) s) = kept s := by simp [execDraughtRd, routedArrival_kept]

@[simp] theorem execDraughtWr_kept (n : Fin 8) (k : Packet) (s : State) :
    kept (outSt (execDraughtWr n k s) s) = kept s := by simp [execDraughtWr, routedArrival_kept]

@[simp] theorem badType_kept (n : Nat) (k : Packet) (s : State) :
    kept (badType n k s) = kept s := by simp [badType]

@[simp] theorem execDraughtCpl_kept (n : Fin 8) (k : Packet) (s : State) :
    kept (outSt (execDraughtCpl n k s) s) = kept s := by simp [execDraughtCpl, routedArrival_kept]

@[simp] theorem execDraughtStream_kept (n : Fin 8) (k : Packet) (s : State) :
    kept (outSt (execDraughtStream n k s) s) = kept s := by simp [execDraughtStream, routedArrival_kept]

@[simp] theorem takeCredit_kept (k : Packet) (s : State) :
    kept (takeCredit k s) = kept s := by simp [takeCredit]

@[simp] theorem execDraughtCredit_kept (n : Fin 8) (k : Packet) (s : State) :
    kept (outSt (execDraughtCredit n k s) s) = kept s := by simp [execDraughtCredit, routedArrival_kept]

@[simp] theorem execDraughtUndefinedType_kept (n : Fin 8) (k : Packet) (s : State) :
    kept (outSt (execDraughtUndefinedType n k s) s) = kept s := by simp [execDraughtUndefinedType, routedArrival_kept]

@[simp] theorem execDraughtAck_kept (n : Fin 8) (k : Packet) (s : State) :
    kept (outSt (execDraughtAck n k s) s) = kept s := by
  simp [execDraughtAck]; repeat' split
  all_goals simp_all

@[simp] theorem replayOnce_kept (s : State) (n : Nat) (q : Option Nat) :
    kept (replayOnce s n q) = kept s := by simp [replayOnce]

@[simp] theorem execDraughtNak_kept (n : Fin 8) (k : Packet) (s : State) :
    kept (outSt (execDraughtNak n k s) s) = kept s := by simp [execDraughtNak]

@[simp] theorem execReplayTimeout_kept (n : Fin 8) (s : State) :
    kept (outSt (execReplayTimeout n s) s) = kept s := by simp [execReplayTimeout]

@[simp] theorem execAckTimer_kept (n : Fin 8) (s : State) :
    kept (outSt (execAckTimer n s) s) = kept s := by simp [execAckTimer]

@[simp] theorem execDraughtBadCrc_kept (n : Fin 8) (s : State) :
    kept (outSt (execDraughtBadCrc n s) s) = kept s := by simp [execDraughtBadCrc]

@[simp] theorem keyxZ_kept (s : State) (n : Nat) (priv : Nat) (theirs : List Byte) :
    kept ((keyxZ s n priv theirs).2) = kept s := by
  simp [keyxZ]; repeat' split
  all_goals simp_all

@[simp] theorem takeKeyx_kept (s : State) (n : Nat) (pay : List Nat) : kept (takeKeyx s n pay) = kept s := by
  simp [takeKeyx]; repeat' split
  all_goals simp_all

@[simp] theorem execDraughtKeyx_kept (n : Fin 8) (k : Packet) (s : State) :
    kept (outSt (execDraughtKeyx n k s) s) = kept s := by simp [execDraughtKeyx]

@[simp] theorem scanOp_kept (s : State) (n : Nat) (w : Nat) : kept (WOut.st (scanOp s n w) s) = kept s := by
  simp [scanOp]; repeat' split
  all_goals simp_all

@[simp] theorem laneWrite_kept (s : State) (host : Bool) (n : Nat) (off : Nat) (w : Word) :
    kept (WOut.st (laneWrite s host n off w) s) = kept s := by
  simp [laneWrite]; repeat' split
  all_goals simp_all

@[simp] theorem execSteepLaneResult_kept (n : Fin 8) (s : State) :
    kept (outSt (execSteepLaneResult n s) s) = kept s := by
  simp [execSteepLaneResult]; repeat' split
  all_goals simp_all

@[simp] theorem setUart_kept (s : State) (n : Nat) (u : Uart) :
    kept (setUart s n u) = kept s := by simp [setUart, kept_fields]

@[simp] theorem setLine_kept (s : State) (n : Nat) (b : Bool) :
    kept (setLine s n b) = kept s := by simp [setLine]

@[simp] theorem startRx_kept (s : State) (n : Nat) (cycle : Nat) : kept (startRx s n cycle) = kept s := by simp [startRx]

@[simp] theorem execUartStartEdge_kept (n : Fin 8) (cycle : Nat) (s : State) :
    kept (outSt (execUartStartEdge n cycle s) s) = kept s := by simp [execUartStartEdge]

@[simp] theorem uartIrq_kept (s : State) (n : Nat) (i : Nat) :
    kept (uartIrq s n i) = kept s := by simp [uartIrq]

@[simp] theorem rxPut_kept (s : State) (n : Nat) (e : Nat) :
    kept (rxPut s n e) = kept s := by simp [rxPut]

@[simp] theorem rxqRead_kept (s : State) (n : Nat) : kept ((rxqRead s n).1) = kept s := by
  simp [rxqRead]; repeat' split
  all_goals simp_all

@[simp] theorem txTake_kept (s : State) (n : Nat) : kept ((txTake s n).1) = kept s := by
  simp [txTake]; repeat' split
  all_goals simp_all

@[simp] theorem txStart_kept (s : State) (n : Nat) :
    kept (txStart s n) = kept s := by simp [txStart]

@[simp] theorem frameField_kept (s : State) (n : Nat) : kept (frameField s n) = kept s := by
  simp [frameField]; repeat' split
  all_goals simp_all

@[simp] theorem baudSync_kept (s : State) :
    kept (baudSync s) = kept s := by simp [baudSync, kept_fields]

theorem monTake_otp (m : Mon) (c : Byte) (l k : Bool) : (monTake m c l k).pwh = m.pwh ∧ (monTake m c l k).key = m.key := by
  unfold monTake
  split
  · exact ⟨rfl, rfl⟩
  · split
    · exact ⟨rfl, rfl⟩
    · split <;> exact ⟨rfl, rfl⟩

theorem monDrain_otp (l : List (Byte × Bool)) (m : Mon) : (monDrain l m).pwh = m.pwh ∧ (monDrain l m).key = m.key := by
  induction l generalizing m with
  | nil => exact ⟨rfl, rfl⟩
  | cons e l ih =>
    simp only [monDrain]
    split
    · exact ⟨(ih _).1.trans (monTake_otp ..).1, (ih _).2.trans (monTake_otp ..).2⟩
    · exact ⟨rfl, rfl⟩

theorem monSent_otp (m : Mon) : (monSent m).pwh = m.pwh ∧ (monSent m).key = m.key := by
  unfold monSent
  dsimp only
  split
  · exact ⟨(monDrain_otp ..).1, (monDrain_otp ..).2⟩
  · exact ⟨rfl, rfl⟩

@[simp] theorem execUartCharSent_kept (n : Fin 8) (s : State) : kept (outSt (execUartCharSent n s) s) = kept s := by
  unfold execUartCharSent
  split
  · simp [kept_ite, kept_mk, monSent_otp, kept_fields]
  · dsimp only
    split <;> simp [kept_ite]

@[simp] theorem execUartScRepeat_kept (n : Fin 8) (s : State) : kept (outSt (execUartScRepeat n s) s) = kept s := by
  simp [execUartScRepeat]; repeat' split
  all_goals simp_all

@[simp] theorem answerPid_kept (s : State) (n : Nat) (pid : Nat) : kept ((answerPid s n pid).1) = kept s := by
  simp [answerPid]; repeat' split
  all_goals simp_all

@[simp] theorem frameChar_kept (s : State) (n : Nat) (r : URx) (v : Nat) (e : Nat) :
    kept (frameChar s n r v e) = kept s := by
  simp [frameChar]; repeat' split
  all_goals simp_all

@[simp] theorem charDone_kept (s : State) (n : Nat) (r : URx) :
    kept (charDone s n r) = kept s := by simp [charDone]

@[simp] theorem bitError_kept (s : State) (n : Nat) (k : Nat) (bits : List Bool) : kept (bitError s n k bits) = kept s := by
  unfold bitError; dsimp only
  repeat' split
  all_goals simp_all

@[simp] theorem charEnd_kept (s0 : State) (n : Nat) (r : URx) : kept (charEnd s0 n r) = kept s0 := by
  unfold charEnd; dsimp only
  repeat' split
  all_goals simp_all [kept_fields]

@[simp] theorem execUartResyncEdge_kept (n : Fin 8) (rise : Nat) (fall : Nat) (s : State) :
    kept (outSt (execUartResyncEdge n rise fall s) s) = kept s := by
  simp [execUartResyncEdge]; repeat' split
  all_goals simp_all

@[simp] theorem execUartCharReceived_kept (n : Fin 8) (rise : Option Nat) (s : State) :
    kept (outSt (execUartCharReceived n rise s) s) = kept s := by
  simp [execUartCharReceived]; repeat' split
  all_goals simp_all

@[simp] theorem execUartBreak_kept (n : Fin 8) (s : State) : kept (outSt (execUartBreak n s) s) = kept s := by
  simp [execUartBreak]; repeat' split
  all_goals simp_all

@[simp] theorem execUartResponseTimeout_kept (n : Fin 8) (s : State) :
    kept (outSt (execUartResponseTimeout n s) s) = kept s := by simp [execUartResponseTimeout]

@[simp] theorem execUartBitError_kept (n : Fin 8) (k : Fin 32) (rise : Option Nat) (s : State) :
    kept (outSt (execUartBitError n k rise s) s) = kept s := by simp [execUartBitError]

@[simp] theorem uartCfgOp_kept (s : State) (n : Nat) (w : Word) : kept (WOut.st (uartCfgOp s n w) s) = kept s := by
  simp [uartCfgOp]; repeat' split
  all_goals simp_all

@[simp] theorem uartFcmdOp_kept (s : State) (n : Nat) (w : Word) (quiet : Bool) :
    kept (WOut.st (uartFcmdOp s n w quiet) s) = kept s := by
  simp [uartFcmdOp]; repeat' split
  all_goals simp_all

@[simp] theorem uartTxqOp_kept (s : State) (n : Nat) (w : Word) : kept (WOut.st (uartTxqOp s n w) s) = kept s := by
  simp [uartTxqOp]; repeat' split
  all_goals simp_all

@[simp] theorem uartWrite_kept (s : State) (n : Nat) (off : Nat) (w : Word) (quiet : Bool) :
    kept (WOut.st (uartWrite s n off w quiet) s) = kept s := by
  simp [uartWrite]; repeat' split
  all_goals simp_all

@[simp] theorem dropUarts_kept (s : State) :
    kept (dropUarts s) = kept s := by simp [dropUarts, kept_fields]

@[simp] theorem setDom_kept (s : State) (d : Nat) (st : Nat) :
    kept (setDom s d st) = kept s := by simp [setDom, kept_fields]

@[simp] theorem losePage_kept (s : State) (p : Nat) :
    kept (losePage s p) = kept s := by simp [losePage, kept_fields]

@[simp] theorem loseIsland_kept (s : State) (x : Nat) :
    kept (loseIsland s x) = kept s := by simp [loseIsland, kept_fields]

@[simp] theorem loseCapf_kept (s : State) :
    kept (loseCapf s) = kept s := by simp [loseCapf, kept_fields]

@[simp] theorem loseCaps_kept (s : State) :
    kept (loseCaps s) = kept s := by simp [loseCaps, kept_fields]

@[simp] theorem loseTdc_kept (s : State) (h : Nat) :
    kept (loseTdc s h) = kept s := by simp [loseTdc, kept_fields]

@[simp] theorem loseBlot_kept (s : State) :
    kept (loseBlot s) = kept s := by simp [loseBlot, kept_fields]

@[simp] theorem loseKeys_kept (s : State) :
    kept (loseKeys s) = kept s := by simp [loseKeys, kept_fields]

@[simp] theorem loseHidden_kept (old : State) (s : State) (d : Nat) : kept (loseHidden old s d) = kept s := by
  simp [loseHidden, kept_fields]; repeat' split
  all_goals simp_all [kept_fields]

@[simp] theorem loseDomain_kept (s : State) (d : Nat) :
    kept (loseDomain s d) = kept s := by simp [loseDomain]

@[simp] theorem freshFi_kept (s : State) (x : Nat) :
    kept (freshFi s x) = kept s := by simp [freshFi]

@[simp] theorem applyDom_kept (s : State) (d : Nat) :
    kept (applyDom s d) = kept s := by simp [applyDom]

@[simp] theorem execDomainPowerUpDone_kept (d : Fin 64) (s : State) :
    kept (outSt (execDomainPowerUpDone d s) s) = kept s := by simp [execDomainPowerUpDone]

@[simp] theorem execDomainPowerDownDone_kept (d : Fin 64) (s : State) :
    kept (outSt (execDomainPowerDownDone d s) s) = kept s := by simp [execDomainPowerDownDone]

@[simp] theorem openBank_kept (s : State) (p : Nat) :
    kept (openBank s p) = kept s := by simp [openBank]

@[simp] theorem closeBank_kept (s : State) (p : Nat) :
    kept (closeBank s p) = kept s := by simp [closeBank, kept_fields]

@[simp] theorem recordOne_kept (s : State) (x1 : CUnit) : kept (recordOne s x1) = kept s := by
  simp [recordOne]; repeat' split
  all_goals simp_all

@[simp] theorem recordReasons_kept (s : State) (us : List CUnit) : kept (recordReasons s us) = kept s := by
  simp [recordReasons]; repeat' split
  all_goals simp_all

@[simp] theorem rootIdle_kept (s : State) :
    kept (rootIdle s) = kept s := by simp [rootIdle, kept_fields]

@[simp] theorem commitIrq_kept (i : Nat) (s : State) (p : Nat) : kept (commitIrq i s p) = kept s := by
  simp [commitIrq]; repeat' split
  all_goals simp_all

@[simp] theorem endRefused_kept (s : State) (ps : List Nat) (reason : Nat) (page : Nat) :
    kept (endRefused s ps reason page) = kept s := by simp [endRefused]

@[simp] theorem returnGens_kept (s : State) :
    kept (returnGens s) = kept s := by simp [returnGens]

@[simp] theorem endDone_kept (s : State) (ps : List Nat) (wedged : Bool) :
    kept (endDone s ps wedged) = kept s := by simp [endDone]

@[simp] theorem takePending_kept (s : State) (as : List Nat) :
    kept (takePending s as) = kept s := by simp [takePending]

@[simp] theorem genTakes_kept (old : State) (s : State) (g : Nat) :
    kept (genTakes old s g) = kept s := by simp [genTakes]

@[simp] theorem fenceTakes_kept (old : State) (s : State) (x : Nat) :
    kept (fenceTakes old s x) = kept s := by simp [fenceTakes]

@[simp] theorem unitTakes_kept (old : State) (s : State) (x2 : CUnit) : kept (unitTakes old s x2) = kept s := by
  simp [unitTakes]; repeat' split
  all_goals simp_all

@[simp] theorem applyUnits_kept (s : State) (us : List CUnit) : kept (applyUnits s us) = kept s := by
  unfold applyUnits
  rw [foldl_kept (fun t u => unitTakes_kept s t u)]
  simp

@[simp] theorem acknowledge_kept (s : State) (us : List CUnit) :
    kept (acknowledge s us) = kept s := by simp [acknowledge, kept_fields]

@[simp] theorem sendApply_kept (s : State) : kept (sendApply s) = kept s := by simp [sendApply, kept_fields]

@[simp] theorem unitsDecide_kept (s : State) (us : List CUnit) :
    kept (unitsDecide s us) = kept s := by simp [unitsDecide, kept_fields]

@[simp] theorem sendPrepare_kept (s : State) (ps : List Nat) (us : List CUnit) :
    kept (sendPrepare s ps us) = kept s := by simp [sendPrepare, kept_fields]

@[simp] theorem startCommit_kept (s : State) (ps : List Nat) : kept (startCommit s ps) = kept s := by
  simp [startCommit]; repeat' split
  all_goals simp_all

@[simp] theorem commitOp_kept (s : State) (w : Word) : kept (WOut.st (commitOp s w) s) = kept s := by
  simp [commitOp]; repeat' split
  all_goals simp_all

@[simp] theorem unitDecideOp_kept (us : List CUnit) (s : State) : kept (unitDecideOp us s) = kept s := by simp [unitDecideOp]

@[simp] theorem prepareTimeoutOp_kept (s : State) : kept (prepareTimeoutOp s) = kept s := by simp [prepareTimeoutOp]

@[simp] theorem unitApplyOp_kept (us : List CUnit) (s : State) : kept (unitApplyOp us s) = kept s := by simp [unitApplyOp]

@[simp] theorem applyTimeoutOp_kept (u : CUnit) (s : State) : kept (applyTimeoutOp u s) = kept s := by simp [applyTimeoutOp]

@[simp] theorem setResult_kept (s : State) (t : Nat) (lres : Nat) (mres : Nat) (rep : Bool) (spares : Nat) :
    kept (setResult s t lres mres rep spares) = kept s := by simp [setResult]

@[simp] theorem startTargets_kept (o : BPass) (n : Nat) (s : State) : kept (startTargets o n s) = kept s := by
  induction n generalizing s with
  | zero => rfl
  | succ n ih =>
    simp only [startTargets]
    split
    · rfl
    · split
      · rw [ih]; simp [kept_fields]
      · split
        · rw [ih]; simp [kept_fields]
        · rfl

@[simp] theorem endPass_kept (s : State) :
    kept (endPass s) = kept s := by simp [endPass, kept_fields]

@[simp] theorem resumePass_kept (s : State) : kept (resumePass s) = kept s := by
  unfold resumePass; split <;> simp

@[simp] theorem clearResults_kept (s : State) :
    kept (clearResults s) = kept s := by simp [clearResults, kept_fields]

@[simp] theorem startPass_kept (s : State) (host : Bool) (o : BPass) (ts : List Nat) :
    kept (startPass s host o ts) = kept s := by simp [startPass, kept_fields]

@[simp] theorem kilnPass_kept (s : State) :
    kept (kilnPass s) = kept s := by simp [kilnPass]

@[simp] theorem logFault_kept (t : Nat) (mapped : Nat → Nat → Bool) (s : State) (f : Fin 64 × Fin 65536 × Fin 128) :
    kept (logFault t mapped s f) = kept s := by simp [logFault]

@[simp] theorem repairRow_kept (t : Nat) (s : State) (r : Nat × Nat) :
    kept (repairRow t s r) = kept s := by simp [repairRow, kept_fields]

@[simp] theorem restoreTarget_kept (s : State) (mbist : Bool) (t : Nat) :
    kept (restoreTarget s mbist t) = kept s := by simp [restoreTarget, kept_fields]

@[simp] theorem reinitTarget_kept (s : State) (t : Nat) :
    kept (reinitTarget s t) = kept s := by simp [reinitTarget]

@[simp] theorem execBistTargetDone_kept (t : Fin 64) (lfail : Bool) (faults again : List (Fin 64 × Fin 65536 × Fin 128))
    (s : State) : kept (outSt (execBistTargetDone t lfail faults again s) s) = kept s := by
  unfold execBistTargetDone
  split
  · dsimp only
    rw [outSt_whenCan]
    apply kept_if
    have hf (m : Nat → Nat → Bool) (l : List (Fin 64 × Fin 65536 × Fin 128)) (u : State) :
        kept (l.foldl (logFault t m) u) = kept u := foldl_kept (fun u f => logFault_kept _ _ u f) l u
    have hr (l : List (Nat × Nat)) (u : State) : kept (l.foldl (repairRow t) u) = kept u :=
      foldl_kept (fun u f => repairRow_kept _ u f) l u
    rw [endPass_kept, startTargets_kept, kept_ite, cryptoBack_kept, ite_self, kept_mk]
    simp only [kept_fields]
    simp only [kept_ite, reinitTarget_kept, restoreTarget_kept, irqBit_kept, satF_kept, setResult_kept, hf, hr, ite_self]
  · rfl

@[simp] theorem bistStart_kept (s : State) : kept (WOut.st (bistStart s) s) = kept s := by
  simp [bistStart]; repeat' split
  all_goals simp_all

@[simp] theorem bistWrite_kept (s : State) (off : Nat) (w : Word) : kept (WOut.st (bistWrite s off w) s) = kept s := by
  simp [bistWrite, kept_fields]; repeat' split
  all_goals simp_all [kept_fields]

@[simp] theorem setChal_kept (s : State) (p : Path) (c : Option (List Byte)) :
    kept (setChal s p c) = kept s := by simp [setChal, kept_fields]

@[simp] theorem unlockFailed_kept (s : State) (p : Path) :
    kept (unlockFailed s p) = kept s := by simp [unlockFailed]

@[simp] theorem raiseTo_kept (s : State) (p : Path) (l : Nat) :
    kept (raiseTo s p l) = kept s := by simp [raiseTo]

@[simp] theorem unlockPw_kept (s : State) (p : Path) (pw : List Byte) : kept ((unlockPw s p pw).2) = kept s := by
  simp [unlockPw]; repeat' split
  all_goals simp_all

@[simp] theorem unlockChal_kept (s : State) (p : Path) : kept ((unlockChal s p).2) = kept s := by
  simp [unlockChal]; repeat' split
  all_goals simp_all

@[simp] theorem unlockResp_kept (s : State) (p : Path) (r : List Byte) : kept ((unlockResp s p r).2) = kept s := by
  simp [unlockResp]; repeat' split
  all_goals simp_all

@[simp] theorem unlockLock_kept (s : State) (p : Path) (l : Nat) :
    kept ((unlockLock s p l).2) = kept s := by simp [unlockLock]

@[simp] theorem execChallengeExpire_kept (p : Path) (s : State) :
    kept (outSt (execChallengeExpire p s) s) = kept s := by simp [execChallengeExpire]

@[simp] theorem unlockOp_kept (s : State) (p : Path) (op : Nat) (len : Nat) (level : Nat) (d : List Byte) :
    kept ((unlockOp s p op len level d).2) = kept s := by
  simp [unlockOp]; repeat' split
  all_goals simp_all

@[simp] theorem ulCmd_kept (s : State) (w : Nat) :
    kept (ulCmd s w) = kept s := by simp [ulCmd]

@[simp] theorem monWrite_kept (s : State) (off : Nat) (w : Word) :
    kept (WOut.st (monWrite s off w) s) = kept s := by simp [monWrite]

@[simp] theorem authPerform_kept (s : State) (q : DrReq) (rest : List DrReq) :
    kept (authPerform s q rest) = kept s := by simp [authPerform, kept_fields]

@[simp] theorem authStep_kept (mine : Nat → Bool) (arr : Option (Fin 8 × Packet)) (s : State) :
    kept (outSt (authStep mine arr s) s) = kept s := by
  unfold authStep
  split
  · exact routedArrival_kept _ _ _ s (fun t l => takeReq_kept _ _ _ t l)
  · split <;> simp

@[simp] theorem execAuthPassword_kept (arr : Option (Fin 8 × Packet)) (s : State) :
    kept (outSt (execAuthPassword arr s) s) = kept s := by simp [execAuthPassword]

@[simp] theorem execAuthChallenge_kept (arr : Option (Fin 8 × Packet)) (s : State) :
    kept (outSt (execAuthChallenge arr s) s) = kept s := by simp [execAuthChallenge]

@[simp] theorem execAuthResponse_kept (arr : Option (Fin 8 × Packet)) (s : State) :
    kept (outSt (execAuthResponse arr s) s) = kept s := by simp [execAuthResponse]

@[simp] theorem execAuthLock_kept (arr : Option (Fin 8 × Packet)) (s : State) :
    kept (outSt (execAuthLock arr s) s) = kept s := by simp [execAuthLock]

@[simp] theorem setLatch_kept (s : State) (p : Path) (lo : Nat) (v : Nat) :
    kept (setLatch s p lo v) = kept s := by simp [setLatch, kept_fields]

@[simp] theorem latchRead_kept (s : State) (p : Path) (a : Nat) (v : Nat) :
    kept ((latchRead s p a v).1) = kept s := by simp [latchRead]

@[simp] theorem causeRead_kept (s : State) :
    kept ((causeRead s).1) = kept s := by simp [causeRead, kept_fields]

@[simp] theorem readReg_kept (s : State) (p : Path) (a : Nat) (flip : Nat) :
    kept ((readReg s p a flip).1) = kept s := by
  simp [readReg]; repeat' split
  all_goals simp_all

@[simp] theorem pageCtrlWrite_kept (s : State) (page : Nat) (w : Word) :
    kept (WOut.st (pageCtrlWrite s page w) s) = kept s := by
  simp [pageCtrlWrite]; repeat' split
  all_goals simp_all

@[simp] theorem stagedWrite_kept (s : State) (page : Nat) (a : Nat) (w : Word) :
    kept (WOut.st (stagedWrite s page a w) s) = kept s := by
  simp [stagedWrite]; repeat' split
  all_goals simp_all

@[simp] theorem irqWrite_kept (s : State) (off : Nat) (w : Word) : kept (WOut.st (irqWrite s off w) s) = kept s := by
  simp [irqWrite]; repeat' split
  all_goals simp_all

@[simp] theorem blockWrite_kept (s : State) (p : Option Path) (k : PageKind) (i : Nat) (off : Nat) (w : Word) (quiet : Bool) :
    kept (WOut.st (blockWrite s p k i off w quiet) s) = kept s := by
  simp [blockWrite]; repeat' split
  all_goals simp_all

theorem recordDo_kept (s : State) (page : Nat) (k : PageKind) (i a : Nat) (w : Word) (fs : List FieldRow) (t : State)
    (h : recordDo s page k i a w fs = .ok t) : kept t = kept s := by
  unfold recordDo at h
  dsimp only at h
  generalize ho : (if setAtGerminate k (a % 0x1000) then WOut.done (s.setReg a (germWord k (a % 0x1000) (s.reg a) w fs))
    else if a % 0x1000 = 0x008 then pageCtrlWrite s page (mergeWord (s.reg a) w fs)
    else if a % 0x1000 < 0x040 then .done (s.setReg a (mergeWord (s.reg a) w fs))
    else if fs.any (fun f => f.ty == .rws) then .done (s.setReg a (mergeWord (s.reg a) w fs))
    else blockWrite s none k i (a % 0x1000) (mergeWord (s.reg a) w fs) true) = o at h
  have ko : kept (o.st s) = kept s := by
    rw [← ho]
    split
    · simp
    · split
      · simp
      · split
        · simp
        · split <;> simp
  cases o <;> simp_all

theorem applyRecord_kept (s : State) (aw : Nat) (w : Word) (t : State) (h : applyRecord s aw w = .ok t) :
    kept t = kept s := by
  unfold applyRecord at h
  dsimp only at h
  split at h
  · cases h
  · split at h
    · split at h
      · cases h
      · split at h
        · cases h
        · split at h
          · cases h
          · split at h
            · cases h
            · split at h
              · cases h
              · exact recordDo_kept _ _ _ _ _ _ _ _ h
    · cases h

@[simp] theorem applyRecords_kept (n : Nat) (l : List (Nat × Nat)) (s : State) : kept (applyRecords n l s).1 = kept s := by
  induction l generalizing n s with
  | nil => rfl
  | cons e l ih =>
    obtain ⟨a, v⟩ := e
    simp only [applyRecords]
    cases h : applyRecord s a (BitVec.ofNat 32 v) with
    | ok t => dsimp only; rw [ih]; exact applyRecord_kept _ _ _ _ h
    | refused k => rfl

@[simp] theorem germFail_kept (s : State) (reason : Nat) (record : Nat) (isl : Nat) (kind : Nat) :
    kept (germFail s reason record isl kind) = kept s := by simp [germFail, kept_fields]

@[simp] theorem imageFields_kept (s : State) :
    kept (imageFields s) = kept s := by simp [imageFields]

@[simp] theorem islandInfo_kept (s : State) (x : Nat) :
    kept (islandInfo s x) = kept s := by simp [islandInfo]

@[simp] theorem germEnd_kept (s : State) :
    kept (germEnd s) = kept s := by simp [germEnd, kept_fields]

@[simp] theorem genGerminates_kept (old : State) (s : State) (g : Nat) :
    kept (genGerminates old s g) = kept s := by simp [genGerminates]

@[simp] theorem germinate_kept (s : State) : kept (germinate s) = kept s := by
  unfold germinate
  dsimp only
  generalize h0 : readFlash (imageFields { s with phase := .germinate, surv := { s.surv with t0 := s.root.ts } }) (devAddr s)
    (16 + 8 * devCount s) = s0
  have k0 : kept s0 = kept s := by rw [← h0]; simp [kept_fields]
  split
  · simp [k0]
  · have h := applyRecords_kept 0 (devRecords s0) s0
    split <;> rename_i e <;> rw [e] at h
    · simpa [k0] using h
    · rename_i t
      have h2 : kept t = kept s := by rw [← k0]; exact h
      split
      · simpa using h2
      · have h1 : kept ((List.range 66).foldl (genGerminates s0) ((List.range 48).foldl islandInfo t)) = kept s := by
          rw [foldl_kept (fun t g => genGerminates_kept s0 t g), foldl_kept islandInfo_kept, h2]
        split
        · rw [germEnd_kept]; exact h1
        · simpa [kept_fields] using h1

@[simp] theorem execGerminateIslandLoad_kept (x : Fin 48) (bad : Option (Fin 1024)) (s : State) :
    kept (outSt (execGerminateIslandLoad x bad s) s) = kept s := by
  simp [execGerminateIslandLoad, kept_fields]; repeat' split
  all_goals simp_all

@[simp] theorem execSteepEnd_kept (s : State) :
    kept (outSt (execSteepEnd s) s) = kept s := by simp [execSteepEnd, kept_fields]

@[simp] theorem overrideOp_kept (s : State) (w : Word) : kept (WOut.st (overrideOp s w) s) = kept s := by
  simp [overrideOp]; repeat' split
  all_goals simp_all

@[simp] theorem kilnFail_kept (s : State) :
    kept (kilnFail s) = kept s := by simp [kilnFail, kept_fields]

@[simp] theorem execKilnSelftestResult_kept (s : State) :
    kept (outSt (execKilnSelftestResult s) s) = kept s := by simp [execKilnSelftestResult, kept_fields]

@[simp] theorem enterRun_kept (s : State) :
    kept (enterRun s) = kept s := by
  unfold enterRun
  refine (apply_ite kept _ _ _).trans ?_
  rw [blotStart_kept, ite_self, irqBit_kept, setLevel_kept]
  refine (kept_phase _ _).trans ?_
  rw [setN_kept, setN_kept, setN_kept]

@[simp] theorem toArm_kept (s : State) (ks : List Nat) :
    kept (toArm s ks) = kept s := by
  unfold toArm
  split
  · exact (enterRun_kept _).trans (kept_surv s _)
  · exact kept_surv s _

@[simp] theorem execKilnArm_kept (s : State) :
    kept (outSt (execKilnArm s) s) = kept s := by simp [execKilnArm, kept_fields]

@[simp] theorem execKilnLockTimeout_kept (s : State) :
    kept (outSt (execKilnLockTimeout s) s) = kept s := by simp [execKilnLockTimeout]

@[simp] theorem armNib_kept (s : State) (n : Nat) :
    kept (armNib s n) = kept s := by simp [armNib, kept_fields]

@[simp] theorem execBankArm_kept (k : Fin 7) (s : State) : kept (outSt (execBankArm k s) s) = kept s := by
  simp [execBankArm]; repeat' split
  all_goals simp_all

@[simp] theorem disarm_kept (s : State) (p : Path) :
    kept (disarm s p) = kept s := by simp [disarm, kept_fields]

@[simp] theorem resetKey_kept (s : State) (p : Path) : kept (resetKey s p) = kept s := by
  simp [resetKey, kept_fields]; repeat' split
  all_goals simp_all [kept_fields]

@[simp] theorem execSysResetAssert_kept (s : State) : kept (outSt (execSysResetAssert s) s) = kept s := by
  simp [execSysResetAssert]; repeat' split
  all_goals simp_all

@[simp] theorem badKey_kept (s : State) (p : Path) (a : Nat) (w : Option Word) (v : VKind) :
    kept (badKey s p a w v) = kept s := by simp [badKey]

@[simp] theorem quietOf_kept (s : State) (quiet : Option Bool) : kept ((quietOf s quiet).2) = kept s := by
  simp [quietOf]; repeat' split
  all_goals simp_all

theorem rootWrite_kept {s : State} {p : Path} {k : PageKind} {off : Nat} {w : Word} {o : WOut}
    (h : rootWrite s p k off w = some o) : kept (o.st s) = kept s := by
  unfold rootWrite at h
  split at h
  · cases h; simp
  · split at h
    · cases h; simp
    · split at h
      · cases h; simp
      · cases h

@[simp] theorem holdCmd_kept (s : State) (p : Path) (a : Nat) (m : Word) :
    kept (holdCmd s p a m) = kept s := by simp [holdCmd, kept_fields]

theorem orHeld_kept {s : State} {o : WOut} (h : kept (o.st s) = kept s) (p : Path) (a : Nat) (m : Word) :
    kept ((orHeld s p a m o).st s) = kept s := by
  unfold orHeld
  split
  · split
    · exact holdCmd_kept s p a m
    · exact h
  · exact h

@[simp] theorem beginHeld_kept (s : State) (h : HeldCmd) : kept (beginHeld s h) = kept s := by
  unfold beginHeld
  split
  · rename_i k i e
    have := blockWrite_kept s (some h.path) k i (h.addr % 0x1000) h.word true
    split <;> rename_i hb <;> rw [hb] at this <;> simp_all
  · rfl

@[simp] theorem releaseHeld_kept (s : State) : kept (releaseHeld s) = kept s := by simp [releaseHeld, kept_fields]

@[simp] theorem afterCommit_kept (s : State) :
    kept (afterCommit s) = kept s := by simp [afterCommit]

@[simp] theorem execCommitUnitDecide_kept (us : List CUnit) (s : State) :
    kept (outSt (execCommitUnitDecide us s) s) = kept s := by simp [execCommitUnitDecide]

@[simp] theorem execCommitPrepareTimeout_kept (s : State) :
    kept (outSt (execCommitPrepareTimeout s) s) = kept s := by simp [execCommitPrepareTimeout]

@[simp] theorem execCommitUnitApply_kept (us : List CUnit) (s : State) :
    kept (outSt (execCommitUnitApply us s) s) = kept s := by simp [execCommitUnitApply]

@[simp] theorem execCommitApplyTimeout_kept (u : CUnit) (s : State) :
    kept (outSt (execCommitApplyTimeout u s) s) = kept s := by simp [execCommitApplyTimeout]

@[simp] theorem performWrite_kept (s : State) (p : Path) (page : Nat) (k : PageKind) (i a : Nat) (w : Word)
    (fs : List FieldRow) (quiet : Option Bool) : kept ((performWrite s p page k i a w fs quiet).st s) = kept s := by
  unfold performWrite
  dsimp only
  split
  · simp
  · split
    · simp
    · split
      · simp
      · split
        · simp
        · split
          · rename_i o e; exact rootWrite_kept e
          · split
            · have h1 : kept (quietOf s none).2 = kept s := by simp
              have := blockWrite_kept (quietOf s none).2 (some p) k i (a % 0x1000) (mergeWord (s.reg a) w fs) (quietOf s none).1
              generalize quietOf s none = q at *
              obtain ⟨q, t⟩ := q
              dsimp only at *
              generalize blockWrite t (some p) k i (a % 0x1000) (mergeWord (s.reg a) w fs) q = o at *
              cases o <;> simp_all
            · split
              · simp
              · exact orHeld_kept (blockWrite_kept ..) p a _

@[simp] theorem devWrite_kept (s : State) (p : Path) (a : Nat) (w : Word) (quiet : Option Bool) :
    kept (devWrite s p a w quiet).1 = kept s := by
  unfold devWrite
  split
  · simp
  · split
    · rfl
    · split
      · rename_i k i fs _ _
        have h := performWrite_kept s p (a / 0x1000) k i a w fs quiet
        generalize performWrite s p (a / 0x1000) k i a w fs quiet = o at *
        cases o <;> simp_all
      · rfl

@[simp] theorem devRead_kept (s : State) (p : Path) (a : Nat) (flip : Nat) :
    kept ((devRead s p a flip).1) = kept s := by
  simp [devRead]; repeat' split
  all_goals simp_all

@[simp] theorem handUw_kept (s : State) (p : Path) (a : Nat) (w : Option Word) :
    kept (handUw s p a w) = kept s := by simp [handUw, kept_fields]

@[simp] theorem uwAccess_kept (s : State) (p : Path) (a : Nat) (w : Option Word) (ans : Option UwAns) :
    kept ((uwAccess s p a w ans).1) = kept s := by
  unfold uwAccess
  repeat' split
  all_goals simp

@[simp] theorem answer_kept (s : State) (p : Path) (r : Resp) (d : List Word) : kept (answer s p r d) = kept s := by
  simp [answer, kept_fields]; repeat' split
  all_goals simp_all [kept_fields]

@[simp] theorem forwardUw_kept (s : State) (p : Path) (a : Nat) (w : Option Word) :
    kept (forwardUw s p a w) = kept s := by simp [forwardUw, kept_fields]

@[simp] theorem uwSingle_kept (s : State) (p : Path) (a : Nat) (w : Option Word) :
    kept (uwSingle s p a w) = kept s := by
  simp [uwSingle]; repeat' split
  all_goals simp_all

@[simp] theorem unserved_kept (s : State) (p : Path) :
    kept (unserved s p) = kept s := by simp [unserved]

@[simp] theorem hostWriteOp_kept (s : State) (p : Path) (a : Nat) (w : Word) (quiet : Option Bool) :
    kept (hostWriteOp s p a w quiet) = kept s := by simp [hostWriteOp]

@[simp] theorem hostReadOp_kept (s : State) (p : Path) (a : Nat) (flip : Nat) :
    kept (hostReadOp s p a flip) = kept s := by simp [hostReadOp]

@[simp] theorem hostWrite_kept (p : Path) (a : Nat) (w : Word) (quiet : Option Bool) (s : State) :
    kept (outSt (hostWrite p a w quiet s) s) = kept s := by simp [hostWrite]

@[simp] theorem hostRead_kept (p : Path) (a : Nat) (flip : Nat) (s : State) :
    kept (outSt (hostRead p a flip s) s) = kept s := by simp [hostRead]

@[simp] theorem execRegisterWrite_kept (p : Path) (a : Addr) (w : Word) (s : State) :
    kept (outSt (execRegisterWrite p a w s) s) = kept s := by simp [execRegisterWrite]

@[simp] theorem execStageEnWrite_kept (p : Path) (pg : BitVec 12) (w : Word) (s : State) :
    kept (outSt (execStageEnWrite p pg w s) s) = kept s := by simp [execStageEnWrite]

@[simp] theorem execRwsWrite_kept (p : Path) (a : Addr) (w : Word) (s : State) :
    kept (outSt (execRwsWrite p a w s) s) = kept s := by simp [execRwsWrite]

@[simp] theorem execCommit_kept (p : Path) (w : Word) (s : State) :
    kept (outSt (execCommit p w s) s) = kept s := by simp [execCommit]

@[simp] theorem execSysResetWrite_kept (p : Path) (w : Word) (s : State) :
    kept (outSt (execSysResetWrite p w s) s) = kept s := by simp [execSysResetWrite]

@[simp] theorem execTimestampLatchRead_kept (p : Path) (a : Addr) (s : State) :
    kept (outSt (execTimestampLatchRead p a s) s) = kept s := by simp [execTimestampLatchRead]

@[simp] theorem burstWord_kept (s : State) (p : Path) (a : Nat) (w : Word) (ans : List UwAns) :
    kept (burstWord s p a w ans).1 = kept s := by
  unfold burstWord
  dsimp only
  split
  · simp
  · split <;> simp

@[simp] theorem writeBurst_kept (p : Path) (n a : Nat) (l : List Word) (ans : List UwAns) (s : State) :
    kept (writeBurst p n a l ans s).1 = kept s := by
  induction l generalizing n a ans s with
  | nil => rfl
  | cons w ws ih =>
    have h := burstWord_kept s p a w ans
    simp only [writeBurst]
    split
    · rw [ih]; exact h
    · exact h

@[simp] theorem burstRead_kept (s : State) (p : Path) (a : Nat) (ans : List UwAns) :
    kept ((burstRead s p a ans).1) = kept s := by
  simp [burstRead]; repeat' split
  all_goals simp_all

@[simp] theorem readBurst_kept (p : Path) (k n a : Nat) (ans : List UwAns) (s : State) (ds : List Word) :
    kept (readBurst p k n a ans s ds).1 = kept s := by
  induction k generalizing n a ans s ds with
  | zero => rfl
  | succ k ih =>
    have h := burstRead_kept s p a ans
    simp only [readBurst]
    split
    · rw [ih]; exact h
    · exact h

@[simp] theorem hspEnd_kept (s : State) (r : Resp) (n : Nat) (d : List Word) :
    kept (hspEnd s r n d) = kept s := by simp [hspEnd, kept_fields]

@[simp] theorem hspQuiet_kept (s : State) :
    kept (hspQuiet s) = kept s := by simp [hspQuiet, kept_fields]

@[simp] theorem hspWriteOp_kept (s : State) (a : Nat) (ws : List Word) (ans : List UwAns) :
    kept (hspWriteOp s a ws ans) = kept s := by simp [hspWriteOp]

@[simp] theorem hspReadOp_kept (s : State) (a : Nat) (n : Nat) (ans : List UwAns) :
    kept (hspReadOp s a n ans) = kept s := by simp [hspReadOp]

@[simp] theorem hspWriteCmd_kept (a : Addr) (ws : List Word) (ans : List UwAns) (s : State) :
    kept (outSt (hspWriteCmd a ws ans s) s) = kept s := by simp [hspWriteCmd]

@[simp] theorem hspReadCmd_kept (a : Addr) (l : Fin 32) (ans : List UwAns) (s : State) :
    kept (outSt (hspReadCmd a l ans s) s) = kept s := by simp [hspReadCmd]

@[simp] theorem execHspWrite_kept (a : Addr) (ws : List Word) (ans : List UwAns) (s : State) :
    kept (outSt (execHspWrite a ws ans s) s) = kept s := by simp [execHspWrite]

@[simp] theorem execHspRead_kept (a : Addr) (l : Fin 32) (ans : List UwAns) (s : State) :
    kept (outSt (execHspRead a l ans s) s) = kept s := by simp [execHspRead]

@[simp] theorem execHspWrite4_kept (a : Addr) (ws : List Word) (ans : List UwAns) (s : State) :
    kept (outSt (execHspWrite4 a ws ans s) s) = kept s := by simp [execHspWrite4]

@[simp] theorem execHspRead4_kept (a : Addr) (l : Fin 32) (ans : List UwAns) (s : State) :
    kept (outSt (execHspRead4 a l ans s) s) = kept s := by simp [execHspRead4]

@[simp] theorem execHspUndefinedCommand_kept (c : Byte) (s : State) :
    kept (outSt (execHspUndefinedCommand c s) s) = kept s := by simp [execHspUndefinedCommand]

@[simp] theorem execHspCsEarlyRise_kept (a : Addr) (ws : Option (List Word)) (n : Fin 33) (ans : List UwAns) (s : State) :
    kept (outSt (execHspCsEarlyRise a ws n ans s) s) = kept s := by
  simp [execHspCsEarlyRise]; repeat' split
  all_goals simp_all

@[simp] theorem execFabricMasterRequest_kept (a : BitVec 22) (w : Option Word) (s : State) :
    kept (outSt (execFabricMasterRequest a w s) s) = kept s := by
  simp [execFabricMasterRequest]; repeat' split
  all_goals simp_all

@[simp] theorem execUserWindowAccess_kept (p : Path) (a : Addr) (w : Option Word) (s : State) :
    kept (outSt (execUserWindowAccess p a w s) s) = kept s := by
  simp [execUserWindowAccess]; repeat' split
  all_goals simp_all

@[simp] theorem uwAnswered_kept (s : State) (u : UwAcc) (rest : List UwAcc) (ans : UwAns) :
    kept (uwAnswered s u rest ans) = kept s := by
  simp [uwAnswered, kept_fields]; repeat' split
  all_goals simp_all [kept_fields]

@[simp] theorem execUserWindowAnswer_kept (ans : UwAns) (s : State) :
    kept (outSt (execUserWindowAnswer ans s) s) = kept s := by
  simp [execUserWindowAnswer]; repeat' split
  all_goals simp_all

@[simp] theorem execUserWindowTimeout_kept (s : State) : kept (outSt (execUserWindowTimeout s) s) = kept s := by
  simp [execUserWindowTimeout]; repeat' split
  all_goals simp_all

@[simp] theorem requestPerform_kept (s : State) (q : DrReq) (rest : List DrReq) (ans : List UwAns) :
    kept (requestPerform s q rest ans) = kept s := by simp [requestPerform, kept_fields]

@[simp] theorem execDraughtRequestPerform_kept (ans : List UwAns) (s : State) :
    kept (outSt (execDraughtRequestPerform ans s) s) = kept s := by
  simp [execDraughtRequestPerform]; repeat' split
  all_goals simp_all

@[simp] theorem outBegins_kept (old : State) (s : State) : kept (outBegins old s) = kept s := by simp [outBegins]

@[simp] theorem monReply_kept (s : State) (lines : List (List Byte)) :
    kept (monReply s lines) = kept s := by simp [monReply, kept_fields]

@[simp] theorem monReceive_kept (s : State) (c : Byte) : kept (monReceive s c) = kept s := by
  unfold monReceive
  dsimp only
  rw [baudSync_kept, outBegins_kept, kept_mk]
  split
  · simp only [monTake_otp, kept]
  · split <;> rfl

@[simp] theorem execMonCharacterReceived_kept (c : Byte) (s : State) :
    kept (outSt (execMonCharacterReceived c s) s) = kept s := by simp [execMonCharacterReceived, kept_fields]

theorem monStep_kept {f : List (List Byte) → State → State × List (List Byte)} (hf : ∀ ts t, kept (f ts t).1 = kept t)
    (w : MonWord) (mine : List (List Byte) → Bool) (s : State) : kept (outSt (monStep w mine f s) s) = kept s := by
  unfold monStep
  split
  · rw [outSt_whenCan, kept_ite]
    split
    · split <;> simp [hf]
    · rfl
  · rfl

@[simp] theorem monId_kept (ts : List (List Byte)) (s : State) :
    kept ((monId ts s).1) = kept s := by simp [monId]

@[simp] theorem execMonId_kept (s : State) :
    kept (outSt (execMonId s) s) = kept s := by simp [execMonId, monStep_kept]

@[simp] theorem monStat_kept (ts : List (List Byte)) (s : State) :
    kept ((monStat ts s).1) = kept s := by simp [monStat]

@[simp] theorem execMonStat_kept (s : State) :
    kept (outSt (execMonStat s) s) = kept s := by simp [execMonStat, monStep_kept]

@[simp] theorem monRd_kept (ans : List UwAns) (ts : List (List Byte)) (s : State) :
    kept ((monRd ans ts s).1) = kept s := by
  simp [monRd]; repeat' split
  all_goals simp_all

@[simp] theorem execMonRd_kept (ans : List UwAns) (s : State) : kept (outSt (execMonRd ans s) s) = kept s := by
  simp [execMonRd]; repeat' split
  all_goals simp_all [monStep_kept]

@[simp] theorem monWr_kept (ans : Option UwAns) (ts : List (List Byte)) (s : State) :
    kept ((monWr ans ts s).1) = kept s := by
  simp [monWr]; repeat' split
  all_goals simp_all

@[simp] theorem execMonWr_kept (ans : Option UwAns) (s : State) : kept (outSt (execMonWr ans s) s) = kept s := by
  simp [execMonWr]; repeat' split
  all_goals simp_all [monStep_kept]

@[simp] theorem hangWord_kept (s : State) (p : Path) (a : Nat) : kept (hangWord s p a) = kept s := by simp [hangWord]

@[simp] theorem hangHspWrite_kept (a : Nat) (ws : List Word) (w : Word) (ans : List UwAns) (s : State) :
    kept (hangHspWrite a ws w ans s) = kept s := by simp [hangHspWrite]

@[simp] theorem hangHspRead_kept (a : Nat) (len : Nat) (n : Nat) (ans : List UwAns) (s : State) :
    kept (hangHspRead a len n ans s) = kept s := by simp [hangHspRead]

@[simp] theorem hangDraught_kept (n : Nat) (ans : List UwAns) (s : State) : kept (hangDraught n ans s) = kept s := by
  unfold hangDraught
  repeat' split
  all_goals simp [kept_fields]

@[simp] theorem hangMonitor_kept (n : Nat) (ans : List UwAns) (s : State) : kept (hangMonitor n ans s) = kept s := by
  unfold hangMonitor; dsimp only
  repeat' split
  all_goals simp_all

@[simp] theorem hangOne_kept (p : Path) (a : Nat) (w : Option Word) (s : State) :
    kept (hangOne p a w s) = kept s := by simp [hangOne]

@[simp] theorem execAccessWedgeTimeout_kept (h : Hung) (s : State) :
    kept (outSt (execAccessWedgeTimeout h s) s) = kept s := by
  unfold execAccessWedgeTimeout
  repeat' split
  all_goals simp

@[simp] theorem monUnlockPw_kept (ts : List (List Byte)) (s : State) : kept ((monUnlockPw ts s).1) = kept s := by
  simp [monUnlockPw]; repeat' split
  all_goals simp_all

@[simp] theorem execMonUnlockPw_kept (s : State) :
    kept (outSt (execMonUnlockPw s) s) = kept s := by simp [execMonUnlockPw, monStep_kept]

@[simp] theorem monChal_kept (ts : List (List Byte)) (s : State) : kept ((monChal ts s).1) = kept s := by
  simp [monChal]; repeat' split
  all_goals simp_all

@[simp] theorem execMonChal_kept (s : State) :
    kept (outSt (execMonChal s) s) = kept s := by simp [execMonChal, monStep_kept]

@[simp] theorem monResp_kept (ts : List (List Byte)) (s : State) : kept ((monResp ts s).1) = kept s := by
  simp [monResp]; repeat' split
  all_goals simp_all

@[simp] theorem execMonResp_kept (s : State) :
    kept (outSt (execMonResp s) s) = kept s := by simp [execMonResp, monStep_kept]

@[simp] theorem monLock_kept (ts : List (List Byte)) (s : State) : kept ((monLock ts s).1) = kept s := by
  simp [monLock]; repeat' split
  all_goals simp_all

@[simp] theorem execMonLock_kept (s : State) :
    kept (outSt (execMonLock s) s) = kept s := by simp [execMonLock, monStep_kept]

@[simp] theorem monReset_kept (ts : List (List Byte)) (s : State) : kept ((monReset ts s).1) = kept s := by
  simp [monReset, kept_fields]; repeat' split
  all_goals simp_all

@[simp] theorem execMonReset_kept (s : State) :
    kept (outSt (execMonReset s) s) = kept s := by simp [execMonReset, monStep_kept]

@[simp] theorem execMonResetAssert_kept (s : State) :
    kept (outSt (execMonResetAssert s) s) = kept s := by simp [execMonResetAssert]

/-- A programmed item never changes (R547). -/

theorem monOtpPw_kept (ts : List (List Byte)) (s : State) :
    (monOtpPw ts s).1.pending = s.pending ∧ (monOtpPw ts s).1.mon.key = s.mon.key ∧
      (s.mon.pwh.isSome → (monOtpPw ts s).1.mon.pwh = s.mon.pwh) := by
  unfold monOtpPw
  split
  · split
    · exact ⟨rfl, rfl, fun _ => rfl⟩
    · split
      · exact ⟨rfl, rfl, fun _ => rfl⟩
      · rename_i h; exact ⟨rfl, rfl, fun g => absurd g h⟩
  · exact ⟨rfl, rfl, fun _ => rfl⟩

/-- A programmed item never changes (R547). -/

theorem execMonOtpPw_kept (s : State) :
    (outSt (execMonOtpPw s) s).pending = s.pending ∧ (outSt (execMonOtpPw s) s).mon.key = s.mon.key ∧
      (s.mon.pwh.isSome → (outSt (execMonOtpPw s) s).mon.pwh = s.mon.pwh) := by
  have hr (t : State) (l : List (List Byte)) : (monReply t l).pending = t.pending ∧ (monReply t l).mon.key = t.mon.key ∧
      (monReply t l).mon.pwh = t.mon.pwh := by
    have := monReply_kept t l; simp only [kept, Prod.mk.injEq] at this; exact ⟨this.1, this.2.2, this.2.1⟩
  unfold execMonOtpPw monStep
  split
  · rw [outSt_whenCan]
    split
    · split
      · have := hr s [errLine ‹Nat›]; exact ⟨this.1, this.2.1, fun _ => this.2.2⟩
      · rename_i v ts _ _ _ _
        by_cases hq : ts.head? = some tokPw
        · dsimp only; rw [if_pos hq]
          have := hr (monOtpPw ts s).1 (monOtpPw ts s).2
          have h := monOtpPw_kept ts s
          exact ⟨this.1.trans h.1, this.2.1.trans h.2.1, fun g => this.2.2.trans (h.2.2 g)⟩
        · dsimp only; rw [if_neg hq]
          have := hr s [errLine 2]; exact ⟨this.1, this.2.1, fun _ => this.2.2⟩
    · exact ⟨rfl, rfl, fun _ => rfl⟩
  · exact ⟨rfl, rfl, fun _ => rfl⟩

/-- A programmed item never changes (R547). -/

theorem monOtpKey_kept (ts : List (List Byte)) (s : State) :
    (monOtpKey ts s).1.pending = s.pending ∧ (monOtpKey ts s).1.mon.pwh = s.mon.pwh ∧
      (s.mon.key.isSome → (monOtpKey ts s).1.mon.key = s.mon.key) := by
  unfold monOtpKey
  split
  · exact ⟨rfl, rfl, fun _ => rfl⟩
  · split
    · exact ⟨rfl, rfl, fun _ => rfl⟩
    · rename_i h; exact ⟨rfl, rfl, fun g => absurd g h⟩

/-- A programmed item never changes (R547). -/

theorem execMonOtpKey_kept (s : State) :
    (outSt (execMonOtpKey s) s).pending = s.pending ∧ (outSt (execMonOtpKey s) s).mon.pwh = s.mon.pwh ∧
      (s.mon.key.isSome → (outSt (execMonOtpKey s) s).mon.key = s.mon.key) := by
  have hr (t : State) (l : List (List Byte)) : (monReply t l).pending = t.pending ∧ (monReply t l).mon.key = t.mon.key ∧
      (monReply t l).mon.pwh = t.mon.pwh := by
    have := monReply_kept t l; simp only [kept, Prod.mk.injEq] at this; exact ⟨this.1, this.2.2, this.2.1⟩
  unfold execMonOtpKey monStep
  split
  · rw [outSt_whenCan]
    split
    · split
      · have := hr s [errLine ‹Nat›]; exact ⟨this.1, this.2.2, fun _ => this.2.1⟩
      · rename_i v ts _ _ _ _
        have := hr (monOtpKey ts s).1 (monOtpKey ts s).2
        have h := monOtpKey_kept ts s
        exact ⟨this.1.trans h.1, this.2.2.trans h.2.1, fun g => this.2.1.trans (h.2.2 g)⟩
    · exact ⟨rfl, rfl, fun _ => rfl⟩
  · exact ⟨rfl, rfl, fun _ => rfl⟩

@[simp] theorem execMonUndefinedCommand_kept (s : State) :
    kept (outSt (execMonUndefinedCommand s) s) = kept s := by simp [execMonUndefinedCommand]

@[simp] theorem execMonIdleTimeout_kept (s : State) :
    kept (outSt (execMonIdleTimeout s) s) = kept s := by simp [execMonIdleTimeout]

@[simp] theorem tapTake_kept (s : State) (i : Nat) (d : List Bool) :
    kept (tapTake s i d) = kept s := by simp [tapTake, kept_fields]

@[simp] theorem execTapReset_kept (s : State) :
    kept (outSt (execTapReset s) s) = kept s := by simp [execTapReset]

@[simp] theorem execTapBypass_kept (code : BitVec 6) (s : State) :
    kept (outSt (execTapBypass code s) s) = kept s := by simp [execTapBypass]

@[simp] theorem execTapIdcode_kept (s : State) :
    kept (outSt (execTapIdcode s) s) = kept s := by simp [execTapIdcode]

@[simp] theorem execTapSamplePreload_kept (others : BitVec 109) (preload : BitVec 445) (s : State) :
    kept (outSt (execTapSamplePreload others preload s) s) = kept s := by simp [execTapSamplePreload, kept_fields]

@[simp] theorem tapControl_kept (s : State) (i : Nat) (d : List Bool) :
    kept (tapControl s i d) = kept s := by simp [tapControl]

@[simp] theorem execTapExtest_kept (others : BitVec 109) (s : State) :
    kept (outSt (execTapExtest others s) s) = kept s := by simp [execTapExtest]

@[simp] theorem execTapClamp_kept (s : State) :
    kept (outSt (execTapClamp s) s) = kept s := by simp [execTapClamp]

@[simp] theorem execTapHighz_kept (s : State) :
    kept (outSt (execTapHighz s) s) = kept s := by simp [execTapHighz]

@[simp] theorem execIrqBallUpdate_kept (i : Fin 4) (s : State) :
    kept (outSt (execIrqBallUpdate i s) s) = kept s := by simp [execIrqBallUpdate]

@[simp] theorem execSurveyOverride_kept (p : Path) (w : Word) (s : State) :
    kept (outSt (execSurveyOverride p w s) s) = kept s := by simp [execSurveyOverride]

@[simp] theorem execRefConfigWrite_kept (p : Path) (r : Fin 4) (reg : Fin 3) (w : Word) (s : State) :
    kept (outSt (execRefConfigWrite p r reg w s) s) = kept s := by simp [execRefConfigWrite]

@[simp] theorem execPllConfigWrite_kept (p : Path) (k : Fin 4) (reg : Fin 4) (w : Word) (s : State) :
    kept (outSt (execPllConfigWrite p k reg w s) s) = kept s := by simp [execPllConfigWrite]

@[simp] theorem execPllRefselWrite_kept (p : Path) (k : Fin 4) (w : Word) (s : State) :
    kept (outSt (execPllRefselWrite p k w s) s) = kept s := by simp [execPllRefselWrite]

@[simp] theorem execSyncArm_kept (p : Path) (w : Word) (s : State) :
    kept (outSt (execSyncArm p w s) s) = kept s := by simp [execSyncArm]

@[simp] theorem execSyncDisarm_kept (p : Path) (w : Word) (s : State) :
    kept (outSt (execSyncDisarm p w s) s) = kept s := by simp [execSyncDisarm]

@[simp] theorem execCutoverRequest_kept (p : Path) (w : Word) (s : State) :
    kept (outSt (execCutoverRequest p w s) s) = kept s := by simp [execCutoverRequest]

@[simp] theorem execCutoverCancel_kept (p : Path) (w : Word) (s : State) :
    kept (outSt (execCutoverCancel p w s) s) = kept s := by simp [execCutoverCancel]

@[simp] theorem execFiEccClr_kept (p : Path) (x : Fin 48) (w : Word) (s : State) :
    kept (outSt (execFiEccClr p x w s) s) = kept s := by simp [execFiEccClr]

@[simp] theorem execPrRequest_kept (p : Path) (w : Word) (s : State) :
    kept (outSt (execPrRequest p w s) s) = kept s := by simp [execPrRequest]

@[simp] theorem execBlotterCtrlWrite_kept (p : Path) (w : Word) (s : State) :
    kept (outSt (execBlotterCtrlWrite p w s) s) = kept s := by simp [execBlotterCtrlWrite]

@[simp] theorem execBlotCntClr_kept (p : Path) (w : Word) (s : State) :
    kept (outSt (execBlotCntClr p w s) s) = kept s := by simp [execBlotCntClr]

@[simp] theorem execCaptureArm_kept (p : Path) (w : Word) (s : State) :
    kept (outSt (execCaptureArm p w s) s) = kept s := by simp [execCaptureArm]

@[simp] theorem execCaptureStop_kept (p : Path) (w : Word) (s : State) :
    kept (outSt (execCaptureStop p w s) s) = kept s := by simp [execCaptureStop]

@[simp] theorem execCaptureTrig_kept (p : Path) (w : Word) (s : State) :
    kept (outSt (execCaptureTrig p w s) s) = kept s := by simp [execCaptureTrig]

@[simp] theorem execInkRdWrite_kept (p : Path) (spill : Bool) (w : Word) (s : State) :
    kept (outSt (execInkRdWrite p spill w s) s) = kept s := by simp [execInkRdWrite]

@[simp] theorem execInkWindowRead_kept (p : Path) (hi : Bool) (flip : BitVec 72) (s : State) :
    kept (outSt (execInkWindowRead p hi flip s) s) = kept s := by simp [execInkWindowRead]

@[simp] theorem execQuillStart_kept (p : Path) (x : Fin 8) (w : Word) (s : State) :
    kept (outSt (execQuillStart p x w s) s) = kept s := by simp [execQuillStart]

@[simp] theorem execQuillStop_kept (p : Path) (x : Fin 8) (w : Word) (s : State) :
    kept (outSt (execQuillStop p x w s) s) = kept s := by simp [execQuillStop]

@[simp] theorem execQuillHostTrap_kept (p : Path) (x : Fin 8) (w : Word) (s : State) :
    kept (outSt (execQuillHostTrap p x w s) s) = kept s := by simp [execQuillHostTrap]

@[simp] theorem execQstWriteHold_kept (p : Path) (i : Fin 2) (w : Word) (s : State) :
    kept (outSt (execQstWriteHold p i w s) s) = kept s := by simp [execQstWriteHold]

@[simp] theorem execQstStoreWrite_kept (p : Path) (w : Word) (s : State) :
    kept (outSt (execQstStoreWrite p w s) s) = kept s := by simp [execQstStoreWrite]

@[simp] theorem execQstRead_kept (p : Path) (i : Fin 3) (flip : BitVec 99) (s : State) :
    kept (outSt (execQstRead p i flip s) s) = kept s := by simp [execQstRead]

@[simp] theorem execLimitHiWrite_kept (p : Path) (x : Fin 8) (k : Fin 6) (w : Word) (s : State) :
    kept (outSt (execLimitHiWrite p x k w s) s) = kept s := by simp [execLimitHiWrite]

@[simp] theorem execQuillDtClr_kept (p : Path) (x : Fin 8) (w : Word) (s : State) :
    kept (outSt (execQuillDtClr p x w s) s) = kept s := by simp [execQuillDtClr]

@[simp] theorem execTraceRunWrite_kept (p : Path) (w : Word) (s : State) :
    kept (outSt (execTraceRunWrite p w s) s) = kept s := by simp [execTraceRunWrite]

@[simp] theorem execTraceQueuePop_kept (p : Path) (s : State) :
    kept (outSt (execTraceQueuePop p s) s) = kept s := by simp [execTraceQueuePop]

@[simp] theorem execTrcStatClr_kept (p : Path) (w : Word) (s : State) :
    kept (outSt (execTrcStatClr p w s) s) = kept s := by simp [execTrcStatClr]

@[simp] theorem execTdcZero_kept (p : Path) (w : Word) (s : State) :
    kept (outSt (execTdcZero p w s) s) = kept s := by simp [execTdcZero]

@[simp] theorem execTdcChannelConfigWrite_kept (p : Path) (c : Fin 36) (w : Word) (s : State) :
    kept (outSt (execTdcChannelConfigWrite p c w s) s) = kept s := by simp [execTdcChannelConfigWrite]

@[simp] theorem execTdcQueuePop_kept (p : Path) (c : Fin 32) (s : State) :
    kept (outSt (execTdcQueuePop p c s) s) = kept s := by simp [execTdcQueuePop]

@[simp] theorem execMemcInit_kept (p : Path) (w : Word) (s : State) :
    kept (outSt (execMemcInit p w s) s) = kept s := by simp [execMemcInit]

@[simp] theorem execMemcStop_kept (p : Path) (w : Word) (s : State) :
    kept (outSt (execMemcStop p w s) s) = kept s := by simp [execMemcStop]

@[simp] theorem execMemcFill_kept (p : Path) (w : Word) (s : State) :
    kept (outSt (execMemcFill p w s) s) = kept s := by simp [execMemcFill]

@[simp] theorem execXtsCtrlWrite_kept (p : Path) (w : Word) (s : State) :
    kept (outSt (execXtsCtrlWrite p w s) s) = kept s := by simp [execXtsCtrlWrite]

@[simp] theorem execKeyLoad_kept (p : Path) (w : Word) (s : State) :
    kept (outSt (execKeyLoad p w s) s) = kept s := by simp [execKeyLoad]

@[simp] theorem execKeyRandom_kept (p : Path) (w : Word) (s : State) :
    kept (outSt (execKeyRandom p w s) s) = kept s := by simp [execKeyRandom]

@[simp] theorem execKeyClear_kept (p : Path) (w : Word) (s : State) :
    kept (outSt (execKeyClear p w s) s) = kept s := by simp [execKeyClear]

@[simp] theorem execMemcEccClr_kept (p : Path) (w : Word) (s : State) :
    kept (outSt (execMemcEccClr p w s) s) = kept s := by simp [execMemcEccClr]

@[simp] theorem execDmaStart_kept (p : Path) (c : Fin 32) (w : Word) (s : State) :
    kept (outSt (execDmaStart p c w s) s) = kept s := by simp [execDmaStart]

@[simp] theorem execDmaPause_kept (p : Path) (c : Fin 32) (w : Word) (s : State) :
    kept (outSt (execDmaPause p c w s) s) = kept s := by simp [execDmaPause]

@[simp] theorem execDmaResume_kept (p : Path) (c : Fin 32) (w : Word) (s : State) :
    kept (outSt (execDmaResume p c w s) s) = kept s := by simp [execDmaResume]

@[simp] theorem execDmaCancel_kept (p : Path) (c : Fin 32) (w : Word) (s : State) :
    kept (outSt (execDmaCancel p c w s) s) = kept s := by simp [execDmaCancel]

@[simp] theorem execDmaBufferWrite_kept (p : Path) (c : Fin 32) (i : Fin 64) (w : Word) (s : State) :
    kept (outSt (execDmaBufferWrite p c i w s) s) = kept s := by simp [execDmaBufferWrite]

@[simp] theorem execLaneConfigWrite_kept (p : Path) (n : Fin 8) (reg : Fin 4) (w : Word) (s : State) :
    kept (outSt (execLaneConfigWrite p n reg w s) s) = kept s := by simp [execLaneConfigWrite]

@[simp] theorem execEyeScanStart_kept (p : Path) (n : Fin 8) (w : Word) (s : State) :
    kept (outSt (execEyeScanStart p n w s) s) = kept s := by simp [execEyeScanStart]

@[simp] theorem execUartTxqWrite_kept (p : Path) (n : Fin 8) (w : Word) (s : State) :
    kept (outSt (execUartTxqWrite p n w s) s) = kept s := by simp [execUartTxqWrite]

@[simp] theorem execUartFcmd_kept (p : Path) (n : Fin 8) (w : Word) (quiet : Bool) (s : State) :
    kept (outSt (execUartFcmd p n w quiet s) s) = kept s := by simp [execUartFcmd]

@[simp] theorem execUartCfgWrite_kept (p : Path) (n : Fin 8) (w : Word) (s : State) :
    kept (outSt (execUartCfgWrite p n w s) s) = kept s := by simp [execUartCfgWrite]

@[simp] theorem execUart0BaudWrite_kept (p : Path) (w : Word) (s : State) :
    kept (outSt (execUart0BaudWrite p w s) s) = kept s := by simp [execUart0BaudWrite]

@[simp] theorem execRxqRead_kept (p : Path) (n : Fin 8) (s : State) :
    kept (outSt (execRxqRead p n s) s) = kept s := by simp [execRxqRead]

@[simp] theorem execBistStart_kept (p : Path) (w : Word) (s : State) :
    kept (outSt (execBistStart p w s) s) = kept s := by simp [execBistStart]

@[simp] theorem execBistAbort_kept (p : Path) (w : Word) (s : State) :
    kept (outSt (execBistAbort p w s) s) = kept s := by simp [execBistAbort]

@[simp] theorem execUlPassword_kept (p : Path) (w : Word) (s : State) :
    kept (outSt (execUlPassword p w s) s) = kept s := by simp [execUlPassword]

@[simp] theorem execUlChallenge_kept (p : Path) (w : Word) (s : State) :
    kept (outSt (execUlChallenge p w s) s) = kept s := by simp [execUlChallenge]

@[simp] theorem execUlResponse_kept (p : Path) (w : Word) (s : State) :
    kept (outSt (execUlResponse p w s) s) = kept s := by simp [execUlResponse]

@[simp] theorem execUlLock_kept (p : Path) (w : Word) (s : State) :
    kept (outSt (execUlLock p w s) s) = kept s := by simp [execUlLock]

@[simp] theorem execHaltClr_kept (p : Path) (w : Word) (s : State) :
    kept (outSt (execHaltClr p w s) s) = kept s := by simp [execHaltClr]

@[simp] theorem withFetchWord_kept (s : State) (nbits : Nat) (w : Nat) :
    kept (State.withFetchWord s nbits w) = kept s := by rfl

end Sys2Proof.Machine
end

