-- ==== Sys2Proof/Laws/PhaseBase.lean ====
section
/-! SUPPORT. The phase of a state written out, of a choice, of a fold, of an outcome. -/

namespace Sys2Proof.Machine

@[simp] theorem phaseHalt_refl (a : Phase) : phaseHalt a a := .inl rfl

theorem phaseHalt_trans {a b c : Phase} (h : phaseHalt a b) (g : phaseHalt b c) : phaseHalt a c := by
  rcases h with rfl | ⟨h, rfl⟩
  · exact g
  · rcases g with rfl | ⟨g | g, _⟩
    · exact .inr ⟨h, rfl⟩
    · cases g
    · cases g

@[simp] theorem phase_ite {c : Prop} [Decidable c] (a b : State) : (if c then a else b).phase = if c then a.phase else b.phase :=
  apply_ite State.phase c a b

@[simp] theorem phaseHalt_ite {c : Prop} [Decidable c] (p a b : Phase) :
    phaseHalt p (if c then a else b) ↔ if c then phaseHalt p a else phaseHalt p b := by
  split <;> rfl

@[simp] theorem foldl_phase {α : Type} {g : State → α → State} (h : ∀ s a, (g s a).phase = s.phase) (l : List α) (s : State) :
    (l.foldl g s).phase = s.phase := by
  induction l generalizing s with
  | nil => rfl
  | cons a l ih => rw [List.foldl_cons, ih, h]

theorem foldl_phaseHalt {α : Type} {g : State → α → State} (h : ∀ s a, phaseHalt s.phase (g s a).phase) (l : List α)
    (s : State) : phaseHalt s.phase (l.foldl g s).phase := by
  induction l generalizing s with
  | nil => exact phaseHalt_refl _
  | cons a l ih => exact phaseHalt_trans (h s a) (ih _)

end Sys2Proof.Machine
end

