-- ==== Sys2Proof/WellFormed.lean ====
section
/-! DEFINITION. Which commands are well formed: the operand ranges that a type does not already give. Each check cites
what fixes the range. -/

namespace Sys2Proof

/-- A unit of the device: domains 0 to 63 (Table 2.2), generators 0 to 65 (R167), banks 0 to 6 (R7), islands 0 to 47. -/
def CUnit.exists : CUnit → Bool
  | .dom d => decide (d < 64)
  | .gen g => decide (g < 66)
  | .bank k => decide (k < 7)
  | .fence x => decide (x < 48)
  | .trc => true

/-- A command byte of Table 4.3. -/
def hspCommand (c : Byte) : Bool := c == 0x02 || c == 0x03 || c == 0x32 || c == 0xEB

/-- No key stands twice. -/
def distinctKeys {α β : Type} [DecidableEq α] (l : List (α × β)) : Bool := decide ((l.map Prod.fst).Nodup)

/-- A packet as it stands on the line: LEN payload words, at most 64, and a tag of 16 bytes exactly with ENC
(Table 15.4). -/
def Packet.framed (k : Packet) : Bool :=
  k.pay.length == k.w0.toNat / 256 % 256 && decide (k.pay.length ≤ 64) &&
    (k.tag.length == if k.w0.toNat / 2 ^ 28 % 2 = 1 then 16 else 0)

/-- A well-formed command. -/
def Instr.wellFormed (i : Instr) : Bool :=
  match i with
  | .powerOn => true
  | .railGood _ _ => true
  | .railLoss _ => true
  | .rstNAssert => true
  | .rstNRelease prog => prog.all (fun r => decide (r.1 + r.2.length ≤ 2 ^ 32))
  | .steepStart => true
  | .steepHeaderCheck => true
  | .steepPll0LockTimeout => true
  | .railSurvey mv => mv.length == 13
  | .fsenseSurvey mv => mv.length == 8
  | .nibIdleSurvey mv => mv.length == 336
  | .loadSurveyRun _ readings => !readings.isEmpty && decide (readings.length ≤ 3)
  | .cableSurvey _ shots _ => !shots.isEmpty && decide (shots.length ≤ 64)
  | .steepLaneResult _ => true
  | .steepEnd => true
  | .surveyOverride _ _ => true
  | .germinateIslandLoad _ _ => true
  | .kilnSelftestResult => true
  | .kilnArm => true
  | .kilnLockTimeout => true
  | .bankArm _ => true
  | .registerWrite _ _ _ => true
  | .accessWedgeTimeout (.one _ _ _) => true
  | .accessWedgeTimeout (.hspWrite _ ws _ ans) => decide (ws.length < 32) && decide (ans.length ≤ 32)
  | .accessWedgeTimeout (.hspRead _ _ _ ans) => decide (ans.length ≤ 32)
  | .accessWedgeTimeout (.draught _ ans) => decide (ans.length ≤ 32)
  | .accessWedgeTimeout (.monitor _ ans) => decide (ans.length ≤ 16)
  | .hspWrite _ ws ans => decide (1 ≤ ws.length) && decide (ws.length ≤ 32) && decide (ans.length ≤ 32)
  | .hspRead _ _ ans => decide (ans.length ≤ 32)
  | .hspWrite4 _ ws ans => decide (1 ≤ ws.length) && decide (ws.length ≤ 32) && decide (ans.length ≤ 32)
  | .hspRead4 _ _ ans => decide (ans.length ≤ 32)
  | .hspUndefinedCommand c => !hspCommand c
  | .hspCsEarlyRise _ ws _ ans => (match ws with | some l => decide (l.length ≤ 32) | none => true) && decide (ans.length ≤ 32)
  | .stageEnWrite _ _ _ => true
  | .rwsWrite _ _ _ => true
  | .commit _ _ => true
  | .commitUnitDecide us => !us.isEmpty && us.all CUnit.exists
  | .commitPrepareTimeout => true
  | .commitUnitApply us => !us.isEmpty && us.all CUnit.exists
  | .commitApplyTimeout u => u.exists
  | .domainPowerUpDone _ => true
  | .domainPowerDownDone _ => true
  | .timestampLatchRead _ _ => true
  | .sysResetWrite _ _ => true
  | .sysResetAssert => true
  | .refWindowEnd _ _ _ _ => true
  | .refEdgesStop _ => true
  | .refConfigWrite _ _ _ _ => true
  | .pllConfigWrite _ _ _ _ => true
  | .pllRefselWrite _ _ _ => true
  | .pllCalibrationDone _ _ => true
  | .pllLockWindowEnd _ _ => true
  | .pllSwitchInput _ => true
  | .pllRevertHoldoffExpire _ => true
  | .syncArm _ _ => true
  | .syncDisarm _ _ => true
  | .syncInEdge _ _ => true
  | .pllOutputRestart _ => true
  | .generatorFallback _ => true
  | .generatorFallbackStop _ => true
  | .generatorReturn _ => true
  | .handshakeTransfer _ _ _ _ => true
  | .handshakeWedge _ => true
  | .cutoverRequest _ _ => true
  | .cutoverCancel _ _ => true
  | .quietPointEvent _ => true
  | .cutoverTimeout _ _ => true
  | .cutoverSwitch _ => true
  | .bramRead _ _ _ _ _ _ => true
  | .bramWriteFull _ _ _ _ _ _ => true
  | .bramWritePartial _ _ _ _ _ be _ _ => be != 255#8
  | .fabricMasterRequest _ _ => true
  | .userWindowAccess _ a _ => decide (0x800000 ≤ a.toNat)
  | .userWindowAnswer _ => true
  | .userWindowTimeout => true
  | .fiEccClr _ _ _ => true
  | .islandDrained _ => true
  | .prRequest _ _ => true
  | .prComplete _ _ => true
  | .blotterFrameRead flips => distinctKeys flips
  | .blotterIntervalExpire => true
  | .blotterReload flips => distinctKeys flips
  | .blotterCtrlWrite _ _ => true
  | .blotCntClr _ _ => true
  | .captureArm _ _ => true
  | .captureStop _ _ => true
  | .captureTrig _ _ => true
  | .captureTrigger => true
  | .capturePostDone => true
  | .inkwellFull => true
  | .throttleOff => true
  | .spillLineAck _ => true
  | .inkRdWrite _ _ _ => true
  | .inkWindowRead _ _ _ => true
  | .quillStart _ _ _ => true
  | .quillStop _ _ _ => true
  | .quillHostTrap _ _ _ => true
  | .quillNop _ => true
  | .quillCinc _ => true
  | .quillCclr _ => true
  | .quillTstart _ => true
  | .quillTstop _ => true
  | .quillIrq _ => true
  | .quillCstop _ => true
  | .quillSetpol _ => true
  | .quillHalt _ => true
  | .quillRett _ => true
  | .microTrap _ _ => true
  | .qstWriteHold _ _ _ => true
  | .qstStoreWrite _ _ => true
  | .qstRead _ _ _ => true
  | .limitHiWrite _ _ _ _ => true
  | .quillDtClr _ _ _ => true
  | .traceEdge _ _ => true
  | .traceDivergence _ => true
  | .traceResync _ => true
  | .transactionDecide _ => true
  | .traceRunWrite _ _ => true
  | .traceQueuePop _ => true
  | .trcStatClr _ _ => true
  | .tdcEdge _ _ _ _ => true
  | .tdcZero _ _ => true
  | .tdcChannelConfigWrite _ _ _ => true
  | .tdcQueuePop _ _ => true
  | .tdcRecalibrate _ => true
  | .tinFreqWindow _ _ => true
  | .memcInit _ _ => true
  | .memcStop _ _ => true
  | .memcFill _ _ => true
  | .memcTrainDone _ => true
  | .memcTrainTimeout _ => true
  | .memcFillDone => true
  | .ddrAlert _ => true
  | .memoryRead _ _ flips _ => distinctKeys flips
  | .memoryWrite _ flips _ => distinctKeys flips
  | .xtsCtrlWrite _ _ => true
  | .keyLoad _ _ => true
  | .keyRandom _ _ => true
  | .keyClear _ _ => true
  | .memcEccClr _ _ => true
  | .dmaStart _ _ _ => true
  | .dmaPause _ _ _ => true
  | .dmaResume _ _ _ => true
  | .dmaCancel _ _ _ => true
  | .dmaReadResponse _ _ => true
  | .dmaWriteAck _ _ => true
  | .dmaDescriptorLoad _ => true
  | .dmaBufferWrite _ _ _ _ => true
  | .laneConfigWrite _ _ _ _ => true
  | .laneSynthTimeout _ => true
  | .trainingSetReceived _ _ _ _ _ => true
  | .laneHuntTimeout _ => true
  | .laneRateChange _ => true
  | .eqRequestLimit _ => true
  | .laneCvRetrain _ => true
  | .eyeScanStart _ _ _ => true
  | .eyeScanDone _ _ => true
  | .draughtRd _ k => k.framed
  | .draughtWr _ k => k.framed
  | .draughtRequestPerform ans => decide (ans.length ≤ 32)
  | .draughtCpl _ k => k.framed
  | .draughtStream _ k => k.framed
  | .draughtCredit _ k => k.framed
  | .draughtAck _ k => k.framed
  | .draughtNak _ k => k.framed
  | .draughtKeyx _ k => k.framed
  | .draughtUndefinedType _ k => k.framed
  | .replayTimeout _ => true
  | .ackTimer _ => true
  | .streamPacketClose _ => true
  | .uartStartEdge _ _ => true
  | .uartResyncEdge _ rise fall => decide (rise < fall)
  | .uartCharReceived _ _ => true
  | .uartBreak _ => true
  | .uartTxqWrite _ _ _ => true
  | .uartCharSent _ => true
  | .uartScRepeat _ => true
  | .uartFcmd _ _ _ _ => true
  | .uartResponseTimeout _ => true
  | .uartBitError _ _ _ => true
  | .uartCfgWrite _ _ _ => true
  | .uart0BaudWrite _ _ => true
  | .rxqRead _ _ => true
  | .bistStart _ _ => true
  | .bistAbort _ _ => true
  | .bistTargetDone _ _ faults again => again.all (fun f => faults.any (fun g => g.1 == f.1))
  | .monCharacterReceived _ => true
  | .monId => true
  | .monStat => true
  | .monRd ans => decide (ans.length ≤ 16)
  | .monWr _ => true
  | .monUnlockPw => true
  | .monChal => true
  | .monResp => true
  | .monLock => true
  | .monReset => true
  | .monResetAssert => true
  | .monOtpPw => true
  | .monOtpKey => true
  | .monUndefinedCommand => true
  | .monIdleTimeout => true
  | .challengeExpire _ => true
  | .ulPassword _ _ => true
  | .ulChallenge _ _ => true
  | .ulResponse _ _ => true
  | .ulLock _ _ => true
  | .authPassword arr => arr.all (fun e => e.2.framed)
  | .authChallenge arr => arr.all (fun e => e.2.framed)
  | .authResponse arr => arr.all (fun e => e.2.framed)
  | .authLock arr => arr.all (fun e => e.2.framed)
  | .tapReset => true
  | .tapBypass _ => true
  | .tapIdcode => true
  | .tapSamplePreload _ _ => true
  | .tapExtest _ => true
  | .tapClamp => true
  | .tapHighz => true
  | .irqBallUpdate _ => true
  | .haltClr _ _ => true
  | .railBelowGood _ _ => true
  | .padLevelChange _ mv _ => mv.all (fun v => decide (-500 ≤ v) && decide (v ≤ 3800))
  | .nibPortChange _ _ _ _ => true
  | .captureSample probes fall _ => distinctKeys probes && distinctKeys fall
  | .sliceOperation _ _ _ _ _ _ _ _ => true
  | .draughtBadCrc _ => true

end Sys2Proof
end

