-- ==== Sys2Proof/Tests/Slice0.lean ====
section
/-! SUPPORT. Tests: the well-formedness checks refuse what they must, and the hypotheses of the statements are met by
concrete states and commands. -/

set_option Elab.async false

namespace Sys2Proof.Tests

open Sys2Proof Sys2Proof.Machine

/-- The command is performed: it changes the state, and is not let go by for want of its conditions. -/
def acts (c : Instr) (s : State) : Bool :=
  match exec c s with
  | .next t => !decide (t = s)
  | _ => false

theorem test_step_front : ({ State.reset with pending := [.tapReset, .powerOn] } : State).pending = .tapReset :: [.powerOn] := by
  decide

theorem test_idle : State.reset.pending = [] := rfl

/-- The step answers a next state. -/
def steps (s : State) : Bool :=
  match step s with
  | .next _ => true
  | _ => false

theorem test_otp_step : steps { State.reset with
    mon := { State.reset.mon with pwh := some [], key := some [1] }, pending := [.powerOn] } = true := by
  decide

theorem test_queue_step : steps { State.reset with pending := [.powerOn, .tapReset] } = true := by decide +kernel
theorem test_queues_fit : QueuesFit State.reset := ⟨fun _ h => (nomatch h), fun _ h => (nomatch h), fun _ h => (nomatch h)⟩
theorem test_halt_ball : (State.reset.nib.haltBall = true ↔ State.reset.phase = .halt) := by decide

/-- A state in Run with RST_N high and every rail good, on which something is asked. -/
def running : State := { State.reset with phase := .run }

theorem test_full_reset_hyps : running.pwr.rstN = true ∧ bitOf running.pwr.armed 12 = true ∧
    acts .rstNAssert running = true ∧ acts (.railLoss 12) running = true := by decide +kernel
theorem test_full_reset_by_write : acts .sysResetAssert
    { running with root := { running.root with resetReq := some .mon } } = true ∧ cplWaits running = false := by decide +kernel
theorem test_full_reset_by_monitor : acts .monResetAssert
    { running with mon := { running.mon with resetReq := true } } = true := by decide +kernel

theorem test_power_on : acts .powerOn running = true := by decide +kernel

theorem test_rail_hyps : bitOf ({ running with pwr := { running.pwr with good := 0x0FFF } } : State).pwr.good 12 = false ∧
    bitOf ({ running with pwr := { running.pwr with good := 0 } } : State).pwr.good (0 : Fin 13).val = false ∧
    bitOf running.pwr.good 1 = true := by decide +kernel
theorem test_release_hyps : ({ running with pwr := { running.pwr with rstN := false } } : State).pwr.rstN = false := rfl
/-- A breach in Run with VDDM below good alone: its return ends the breach. -/
def breached : State := { running with pwr := { running.pwr with good := 0x0FFF, breach := true } }
theorem test_breach_ends : bitOf breached.pwr.good 12 = false ∧ breached.pwr.breach = true ∧ breached.phase ≠ .reset ∧
    breached.pwr.good + 2 ^ (12 : Fin 13).val = 0x1FFF ∧ acts (.railGood 12 true) breached = true := by decide +kernel

theorem test_steep_start : State.reset.phase = .reset ∧ State.reset.pwr.rstN = true ∧ State.reset.pwr.good = 0x1FFF := by decide +kernel

theorem test_header_check : acts .steepHeaderCheck { State.reset with phase := .steep } = true := by decide +kernel
theorem test_lock_timeout : acts .steepPll0LockTimeout { State.reset with
    phase := .steep, surv := { State.reset.surv with usePll := true } } = true := by decide +kernel
/-- Bytes of words, the least significant first. -/
def wordsOut (l : List Nat) : List Byte := (l.map (fun w => [BitVec.ofNat 8 w, BitVec.ofNat 8 (w / 256), BitVec.ofNat 8 (w / 65536),
  BitVec.ofNat 8 (w / 16777216)])).flatten
/-- The used words of a header without islands, with checksum `sum`; flash with that header and a signature block `sig`;
the block of one item for lane 0, with a REF0 frequency. -/
def headWords (sum : Nat) : List Nat := [0x4A580001, 0x676, 0, sum, 256, 0, 0, 0, 0, 0, 0x3F3F00, 0, 0, 0, 0, 0]
def imaged (sig : List Nat) : State := { State.reset with cfg := { State.reset.cfg with
  flash := (wordsOut (headWords 0x5DB6F24A ++ List.replicate 48 0 ++ sig)).zipIdx.map (fun e => (e.2, e.1)) } }
def laneSig (khz : Nat) : List Nat := [0x53470001, 1, 0xF32F3C83, khz, 0x70005, 0, 0, 0]
/-! The header's checksum by the polynomial of R259, sixteen words at a time. -/
theorem test_crc_head : (wordsOut (headWords 0)).foldl crcByte 0xFFFFFFFF#32 = 0x5E2F55E0#32 := by decide +kernel
theorem test_crc_zeros : (List.replicate 64 0#8).foldl crcByte 0x5E2F55E0#32 = 0x83FD040#32 ∧
    (List.replicate 64 0#8).foldl crcByte 0x83FD040#32 = 0x20B5D96B#32 ∧
    (List.replicate 64 0#8).foldl crcByte 0x20B5D96B#32 = 0xA2490DB5#32 := by decide +kernel
theorem test_header_sum : crc32 (wordsOut (headWords 0) ++ (List.replicate 64 0#8 ++ (List.replicate 64 0#8 ++ List.replicate 64 0#8))) =
    0x5DB6F24A#32 := by
  simp only [crc32, List.foldl_append, test_crc_head, test_crc_zeros.1, test_crc_zeros.2.1, test_crc_zeros.2.2]
  decide
theorem test_header_ok : ∀ sig ∈ [[], laneSig 5000, laneSig 50000], headerOk (imaged sig) = true := by
  have h : ∀ sig ∈ [[], laneSig 5000, laneSig 50000], (flashBytes (imaged sig) 0 256).take 12 ++ [0, 0, 0, 0] ++ (flashBytes (imaged sig) 0 256).drop 16 =
      wordsOut (headWords 0) ++ (List.replicate 64 0#8 ++ (List.replicate 64 0#8 ++ List.replicate 64 0#8)) := by decide +kernel
  intro sig hs
  unfold headerOk
  simp only [h sig hs, test_header_sum]
  revert sig
  decide +kernel
theorem test_image : surveyKhz (imaged (laneSig 50000)) = 50000 ∧ signatureOk (imaged (laneSig 5000)) = true ∧
    signatureOk (imaged (laneSig 50000)) = true ∧ signatureOk (imaged []) = false ∧ (∀ khz ∈ [5000, 50000], ref0Khz (imaged (laneSig khz)) = khz) ∧
    (steepSetting 50000).isSome = true ∧ sigCount (imaged (laneSig 5000)) = 1 ∧ headerOk State.reset = false := by
  refine ⟨?_, ?_⟩
  · simp only [surveyKhz, imageOk, test_header_ok (laneSig 50000) (by simp), Bool.true_and]
    decide +kernel
  · decide +kernel

/-- A state in Steep with the steps of `done` over and the items `l`. -/
def surveying (done : Nat) (l : List SurvItem) : State :=
  { State.reset with phase := .steep, surv := { State.reset.surv with done := done, items := l } }

theorem test_readings_complete :
    acts (.railSurvey (List.replicate 13 1800)) (surveying 2 [⟨1, false, 3, 1700, 1900, 0⟩]) = true ∧
    acts (.fsenseSurvey (List.replicate 8 3)) (surveying 6 [⟨2, false, 7, 0, 48, 0⟩]) = true := by decide +kernel
theorem test_lane_result : acts (.steepLaneResult 7) (surveying 2 [⟨5, false, 7, 0, 9, 0⟩]) = true := by decide +kernel
theorem test_idle_hyps : stepDone (surveying 14 []) 3 = true ∧ stepDone (surveying 14 []) 4 = false ∧
    (List.replicate 336 0).length = 336 := by decide +kernel

/-- A state in Steep after step 4 with one item. -/
def loading (it : SurvItem) (runs : Tab (List (Nat × Nat))) : State :=
  { surveying 30 [it] with surv := { (surveying 30 [it]).surv with runs := runs } }

theorem test_load_run : acts (.loadSurveyRun 335 [(0, 5)]) (loading ⟨3, false, 335, 0, 0, 0xF010000⟩ []) = true ∧
    fallingRun 1 1800 1 [(9, 5)] = true ∧ fallingRun 1 1800 1 [(0, 5)] = false ∧
    stopAt 1 1800 0 [(9, 5)] = some (0, 9, 5) := by decide +kernel
theorem test_cable : acts (.cableSurvey 0 (List.replicate 64 100) .short) (loading ⟨4, false, 0, 0, 9, 0x7010000 + 0x8000⟩ []) = true ∧
    bitOf (itemMask ⟨4, false, 0, 0, 9, 0x7010000 + 0x8000⟩) 1 = true := by decide +kernel

theorem test_steep_end : acts .steepEnd { surveying 30 [] with
    regs := [(R.SURV_STATUS, 2)] } = true ∧ steepDone (surveying 30 []) = true ∧ mismatches (surveying 30 []) = [] := by
  decide +kernel
theorem test_override : (let s : State := { State.reset with
      phase := .steepHold, regs := [(R.SURV_STATUS, BitVec.ofNat 32 (2 ^ F.SURV_STATUS_MISMATCH.lo))], root := { State.reset.root with levels := [(0, 2)] } }
    accepts s .mon R.SURV_OVERRIDE 0x5A000001 && s.flag R.SURV_STATUS F.SURV_STATUS_MISMATCH && !checkFailed s) = true := by
  decide +kernel
theorem test_dev_reason : devReason State.reset ≠ 0 := by decide +kernel

/-- Flash with a section for island 0 at 0x1000 whose checksum word holds `c`. -/
def loadFlash (c : Nat) : Tab Byte :=
  [(64, 0), (65, 0x10), (66, 0), (67, 0), (0x1000, 1), (0x1001, 0), (0x1002, 0x53), (0x1003, 0x49), (0x1004, 0), (0x1005, 0),
   (0x1006, 0), (0x1007, 0), (0x100C, BitVec.ofNat 8 c), (0x100D, BitVec.ofNat 8 (c / 256)),
   (0x100E, BitVec.ofNat 8 (c / 65536)), (0x100F, BitVec.ofNat 8 (c / 16777216)),
   (0x1010, 0), (0x1011, 0), (0x1012, 0), (0x1013, 0), (0x1014, 0), (0x1015, 0), (0x1016, 0), (0x1017, 0),
   (0x1018, 0), (0x1019, 0), (0x101A, 0), (0x101B, 0), (0x101C, 0), (0x101D, 0), (0x101E, 0), (0x101F, 0)]

/-- A state in Germinate with island 0 next and that flash. -/
def germinating (c : Nat) : State :=
  { State.reset with
    phase := .germinate, surv := { State.reset.surv with toLoad := [0, 47] }, cfg := { State.reset.cfg with flash := loadFlash c } }

theorem test_section_header (c : Nat) : domOn (germinating c) 0 = true ∧ hdrWord (germinating c) 16 = 0x1000 ∧
    sectionHeaderOk (germinating c) 0 0x1000 = true := ⟨rfl, rfl, rfl⟩

theorem test_section_bytes (c n : Nat) : flashBytes (germinating c) 0x1020 n = (List.range n).map (fun _ => 0xFF#8) := by
  show tabRead _ (loadFlash c) 0x1020 n = _
  have skip (j : Nat) (v : Byte) (m : Tab Byte) (h : j < 0x1020) :
      tabRead (fun _ => 0xFF#8) ((j, v) :: m) 0x1020 n = tabRead (fun _ => 0xFF#8) m 0x1020 n := by rw [tabRead, if_pos h]
  unfold loadFlash
  iterate 32 rw [skip _ _ _ (by decide)]
  rfl

/-- For every length of payload some checksum word fits; the statement's length is 262,144. -/
theorem test_section_crc (n : Nat) :
    ∃ c, (crc32 (flashBytes (germinating c) 0x1020 n)).toNat = flashWord (germinating c) 0x100C := by
  refine ⟨(crc32 ((List.range n).map (fun _ => 0xFF#8))).toNat, ?_⟩
  rw [test_section_bytes]
  generalize crc32 ((List.range n).map (fun _ => 0xFF#8)) = d
  have h : flashWord (germinating d.toNat) 0x100C = leNat [BitVec.ofNat 8 d.toNat, BitVec.ofNat 8 (d.toNat / 256),
      BitVec.ofNat 8 (d.toNat / 65536), BitVec.ofNat 8 (d.toNat / 16777216)] := rfl
  have hd := d.isLt
  rw [h]
  simp only [leNat, BitVec.toNat_ofNat]
  omega

theorem test_load_fails : sectionHeaderOk { germinating 0 with cfg := State.reset.cfg } 47 0xFFFFFFFF = false := by
  decide +kernel

/-- A state in Kiln, its self-test over, with the banks of `l` left to arm. -/
def firing (ok : Bool) (l : Option (List Nat)) : State :=
  { State.reset with phase := .kiln, surv := { State.reset.surv with selfTestOk := ok, toArm := l } }

theorem test_kiln : acts .kilnSelftestResult (firing false none) = true ∧ kilnFailed (firing false none) = false ∧
    acts .kilnSelftestResult { firing false none with regs := [(R.BIST_RES 63, 2)] } = true ∧
    acts .kilnArm (firing true none) = true ∧ bankPllsLocked (firing true none) = true := by decide +kernel
theorem test_kiln_lock : acts .kilnLockTimeout
    { firing true none with regs := [(R.ISL_GEN_CFG 48, 2)] } = true := by decide +kernel
theorem test_bank_arm : acts (.bankArm 6) (firing true (some [6])) = true ∧
    acts (.bankArm 0) (firing true (some [0, 6])) = true ∧ bankRuns (firing true none) 6 = true := by decide +kernel

/-- A state in Run with every path at level 2. -/
def atRun : State := { State.reset with phase := .run, surv := { State.reset.surv with toArm := some [] }, root := { State.reset.root with
  levels := [(0, 2), (1, 2), (2, 2), (3, 2)] } }

theorem test_violation : canIssue atRun .hsp = true ∧ served atRun .hsp = true ∧ inWindow 0x7 = false ∧
    devViolation atRun .hsp 0x7 (some 0) = some .unimpl ∧
    devViolation atRun .hsp R.SYS_RESET (some 1) = some .rsvdValue ∧ regFields 0x7 = none := by decide +kernel
/-- Violating words of a burst, a read below level 1, and a register that is only stored. -/
theorem test_burst_words : violates (enterSlot atRun .hsp) .hsp 0x7 (some 0) = some .unimpl ∧ violates (enterSlot atRun .hsp) .hsp 0x7 none = some .unimpl ∧
    violates (enterSlot atRun .mon) .mon 0x800000 none = some .unimpl ∧ pageOf 2 = some (.pwr, 0) ∧ (regFields 0x2040).isSome = true ∧
    ulReg .pwr 0x40 = false ∧ effLevel State.reset .hsp = 0 ∧ acceptsRead atRun .hsp 0x2040 = true ∧ storedReg atRun .hsp 0x2040 .pwr 0 ∧
    (burstRead atRun .hsp 0x2040 []).2.1 = .ok ∧ (burstRead atRun .hsp 0x7 []).2.1 ≠ .ok ∧ (burstWord atRun .hsp 0x1014 5 []).2.1 = .ok ∧
    (burstWord atRun .hsp 0x7 5 []).2.1 ≠ .ok := by
  unfold storedReg
  decide +kernel
theorem test_level_guard : accepts atRun .hsp R.SYS_RESET 0xA55A = true ∧
    accepts State.reset .hsp R.SYS_RESET 0xA55A = false ∧ accepts State.reset .hsp 0xB0084 1 = false := by decide +kernel

theorem test_staging : accepts atRun .hsp (4096 * 8 + 8) 2 = true ∧ accepts atRun .hsp 0x1108 0 = false ∧
    accepts atRun .hsp 0x1014 5 = true ∧ isRws (R.ISL_GEN_CFG 3) = true ∧
    accepts atRun .hsp (R.ISL_GEN_CFG 3) 0x10000 = true ∧ stageEn atRun 5 = false ∧
    stageEn { atRun with regs := [(R.PAGE_CTRL 5, 3)] } 5 = true ∧
    inCommit { atRun with root := { atRun.root with cPhase := .prepare, cPages := [5] } } 5 = true ∧
    accepts atRun .hsp 0x2060 1 = false ∧ accepts atRun .hsp 0x1010 1 = true := by decide +kernel

theorem test_wedge : devViolation atRun .hsp 0x5040 none = none ∧ pageWedged atRun 5 = false ∧
    pageWedged { atRun with regs := [(R.PAGE_STAT 5, 4)] } 5 = true ∧ canHang atRun .hsp 0x5040 none = true ∧
    acts (.accessWedgeTimeout (.one .hsp 0x5040 none)) atRun = true ∧ acts (.accessWedgeTimeout (.hspRead 0x5040 3 0 [])) atRun = true ∧
    acts (.accessWedgeTimeout (.hspWrite 0x1014 [] 2 [])) atRun = true ∧
    devViolation { atRun with regs := [(R.PAGE_STAT 5, 4)] } .hsp 0x5008 (some 1) = none := by decide +kernel
theorem test_latch : acceptsRead atRun .hsp R.SYS_TSTAMP_LO = true ∧
    (countAt (enterSlot atRun .hsp) R.SYS_TSTAMP_LO).isSome = true ∧ countAt atRun (R.SYS_TSTAMP_LO + 4) = none ∧
    acceptsRead atRun .hsp (R.QCX_CNT_LO 7 3) = true ∧ accepts atRun .mon R.SYS_RESET 0xA55A = true := by decide +kernel

theorem test_hsp : hspCanWrite atRun 0x1014 [5, 6] [] = true ∧ hspCanRead atRun 0x2040 2 [] = true ∧ hspCanRead { atRun with phase := .halt } 0x1014 1 [] = true ∧
    outstanding atRun .hsp = false := by decide +kernel

/-- Island 3 serves the user window and the master port, and its generator runs. -/
def atRunUw (fence : Nat) : State := { atRun with regs := [(R.CFGC_IMG_INFO, 0x030300), (R.ISL_GEN_STAT 3, 1), (R.FI_FENCE 3, BitVec.ofNat 32 fence)] }
theorem test_fabric_port : mpReady (atRunUw 0) = true ∧ mpReady atRun = false := by decide +kernel
theorem test_window : uwViolation (atRunUw 0) .hsp 0x800000 true = none ∧ uwFenced (atRunUw 0) = false ∧ uwFenced (atRunUw 1) = true ∧
    uwViolation (atRunUw 1) .hsp 0x800000 true = none ∧ uwViolation (atRunUw 0) .mon 0x800001 true = some .unimpl ∧
    canIssue (atRunUw 0) .hsp = true ∧ served (atRunUw 0) .hsp = true ∧ islandRuns (atRunUw 0) 3 = true ∧ uwIsland (atRunUw 0) = 3 ∧
    acts (.userWindowAccess .hsp 0x800000 (some 7)) (atRunUw 0) = true ∧ acceptsRead (atRunUw 0) .fab 0x1014 = true ∧
    acts (.fabricMasterRequest 5 none) (atRunUw 0) = true := by decide +kernel

/-- Page NIB0 with STAGE_EN and a pending write, and the root in a commit of it. -/
def staging (ph : CPhase) : State := { atRun with
  regs := [(R.PAGE_CTRL 8, 3), (R.PAGE_STAT 8, 8)]
  root := { atRun.root with
    cPhase := ph, cPages := if ph = .idle then [] else [8]
    cWait := if ph = .prepare then [.bank 0] else []
    cApply := if ph = .idle then [] else [.bank 0] } }
theorem test_commit : accepts (staging .idle) .hsp R.SYS_COMMIT 0x80010000 = true ∧ stageEn (staging .idle) 8 = true ∧
    unitsOf (staging .idle) 8 = [.bank 0] ∧ unitRefuses (staging .prepare) (.bank 0) = false ∧
    unitRefuses { staging .prepare with pend := [(R.NIB_NIB_GRP 0 5, some 3)] } (.bank 0) = true := by decide +kernel
theorem test_commit_steps : acts (.commitUnitDecide [.bank 0]) (staging .prepare) = true ∧
    acts .commitPrepareTimeout (staging .prepare) = true := by decide +kernel
theorem test_stopped_units : (let s : State := { staging .prepare with regs := (R.ISL_GEN_STAT 48, 0) :: (staging .prepare).regs }
    unitStopped s (.bank 0) = true ∧ unitHeld s (.bank 0) = false ∧
      unitHeld { s with bist := { s.bist with isol := [7] } } (.dom 7) = true) := by decide +kernel

theorem test_apply : live (staging .apply) = true ∧ (staging .apply).root.cApply = [.bank 0] ∧
    acts (.commitUnitApply [.bank 0]) (staging .apply) = true ∧
    acts (.commitApplyTimeout (.bank 0)) (staging .apply) = true ∧
    domStaged { atRun with pend := [(R.PWR_DOM_EN0, some 1)] } 40 = true ∧
    domStaged { atRun with pend := [(R.PWR_DOM_EN0, some 1)] } 20 = false := by decide +kernel

theorem test_domains : acts (.domainPowerUpDone 7) { atRun with pwr := { atRun.pwr with dom := [(7, 2)] } } = true ∧
    acts (.domainPowerDownDone 50) { atRun with pwr := { atRun.pwr with dom := [(50, 3)] } } = true := by decide +kernel

/-- REF1 enabled with QUAL_N 2, expected 1,000 counts, exact, and qualified. -/
def refUp : State := { atRun with regs := [(R.CLK_REF_CTRL 1, 0x201), (R.CLK_REF_EXP 1, 1000), (R.CLK_REF_STAT 1, 1)] }
theorem test_refs : clkLive refUp = true ∧ windowGood refUp 1 1000 true = true ∧ windowGood refUp 1 1100 true = false ∧
    refQual refUp 1 = true ∧ acts (.refWindowEnd 1 1000 true true) refUp = true ∧
    acts (.refEdgesStop 1) refUp = true := by decide +kernel
theorem test_ref_config : accepts refUp .hsp (refConfigReg 1 0) 0x200 = true ∧ accepts refUp .hsp (refConfigReg 3 2) 7 = true ∧
    accepts { refUp with phase := .steep } .hsp (refConfigReg 1 0) 0x200 = true := by decide +kernel

/-- PLL2 enabled, in a state, on the oscillator. -/
def pllAt (st : Nat) (x : Pll) : State := { atRun with
  regs := [(R.CLK_PLL_CTRL 2, 1), (R.CLK_PLL_REFSEL 2, 0x10000), (R.CLK_PLL_STAT 2, BitVec.ofNat 32 (st + 0x740))]
  clk := { atRun.clk with pll := [(2, x)] } }
theorem test_pll_hyps : clkLive (pllAt 1 noPll) = true ∧ pllSt (pllAt 1 noPll) 2 = 1 ∧ pllCur (pllAt 1 noPll) 2 = 4 ∧
    bestRef (pllAt 1 noPll) 2 = some 4 ∧ accepts (pllAt 1 noPll) .hsp (pllConfigReg 2 0) 1 = true ∧
    accepts (pllAt 1 noPll) .hsp (R.CLK_PLL_REFSEL 2) 0x20000 = true := by decide +kernel
theorem test_pll_windows : acts (.pllLockWindowEnd 2 0) (pllAt 2 { noPll with bad := 1 }) = true ∧
    acts (.pllLockWindowEnd 2 0) (pllAt 3 { noPll with wins := 255, go := true }) = true ∧
    acts (.pllCalibrationDone 2 4000) (pllAt 1 noPll) = true := by decide +kernel

theorem test_switch_hyps : acts (.pllSwitchInput 2) (pllAt 3 noPll) = true ∧
    acts (.pllRevertHoldoffExpire 2) { pllAt 2 noPll with regs := [(R.CLK_PLL_STAT 2, 0x10742)] } = true ∧
    acts (.pllOutputRestart 2) { pllAt 2 noPll with clk := { atRun.clk with restart := 4 } } = true := by decide +kernel
theorem test_sync_hyps : accepts atRun .hsp R.CLK_SYNC_CMD (withField 0 F.CLK_SYNC_CMD_ARM 1) = true ∧
    accepts atRun .hsp R.CLK_SYNC_CMD (withField 0 F.CLK_SYNC_CMD_DISARM 1) = true ∧
    accepts { atRun with phase := .steep, regs := [(R.CLK_SYNC_CFG, 0x100)] } .hsp R.CLK_SYNC_CMD (withField 0 F.CLK_SYNC_CMD_ARM 1) = true ∧
    acts (.syncInEdge true false) { atRun with regs := [(R.CLK_SYNC_CFG, 0x100), (R.CLK_SYNC_STAT, 1)] } = true := by decide +kernel

/-- A generator on a PLL0 output, in a state; the PLL as given. -/
def genAt (pll stat fb : Word) : State := { atRun with
  regs := [(R.CLK_PLL_OUTDIV 0, 4), (R.CLK_PLL_STAT 0, pll), (R.ISL_GEN_CFG 3, 2), (R.ISL_GEN_STAT 3, stat), (R.ISL_GEN_FB 3, fb)] }
theorem test_generators : acts (.generatorFallback 3) (genAt 0 1 0) = true ∧ acts (.generatorFallback 3) (genAt 0 1 1) = true ∧
    acts (.generatorFallback 58) { genAt 0 1 0 with phase := .steep, surv := { (genAt 0 1 0).surv with usePll := true }, regs := [(R.ISL_GEN_STAT 58, 1)] } = true ∧
    acts (.generatorFallbackStop 3) (genAt 0 2 0) = true ∧ acts (.generatorFallbackStop 3) (genAt 0 0x20 1) = true := by
  decide +kernel
theorem test_generator_returns : acts (.generatorReturn 3) { genAt 2 2 1 with
    regs := [(R.CLK_PLL_OUTDIV 0, 4), (R.CLK_PLL_STAT 0, 2), (R.ISL_GEN_CFG 3, 2), (R.ISL_GEN_STAT 3, 2),
      (R.ISL_GEN_FB 3, BitVec.ofNat 32 (1 + 2 ^ F.ISL_GEN_FB_AUTO_RET.lo))] } = true := by decide +kernel

/-- Bank 0 armed; nib 1 an output paired with nib 0; nib 2 an output bound to port 0 of island 0. -/
def nibsRun : State := { atRun with
  regs := [(R.NIB_BANK_STAT 0, 1), (R.NIB_NIB_DECL 0 0, BitVec.ofNat 32 (1 + 2 ^ F.NIB_NIB_DECL_PAIR.lo)),
    (R.NIB_NIB_DECL 0 1, 2), (R.NIB_NIB_DECL 0 2, BitVec.ofNat 32 (2 + 63 * 2 ^ F.NIB_NIB_DECL_PAIR.lo)), (R.FI_NPORT 0 0, 2), (R.FI_FENCE 0, 0)]
  nib := { atRun.nib with src := [(1, 0), (2, 1)] } }
theorem test_nibs_hyps : bankRuns nibsRun 0 = true ∧ nibPair nibsRun 0 = some 1 ∧ nibPair nibsRun 1 = some 0 ∧ nibSrc nibsRun 1 = 0 ∧
    isOutput nibsRun 1 = true ∧ bankArmed nibsRun 0 = true ∧ portNib nibsRun 0 0 = some 2 ∧ boundPort nibsRun 2 = some (0, 0) ∧
    nibSrc nibsRun 2 = 1 ∧ isOutput nibsRun 2 = true ∧ acts (.nibPortChange 0 0 true true) nibsRun = true := by decide +kernel
theorem test_pads : padMv { nibsRun with nib := { nibsRun.nib with field := [(0, some 1700)] } } 0 = some (1700, 1700) ∧
    nibPair nibsRun 0 ≠ some 0 ∧ acts (.padLevelChange 0 (some 1700) false) nibsRun = true ∧ nibsRun.phase ≠ .reset ∧
    acts (.padLevelChange 0 none true) { State.reset with nib := { State.reset.nib with field := [(0, some 9)] } } = true ∧
    bankInjected nibsRun 0 = false ∧ bankInjected { nibsRun with nib := { nibsRun.nib with field := [(0, some 3800)] } } 0 = true ∧
    directPort nibsRun 47 2 = false := by decide +kernel

/-- Group 1 with nib 1 as its member, in a state. -/
def cutAt (st : Word) : State := { nibsRun with
  regs := nibsRun.regs ++ [(R.NIB_NIB_GRP 0 1, 1), (R.CUT_GRP_STAT 1, st)]
  nib := { nibsRun.nib with evt := [1] } }
theorem test_cutover_hyps : accepts (cutAt 0) .hsp R.CUT_CMD (cutWord 0x101 0) = true ∧ members (cutAt 0) 1 = [1] ∧
    accepts (cutAt 1) .hsp R.CUT_CMD (cutWord 1 1) = true ∧ groupState (cutAt 1) 1 = 1 ∧
    acts (.quietPointEvent 1) (cutAt 1) = true ∧ (∀ b : Bool, acts (.cutoverTimeout 1 b) (cutAt 1) = true) ∧ 1 ∈ (cutAt 1).nib.evt ∧ groupGated (cutAt 1) 1 = false ∧
    groupState (cutAt 0x102) 1 = 2 ∧ groupGated (cutAt 0x102) 1 = false := by decide +kernel
/-- A commit of bank 0 that has accepted and moves nib 1 to group 3; a cutover of its group 1 would straddle it. -/
def straddling (held : List HeldCmd) : State := { cutAt 0 with
  pend := [(R.NIB_NIB_GRP 0 1, some 3)]
  root := { (staging .prepare).root with cWait := [], cApply := [.bank 0], held := held } }
theorem test_held : heldBack (straddling []) .hsp R.CUT_CMD (cutWord 0x101 0) = true ∧ canIssue (straddling []) .hsp = true ∧
    served (straddling []) .hsp = true ∧ devViolation (straddling []) .hsp R.CUT_CMD (some (cutWord 0x101 0)) = none ∧
    pageOf (R.CUT_CMD / 0x1000) = some (.cut, 0) ∧ steepHolds (straddling []) (some .hsp) .cut 0 = false ∧
    acts (.registerWrite .hsp 0x10040 (cutWord 0x101 0)) (straddling []) = true := by decide +kernel
theorem test_held_begins : (let s : State := { cutAt 0 with root := { (cutAt 0).root with held := [⟨.hsp, R.CUT_CMD, cutWord 0x101 0⟩] } }
    s.root.cPhase = .idle ∧ live s = true ∧ pageOff s (R.CUT_CMD / 0x1000) = false ∧
      (match blockWrite { s with root := { s.root with held := [] } } (some .hsp) .cut 0 (R.CUT_CMD % 0x1000) (cutWord 0x101 0) true with
        | .done _ => true
        | _ => false) = true) := by decide +kernel

/-- Island 0 with a word in memory 0. -/
def bramAt (v : Nat) : State := { atRun with fab := { atRun.fab with bram := [(0, v)] } }
theorem test_bram_hyps : islandRuns (bramAt 1) 0 = true ∧ eccClass 0 = .good ∧ eccClass 1 = .correctable (some 0) ∧
    eccClass 3 = .uncorrectable ∧ eccClass (poisonWord 3) = .poisoned ∧
    accepts atRun .hsp (R.FI_ECC_CLR 0) (withField 0 F.FI_ECC_CLR_CLR 1) = true := by decide +kernel

/-- Islands 0 and 1 unfenced; two transfers wait from 0 towards 1. -/
def hsAt : State := { atRun with
  regs := [(R.FI_FENCE 0, 0), (R.FI_FENCE 1, 0)]
  fab := { atRun.fab with hs := [(1, { noHs with wait := [5, 6] })] } }
theorem test_fabric_hyps : islandRuns atRun 0 = true ∧ hsDst (.nb 0 1) = some 1 ∧ takes hsAt 0 = true ∧ takes hsAt 1 = true ∧
    hsBound (hsGet hsAt 1) (.nb 0 1) = true ∧
    (∀ b : Bool, acts (.handshakeTransfer (.nb 0 1) (some 7) 0 b) hsAt = true) ∧ acts (.handshakeWedge (.hs (.nb 0 1))) hsAt = true ∧
    crossDst hsAt (.hs (.nb 0 1)) = some 1 ∧ (hsGet hsAt (hsKey (.nb 0 1))).wait ≠ [] ∧ takes (atRunUw 0) 3 = true ∧
    (∀ c ∈ [Crossing.master, .window], crossDst (atRunUw 0) c = some 3 ∧
      acts (.handshakeWedge c) { atRunUw 0 with fab := { (atRunUw 0).fab with uw := [⟨.hsp, 0x800000, none, 2⟩] } } = true) ∧
    fenced atRun 0 = true ∧ domOn atRun 0 = true ∧ launchedDone atRun 0 = true ∧ uwDone atRun 0 = true ∧ drained atRun 0 = false := by
  decide +kernel

/-- Island 3 fenced and drained, a request for it in hand or not. -/
def prAt (h : Option (Nat × Nat)) : State := { atRun with
  regs := [(R.FI_ISL_STAT 3, BitVec.ofNat 32 (2 ^ F.FI_ISL_STAT_DRAINED.lo)), (R.CFGC_PR_ISLAND, 3)]
  cfg := { atRun.cfg with pr := h } }
theorem test_pr_hyps : accepts (prAt none) .hsp R.CFGC_PR_CMD (withField 0 F.CFGC_PR_CMD_GO 1) = true ∧ fenced (prAt none) 3 = true ∧
    drained (prAt none) 3 = true ∧ domSt (prAt none) 3 = 0 ∧ (prAt (some (3, 4096))).cfg.pr = some (3, 4096) ∧
    live (prAt (some (3, 4096))) = true ∧ 3 ∉ (prAt (some (3, 4096))).bist.isol ∧ sectionHeaderOk (prAt (some (3, 4096))) 3 4096 = false := by
  decide +kernel
/-- The same reconfiguration in a stage of Table 8.3, with a good section in flash or none. -/
def prStage (st : Nat) (good : Bool) : State := { prAt (some (3, 4096)) with
  regs := [(R.CFGC_PR_STAT, BitVec.ofNat 32 st)], cfg := { (prAt (some (3, 4096))).cfg with flash := if good then tabSet (fun _ => 0xFF#8) (loadFlash 0) 0x1004 3 else [] } }
theorem test_pr_stages : (∀ st ∈ [1, 2, 3], (prStage st true).getF R.CFGC_PR_STAT F.CFGC_PR_STAT_STATE = st ∧ domOn (prStage st true) 3 = true ∧
      (prStage st true).cfg.pr = some (3, 4096) ∧ live (prStage st true) = true) ∧ sectionHeaderOk (prStage 1 true) 3 4096 = true ∧
    acts (.prComplete none true) (prStage 1 true) = true ∧ acts (.prComplete none false) (prStage 1 false) = true := by decide +kernel

/-- The Blotter running at frame 0 of island 0, eligible. -/
def blotAtRun (v : Nat) : State := { atRun with
  regs := [(R.FI_FENCE 0, 0), (R.CFGC_VERIFIED0, 1), (R.BLOT_CTRL, 1), (R.BLOT_STAT, 0x80000000)]
  cfg := { atRun.cfg with mem := [(0, v)] } }
theorem test_blot_hyps : blotLive (blotAtRun 0) = true ∧ (blotAtRun 0).cfg.pause = false ∧ (blotAtRun 0).cfg.reload = false ∧
    scrubbable (blotAtRun 0) 0 = true ∧ ({ blotAtRun 0 with cfg := { (blotAtRun 0).cfg with skip := true } } : State).cfg.skip = true ∧ isCorrectable (cfgGet (blotAtRun 1) 0 0 0) = true ∧
    eccUsable (cfgGet (blotAtRun 3) 0 0 0) = false := by decide +kernel

theorem test_blot_more_hyps : blotLive (blotAtRun 0) = true ∧
    blotLive { blotAtRun 0 with cfg := { (blotAtRun 0).cfg with reload := true } } = true ∧ (blotAtRun 0).cfg.pr = none ∧
    (scrubFrom (blotAtRun 0) 0).getD 0 = 0 ∧ accepts (blotAtRun 0) .hsp R.BLOT_CTRL 1 = true ∧
    accepts (blotAtRun 0) .hsp R.BLOT_CNT_CLR (withField 0 F.BLOT_CNT_CLR_CLR 1) = true := by decide +kernel

/-- Capture in RUN or POST, with a trigger pulse on its way. -/
def capAt (st : Nat) : State := { atRun with
  regs := [(R.CAP_GRP_EN0, 1), (R.CAP_STAT, BitVec.ofNat 32 st)]
  cap := { noCap with trig := [(0, 0)], post := some 3 } }
theorem test_capture_hyps : accepts (capAt 0) .hsp R.CAP_CMD (withField 0 F.CAP_CMD_ARM 1) = true ∧ groupsOn (capAt 0) = [0] ∧
    accepts (capAt 1) .hsp R.CAP_CMD (withField 0 F.CAP_CMD_STOP 1) = true ∧ capActive (capAt 1) = true ∧ capActive (capAt 0) = false ∧
    accepts (capAt 1) .hsp R.CAP_CMD (withField 0 F.CAP_CMD_TRIG 1) = true ∧ live (capAt 1) = true ∧ domOn (capAt 1) 48 = true ∧
    genRuns (capAt 1) 55 = true ∧ capState (capAt 2) = 2 ∧ (capAt 2).regN R.CAP_POST ≤ 3 ∧
    postDue (capAt 2) = true ∧ postDue (capAt 1) = false ∧ accepts (capAt 2) .hsp R.CAP_CMD (withField 0 F.CAP_CMD_STOP 1) = true ∧
    accepts (capAt 2) .hsp R.CAP_CMD (withField 0 F.CAP_CMD_TRIG 1) = true ∧ (0, 0) ∈ (capAt 1).cap.trig ∧ acts .captureTrigger (capAt 1) = true := by decide +kernel

/-- Capture in RUN with group 0 on; the ring full, or throttling; a spilled line outstanding. -/
def inkAt (thr : Bool) : State := { atRun with
  regs := [(R.CAP_GRP_EN0, 1), (R.CAP_STAT, if thr then 0x101 else 1), (R.INK_LOWWAT, 1)]
  cap := { noCap with fq := [(0, 0)], blocks := 512, freed := if thr then 512 else 0, spOut := [3] } }
theorem test_ink_hyps : live (inkAt true) = true ∧ domOn (inkAt true) 48 = true ∧ domOn (inkAt true) 49 = true ∧
    genRuns (inkAt true) 55 = true ∧ throttling (inkAt true) = true ∧ unconsumed (inkAt true) = 0 ∧ capActive (inkAt false) = true ∧
    fullCause (inkAt false) = 1 ∧ throttling (inkAt false) = false ∧ fullDue (inkAt true) = false ∧ postDue (inkAt true) = false ∧
    throttleOffDue (capAt 1) = false ∧ traceDue (capAt 1) = false ∧ fullDue (capAt 1) = false ∧ postDue (capAt 1) = false ∧
    quillSettled (capAt 1) = true ∧ inkEdgesOk (capAt 1) 1 = true ∧
    acts (.captureSample [] [] 1) (capAt 1) = true ∧ (0, 0) ∉ ({ capAt 1 with cap := noCap } : State).cap.trig ∧ groupsOn (capAt 1) = [0] ∧ groupDe (capAt 1) 0 = false ∧
    accepts (inkAt false) .hsp R.INK_RD 5 = true ∧ accepts (inkAt false) .hsp R.INK_SPILL_RD 5 = true ∧
    acceptsRead atRun .hsp R.INK_WIN_LO = true ∧ acceptsRead atRun .hsp R.INK_WIN_HI = true := by decide +kernel
/-- With the capture clock gated, generator 56 may have edges or none; without capture nothing is due. -/
theorem test_gated_capture : (let s : State := { atRun with regs := [(R.ISL_GEN_STAT 55, 0), (R.ISL_GEN_STAT 56, 0x320001)] }
    live s = true ∧ domOn s 48 = true ∧ genRuns s 55 = false ∧ fullDue s = false ∧ postDue s = false ∧ throttleOffDue s = false ∧
      inkEdgesOk s 0 = true ∧ inkEdgesOk s 3 = true) := by decide +kernel

/-- Context 3 in a state, with a window of 16 words. -/
def quillAt (st : Nat) : State := { atRun with regs := [(R.QCX_STAT 3, BitVec.ofNat 32 st), (R.QCX_LIMIT 3, 15), (R.QCX_VBASE 3, 4)] }
theorem test_quill_start_hyps : accepts (quillAt 0) .hsp (R.QCX_CMD 3) (withField 0 F.QCX_CMD_START 1) = true ∧
    ctxRuns (quillAt 0) 3 = false ∧ (quillAt 0).regN (R.QCX_VBASE 3) + 5 ≤ (quillAt 0).regN (R.QCX_LIMIT 3) ∧
    ctxRuns (quillAt 1) 3 = true ∧ ctxState (quillAt 3) 3 = 3 := by decide +kernel
theorem test_quill_stop_hyps : accepts (quillAt 1) .hsp (R.QCX_CMD 3) (withField 0 F.QCX_CMD_STOP 1) = true ∧
    accepts (quillAt 1) .hsp (R.QCX_CMD 3) (withField 0 F.QCX_CMD_TRAP 1) = true ∧ bitOf (0 : Word).toNat 0 = false := by decide +kernel

/-- Context 3 in a state at address 2, which holds a word of an opcode and operand with ALWAYS or not: NXT 5 and 6, EMIT 1, TRIG. -/
def quillRun (st opc operand : Nat) (always : Bool) : State :=
  let w := 2 ^ 90 * opc + 2 ^ 78 * 5 + 2 ^ 66 * 6 + 2 ^ 24 + 2 ^ 23 + (if always then 2 ^ 21 else 0) + operand
  { atRun with
    regs := [(R.QCX_STAT 3, BitVec.ofNat 32 st)]
    quill := { atRun.quill with ctx := [(3, { noCtx with pc := 2 })], store := [(2, w + 2 ^ 96 * parity3 w)] } }
theorem test_quill_words : canRun (quillRun 1 1 0 false) 3 1 = true ∧ canRun (quillRun 1 2 3 true) 3 2 = true ∧
    canRun (quillRun 1 3 15 true) 3 3 = true ∧ canRun (quillRun 1 4 1 true) 3 4 = true ∧ canRun (quillRun 1 5 0 false) 3 5 = true := by
  decide +kernel
theorem test_quill_words_more : canRun (quillRun 1 6 15 true) 3 6 = true ∧ canRun (quillRun 1 7 0 true) 3 7 = true ∧
    canRun (quillRun 1 8 2 true) 3 8 = true ∧ canRun (quillRun 1 9 0 false) 3 9 = true ∧ canRun (quillRun 2 10 0 false) 3 10 = true ∧
    canRun (quillRun 0x102 10 0 false) 3 10 = true ∧ wordCond (turn (quillRun 1 1 0 false) 3) 3 (wordAt (quillRun 1 1 0 false) 3) = true := by decide +kernel

/-- Context 3 with an undefined word, in a state, with CRIT or not. -/
def quillTrap (st : Nat) (crit rett : Bool) : State := { atRun with
  regs := [(R.QCX_CTRL 3, if crit then 1 else 0), (R.QCX_STAT 3, BitVec.ofNat 32 st)]
  quill := { atRun.quill with ctx := [(3, { noCtx with pc := 2, rett := rett })] } }
theorem test_traps : turnOk (quillTrap 1 false false) 3 = true ∧ ctxState (quillTrap 1 false false) 3 = 1 ∧
    faultCause (turn (quillTrap 1 false false) 3) 3 = some 1 ∧ ctxState (quillTrap 2 false false) 3 = 2 ∧
    turnOk (quillTrap 2 true false) 3 = true ∧ (quillTrap 2 true false).flag (R.QCX_CTRL 3) F.QCX_CTRL_CRIT = true ∧
    (quillTrap 2 false false).flag (R.QCX_CTRL 3) F.QCX_CTRL_CRIT = false := by decide +kernel
theorem test_traps_pending : turnOk (quillTrap 0x402 false true) 3 = true ∧ pendCause (quillTrap 0x402 false true) 3 = some 5 ∧
    acts (.microTrap 3 0) (quillTrap 0x402 false true) = true ∧ acts (.microTrap 3 0) (quillTrap 2 true false) = true ∧
    pendCause (quillRun 0x301 1 0 false) 3 = some 3 ∧ acts (.microTrap 3 0) (quillRun 0x301 1 0 false) = true := by decide +kernel

/-- A device that halted for an uncorrectable frame, `later` cycles ago; context 3 then meets a double trap. -/
def halted (later : Nat) : State :=
  let h := halt (quillTrap 2 true false) 4 7 0
  { h with root := { h.root with ts := h.root.ts + later } }
/-- R564: on the edge of the halt the lower cause is recorded, later a cause sets its ALSO bit alone. -/
theorem test_also : (match exec (.microTrap 3 0) (halted 0) with
      | .next t => t.reg R.IRQ_HALT_INFO == 0x80000803 && t.reg R.IRQ_HALT_A0 != 7
      | _ => false) = true ∧
    (match exec (.microTrap 3 0) (halted 1) with
      | .next t => t.reg R.IRQ_HALT_INFO == 0x80000404 && t.reg R.IRQ_HALT_A0 == 7
      | _ => false) = true := by decide +kernel

theorem test_qst_hyps : accepts atRun .hsp (R.QST_W0 + 4) 7 = true ∧ accepts atRun .hsp R.QST_W2 7 = true ∧
    acceptsRead atRun .hsp R.QST_W0 = true ∧ acceptsRead atRun .hsp R.QST_W1 = true ∧ acceptsRead atRun .mon R.QST_W2 = true := by
  decide +kernel
theorem test_limits_hyps : accepts atRun .hsp (limitHiReg 7 5) 9 = true ∧ accepts atRun .hsp (limitHiReg 0 0) 9 = true ∧
    limitHiReg 7 5 = 0x3B0CC ∧ accepts atRun .hsp (R.QCX_DT_CLR 7) (withField 0 F.QCX_DT_CLR_CLR 1) = true := by decide +kernel

theorem test_no_words (n w : Nat) : decodeTableWord n w = none := rfl

/-- A register value with fields set. -/
def fv (l : List (Fld × Nat)) : Word := BitVec.ofNat 32 ((l.map (fun e => e.2 * 2 ^ e.1.lo)).sum)

/-- Run with registers written. -/
def atRunWith (l : List (Nat × Word)) : State := { atRun with regs := l }

/-- An edge of a capture in either mode, with no trigger on its way, throttling or not. -/
theorem test_stored : ∀ m ∈ [(0, 1), (1, 1), (1, 0x101)], (let s : State := { atRunWith [(R.CAP_GRP_EN0, 1), (R.CAP_STAT, BitVec.ofNat 32 m.2),
      (R.CAP_CTRL, fv [(F.CAP_CTRL_MODE, m.1)])] with cap := { noCap with thr := 1, blocks := 512 } }
    live s && capActive s && domOn s 48 && genRuns s 55 && quillSettled s && inkEdgesOk s 0 && !fullDue s && !postDue s && !throttleOffDue s &&
      !traceDue s && s.cap.stop == false && trigsDue s == [] && groupsOn s == [0] && acts (.captureSample [] [] 0) s) = true := by decide +kernel

/-- Nib 335 traced and its pair as given. -/
def traced (p : TPair) (more : List (Nat × Word)) : State := { atRunWith ([(R.TRC_CTRL, 1), (R.TRC_TEN 10, 0x8000)] ++ more) with
  trc := { noTrc with pair := [(335, p)], q := [(0, [7, 0, 0, 0])] }, cap := { noCap with ts := 2 ^ 47 } }
/-- A strobe edge of comparator 7 with its word. -/
def strobe (v : Nat) : TEdge := ⟨5, true, true, none, [(7, v)], []⟩
theorem test_tracing_hyps : trcLive (traced noPair []) = true ∧ pairEn (traced noPair []) 335 = true ∧ isData (traced noPair []) 335 = false ∧
    divDue (traced noPair []) 335 = 0 ∧ edgeDue (traced { noPair with step := true, cl := true } []) 335 true = true ∧
    edgeDue (traced { noPair with step := true, cv := true, pl := [⟨2 ^ 47 - 2, true, true, none, [], []⟩] } []) 335 false = true ∧
    divDue (traced { noPair with step := true, cv := true, pl := [⟨2 ^ 47 - 2, true, true, none, [], []⟩] } []) 335 = 0 ∧
    divDue (traced { noPair with pl := [⟨0, true, true, none, [], []⟩] } []) 335 = 1 ∧ divDue (traced { noPair with pv := [⟨0, true, true, none, [], []⟩] } []) 335 = 2 ∧
    resyncDue (traced { noPair with fresh := true } []) 335 = true ∧
    recordTurn (traced { noPair with pl := [⟨0, true, true, none, [], []⟩] } []) 335 = true ∧
    acts (.traceDivergence 335) (traced { noPair with pl := [⟨0, true, true, none, [], []⟩] } []) = true := by decide +kernel
theorem test_tracing_commands : (∀ v : Fin 2, let s : State := { traced noPair [(R.TRC_TX_CFG 7, fv [(F.TRC_TX_CFG_EN, 1)])] with
      trc := { noTrc with txn := [⟨7, strobe 1, strobe v⟩] } }
      trcLive s = true ∧ firstWhere (fun t => t.k == 7) s.trc.txn = some ⟨7, strobe 1, strobe v⟩ ∧ txnReady ⟨7, strobe 1, strobe v⟩ = true ∧ recordTurn s (txnNib s ⟨7, strobe 1, strobe v⟩) = true ∧ acts (.transactionDecide 7) s = true) ∧
    accepts (traced noPair []) .hsp R.TRC_CTRL 0 = true ∧ accepts atRun .hsp R.TRC_CTRL 1 = true ∧ trcRun atRun = false ∧
    acceptsRead (traced noPair []) .mon (R.TRC_Q_W 0) = true ∧
    accepts atRun .hsp R.TRC_STAT_CLR (withField 0 F.TRC_STAT_CLR_CLR 1) = true := by decide +kernel

/-- Generators 58 and 59 at 50 MHz, and channel 31 enabled on nib 335 with `q` in its queue. -/
def timing (q : List TEnt) (last : Option Nat) : State := { atRunWith [(R.ISL_GEN_CFG 59, 0x3A03), (R.ISL_GEN_STAT 58, 0x320001), (R.ISL_GEN_STAT 59, 0x320001),
    (R.TDC_CH_CFG 31, fv [(F.TDC_CH_CFG_EN, 1), (F.TDC_CH_CFG_NIB, 335)]), (R.TIN_TIN_CFG 3, 1)] with
  tdc := { noTdc with q := [(31, q)], last := [(31, last)] }, nib := { atRun.nib with cmp := [(335, true)] } }
theorem test_tdc_hyps : accepts (timing [] none) .hsp (R.TDC_CMD 0) (withField 0 F.TDC_CMD_ZERO 1) = true ∧ domOn (timing [] none) 51 = true ∧
    domOn (timing [] none) 52 = true ∧ oneClock (timing [] none) 58 59 = true ∧
    accepts (timing [] none) .hsp (tdcConfigReg 31) 0 = true ∧ accepts (timing [] none) .hsp (tdcConfigReg 0) 1 = true ∧
    genMhz (timing [] none) 58 = 50 ∧ genRuns (timing [] none) 58 = true ∧ chEn (timing [] none) 31 = true ∧
    accepts (timing [] none) .hsp (tdcConfigReg 32) 1 = true ∧ accepts (timing [] none) .hsp (tdcConfigReg 35) 0 = true ∧
    devViolation { timing [] none with phase := .steep } .hsp (tdcConfigReg 7) (some 1) = none ∧
    acceptsRead (timing [] none) .mon (R.TDC_CH_Q_W0 31) = true := by decide +kernel
theorem test_tdc_edges : live (timing [] none) = true ∧ tdcDomOn (timing [] none) 0 = true ∧ 31 ∈ tdcTakers (timing [] none) (.nib 335) 1 ∧
    slopeTakes (nibCfg (timing [] none) 335 F.NIB_NIB_CFG_SLOPE) true = true ∧
    acts (.tdcEdge (.nib 335) true (0, 0) (1, 5)) (timing [] none) = true ∧
    acts (.tdcEdge (.nib 335) true (0, 0) (1, 5)) (timing (List.replicate 1024 ⟨1, 2, 3⟩) (some 0)) = true ∧
    acts (.tdcEdge (.tin 3 100 0) true (1, 0) (0, 0)) (timing [] none) = true ∧ tinNow (timing [] none) 3 true = false ∧
    tinLevel (timing [] none) 3 100 0 false true = true ∧ signedOf 12 ((timing [] none).getF (R.TIN_TIN_CFG 3) F.TIN_TIN_CFG_THR) = 0 ∧
    acts (.tinFreqWindow 3 true) (timing [] none) = true ∧ genRuns (timing [] none) 58 = true ∧
    (timing [] none).flag (R.TIN_TIN_CFG 3) F.TIN_TIN_CFG_EN = true := by
  decide +kernel
/-- Channel 31 with an overflow in the cycle of its present timebase count. -/
def overflowed : State := { timing [⟨1, 2, 3⟩] none with tdc := { (timing [⟨1, 2, 3⟩] none).tdc with late := [(31, some ⟨0, [⟨1, 2, 3⟩, ⟨4, 5, 6⟩], 9, false, 0⟩)] } }
theorem test_tdc_late_pop : acceptsRead overflowed .mon (R.TDC_CH_Q_W0 31) = true ∧
    tabGet (fun _ => none) (enterSlot overflowed .mon).tdc.late 31 = some ⟨0, [⟨1, 2, 3⟩, ⟨4, 5, 6⟩], 9, false, 0⟩ ∧
    tbOf (enterSlot overflowed .mon) 1 = 0 ∧ acts (.tdcQueuePop .mon 31) overflowed = true := by decide +kernel

/-- Keys of zeros. -/
def zeroKeys : KeySet := ⟨List.replicate 16 0#8, List.replicate 16 0#8, List.replicate 16 0#8⟩
/-- The memory controller in a state, with one MiB; keys of ephemeral mode; a fill of one line. -/
def memAt (st : Nat) (ctrl : Word) : State := { atRunWith [(R.MEMC_STAT, BitVec.ofNat 32 st), (R.MEMC_DATA_TOP, 1), (R.XTS_CTRL, ctrl),
    (R.XTS_STAT, 1), (R.MEMC_FILL_LEN, 1)] with
  mem := { noMem with eph := some zeroKeys, slot := [(0, some zeroKeys)], fill := if st = 4 then some (16383, 1, 0) else none } }
theorem test_memory_hyps : accepts atRun .hsp R.MEMC_CMD (withField 0 F.MEMC_CMD_INIT 1) = true ∧
    accepts (memAt 3 0) .hsp R.MEMC_CMD (withField 0 F.MEMC_CMD_STOP 1) = true ∧ inflight (memAt 3 0) = 0 ∧
    inflight { memAt 3 0 with cap := { noCap with spOut := [0] } } = 1 ∧
    accepts (memAt 3 0) .hsp R.MEMC_CMD (withField 0 F.MEMC_CMD_FILL 1) = true ∧
    (memAt 3 0).getF R.MEMC_FILL_LEN F.MEMC_FILL_LEN_LINES ≤ 16384 * dataTopMib (memAt 3 0) ∧ keyIdMode (memAt 3 0) = false ∧
    keyIdMode (memAt 3 1) = true ∧ slotKeys (memAt 3 1) 0 = some zeroKeys ∧
    memLive (memAt 1 4) = true ∧ memState (memAt 1 4) = 1 ∧ integOn (memAt 1 4) = true ∧ integOn (memAt 1 0) = false ∧
    acts (.memcTrainDone 5) (memAt 1 0) = true ∧ acts (.memcTrainDone 0) (memAt 1 4) = true ∧
    acts (.memcTrainTimeout 5) (memAt 1 0) = true ∧ memState (memAt 2 4) = 2 ∧ memState (memAt 4 0) = 4 ∧
    acts (.ddrAlert true) (memAt 3 0) = true ∧ acts (.ddrAlert true) { memAt 3 0 with mem := { (memAt 3 0).mem with alerts := 3 } } = true ∧ accepts (memAt 3 0) .hsp R.XTS_CTRL 7 = true := by decide +kernel
/-- The clock that MEMC_INIT asks for: generator 60 on PLL0's output 0 divided by 4. -/
def clocked : State := { atRunWith [(R.CLK_PLL_OUTDIV 0, 4), (R.CLK_PLL_STAT 0, 2), (R.ISL_GEN_CFG 60, fv [(F.ISL_GEN_CFG_SRC_KIND, 2),
  (F.ISL_GEN_CFG_D, 4)]), (R.ISL_GEN_STAT 60, 1)] with mem := noMem }
theorem test_memory_clock : ddrClockOk clocked = true ∧ memState clocked = 0 ∧ ddrClockOk atRun = false ∧
    accepts clocked .hsp R.MEMC_CMD (withField 0 F.MEMC_CMD_INIT 1) = true ∧
    acts (.memcInit .hsp 0) clocked = true ∧
    accepts atRun .hsp R.MEMC_ECC_CLR (withField 0 F.MEMC_ECC_CLR_CLR 1) = true := by decide +kernel
theorem test_key_hyps : (∀ f ∈ [F.KEYS_CMD_LOAD, F.KEYS_CMD_RANDOM, F.KEYS_CMD_CLEAR], accepts (memAt 0 1) .hsp R.KEYS_CMD (withField 0 f 1) = true) ∧
    slotBusy (memAt 0 1) 0 = false ∧ slotBusy (memAt 4 1) 0 = true ∧ (memAt 0 1).flag R.XTS_STAT F.XTS_STAT_RNG_OK = true ∧
    atRun.flag R.XTS_STAT F.XTS_STAT_RNG_OK = false := by decide +kernel

/-- Channel 31 in a state with a configuration, 2 elements to go and the requests `h`. -/
def chan (st : Nat) (cfg : Word) (more : List (Nat × Word)) (h : Chan) : State := { memAt 3 0 with
  regs := more ++ [(R.DMA_CH_CFG 31, cfg), (R.DMA_COUNT 31, 2), (R.DMA_STAT 31, BitVec.ofNat 32 st)] ++ (memAt 3 0).regs
  dma := ⟨[(31, h)], 0⟩ }
/-- Two elements in all. -/
def two : Chan := { noChan with tot := 2 }
theorem test_memory_reads : readGranted (chan 1 0 [] two) 31 .elem = true ∧
    readGranted (chan 1 (fv [(F.DMA_CH_CFG_SRC_MODE, 2)]) [] two) 31 .idx = true ∧
    readGranted (chan 1 (fv [(F.DMA_CH_CFG_CHAIN, 1)]) [] { two with chain := true }) 31 .desc = true ∧
    decodeAddr 0 = .dram 0 ∧ decodeAddr (2 ^ 34) = .none ∧ decodeAddr (2 ^ 34 - 1) = .dram (2 ^ 34 - 1) ∧
    decodeAddr 0x801010000 = .tdc 1 0 ∧ decodeAddr 0x8001FFFFF = .inkwell 0x1FFFFF ∧
    dramError (chan 1 0 [] two) 0 0 1 = 0 ∧ dramError (chan 1 0 [] two) (2 ^ 36) 0 1 = 1 ∧ dramError atRun 0 0 1 = 3 ∧
    keysFor (chan 1 0 [] two) 0 = some zeroKeys ∧ integOn (chan 1 0 [] two) = false ∧
    srcAddr (chan 1 0 [(R.DMA_SRC_LO 31, 0x01010000), (R.DMA_SRC_HI 31, 8)] two) 31 = 0x801010000 := by decide +kernel
theorem test_memory_writes : canGrant (chan 2 0 [] { two with nr := 1, got := [(0, [7#8, 0#8, 0#8, 0#8])] }) 31 = true ∧
    writeReady (chan 2 0 [] { two with nr := 1, got := [(0, [7#8, 0#8, 0#8, 0#8])] }) 31 = true ∧ dstKind (chan 2 0 [] two) 31 = 0 ∧
    writeReady (chan 1 4 [] { two with nr := 1, got := [(0, List.replicate 64 7#8)] }) 31 = true ∧
    canGrant (chan 1 4 [] { two with nr := 1, got := [(0, List.replicate 64 7#8)] }) 31 = true := by decide +kernel
/-- A capture has spilled nothing yet: one block is closed and may go. -/
def spilling : State := { memAt 3 0 with
  regs := [(R.CAP_STAT, fv [(F.CAP_STAT_STATE, 1), (F.CAP_STAT_SPILL_BUSY, 1)]), (R.INK_SPILL_SIZE, 1)] ++ (memAt 3 0).regs
  cap := { noCap with blocks := 1 } }
theorem test_spill : memLive spilling = true ∧ domOn spilling 49 = true ∧ spillGrant spilling = true ∧ spillUrgent spilling = false ∧
    spillUrgent { spilling with regs := (R.MEMC_ARB, 0) :: spilling.regs } = true := by decide +kernel

/-- Steep holds the start-up settings of lane 7. -/
def surveyed : State := { atRun with surv := { atRun.surv with lanes := 128 } }

/-- A configuration of channel 31: source kind and mode, destination kind, stream 15, chaining. -/
def chanWord (sk sm dk chain : Nat) : Word := fv [(F.DMA_CH_CFG_SRC_KIND, sk), (F.DMA_CH_CFG_SRC_MODE, sm), (F.DMA_CH_CFG_DST_KIND, dk),
  (F.DMA_CH_CFG_STREAM, 15), (F.DMA_CH_CFG_CHAIN, chain)]
/-- Stream 15 open on lane 7, which is UP, with credit. -/
def streaming : List (Nat × Word) := [(R.DLNK_STR_CFG 15, fv [(F.DLNK_STR_CFG_EN, 1), (F.DLNK_STR_CFG_LANE, 7), (F.DLNK_STR_CFG_DST, 5)]),
  (R.DLNK_STR_STAT 15, 255), (R.LANE_STAT 7, 6)]
/-- Stream 15, open, is closed by its configuration register; a setting is refused while its port is enabled. -/
theorem test_settings : accepts (atRunWith streaming) .hsp (R.DLNK_STR_CFG 15) 0 = true ∧ strOpen (atRunWith streaming) 15 = true ∧
    accepts (atRunWith [(R.UART_CFG 7, 1)]) .hsp (R.UART_BAUD 7) 0x100 = true ∧ accepts atRun .hsp (R.UART_BAUD 7) 0x100 = true ∧
    settingOff .uart 0x044 = true ∧ settingCode (atRunWith [(R.UART_CFG 7, 1)]) .uart 7 0x044 0x100 = some 1 ∧
    settingCode atRun .uart 7 0x044 0x100 = none ∧
    accepts (atRunWith [(R.UART_CFG 7, 1)]) .hsp (R.UART_FCFG 7) 0x100 = true := by decide +kernel
theorem test_read_back : storedReg (written atRun .hsp (R.UART_BAUD 7)) .mon (R.UART_BAUD 7) .uart 7 := by
  unfold storedReg
  decide +kernel
theorem test_dma_start : let go := withField 0 F.DMA_CMD_START 1
    accepts (chan 0 0 [] two) .hsp (R.DMA_CMD 31) go = true ∧ chanSt (chan 0 0 [] two) 31 = 0 ∧ chanSt (chan 4 0 [] two) 31 = 4 ∧
    acts (.dmaStart .hsp 31 0) (chan 0 0 [] two) = true ∧ srcAddr (chan 0 4 [(R.DMA_SRC_LO 31, 63)] two) 31 % 64 = 63 ∧
    chanEsize (chan 0 4 [] two) 31 = 64 ∧ dstKind (chan 0 (chanWord 0 0 2 0) [] two) 31 = 2 ∧
    strOpen (chan 0 (chanWord 0 0 2 0) [] two) 15 = false ∧ strOpen (chan 0 (chanWord 0 0 2 0) streaming two) 15 = true ∧
    chanCount (chan 0 0 [] two) 31 = 2 ∧ chanCount (chan 0 0 [(R.DMA_COUNT 31, 0)] two) 31 = 0 := by decide +kernel
theorem test_dma_commands : accepts (chan 1 0 [] two) .hsp (R.DMA_CMD 31) (withField 0 F.DMA_CMD_PAUSE 1) = true ∧
    chanDrained (chanOf (chan 1 0 [] two) 31) = true ∧ (chanOf (chan 1 0 [] two) 31).nw ≠ (chanOf (chan 1 0 [] two) 31).tot ∧
    accepts (chan 3 0 [] two) .hsp (R.DMA_CMD 31) (withField 0 F.DMA_CMD_RESUME 1) = true ∧ chanSt (chan 3 0 [] two) 31 = 3 ∧
    accepts (chan 3 0 [] two) .hsp (R.DMA_CMD 31) (withField 0 F.DMA_CMD_CANCEL 1) = true ∧
    accepts (chan 0 0 [] two) .hsp (bufReg 31 63) 7 = true ∧ chanBusy (chan 1 (chanWord 1 0 0 0) [] two) 31 = true ∧
    srcKind (chan 1 (chanWord 1 0 0 0) [] two) 31 = 1 ∧ accepts (chan 0 0 [] two) .hsp (R.DMA_COUNT 31) 7 = true ∧
    accepts (chan 1 0 [] two) .hsp (R.DMA_IDX_CUR 31) 7 = true := by decide +kernel
/-- Channel 31 with one request of a phase in flight, answered so. -/
def answering (sm ph resp : Nat) : State := chan 1 (chanWord 0 sm 0 0) [] { two with fl := [⟨ph, 0, 0, resp, [7#8, 0#8, 0#8, 0#8]⟩] }
theorem test_dma_responses : dmaLive (answering 0 2 0) = true ∧ chanBusy (answering 0 2 0) 31 = true ∧ dstKind (answering 0 2 0) 31 = 0 ∧
    (chanOf (answering 2 1 0) 31).nr < (chanOf (answering 2 1 0) 31).tot ∧
    acts (.dmaReadResponse 31 0) (answering 2 1 0) = true ∧ acts (.dmaReadResponse 31 0) (answering 0 2 0) = true ∧
    acts (.dmaReadResponse 31 0) (answering 0 2 4) = true ∧ acts (.dmaWriteAck 31 0) (answering 0 3 0) = true ∧
    acts (.dmaWriteAck 31 0) (answering 0 3 1) = true ∧
    elemReady (chan 1 (chanWord 1 0 0 0) [] two) 31 = true ∧ (chanOf (chan 1 (chanWord 1 0 0 0) [] two) 31).fl[0]? = none := by decide +kernel
/-- Channel 31 with its first element read and to be written, to its buffer or its stream. -/
def writing (dk : Nat) : State := chan 1 (chanWord 0 0 dk 0) streaming { two with nr := 1, got := [(0, [7#8, 0#8, 0#8, 0#8])] }
theorem test_dma_writes : writeReady (writing 1) 31 = true ∧ chanEsize (writing 1) 31 = 4 ∧ dstKind (writing 1) 31 = 1 ∧
    acts (.dmaWriteAck 31 0) (writing 1) = true ∧ dmaLive (writing 2) = true ∧ writeReady (writing 2) 31 = true ∧
    strOpen (writing 2) 15 = true ∧ (strmOf (writing 2) 15).closed = false ∧ acts (.dmaWriteAck 31 0) (writing 2) = true := by
  decide +kernel
/-- A descriptor with COUNT 1 has come, or an error. -/
def described (resp c0 : Nat) : State := chan 1 (chanWord 0 0 0 1) [] { two with chain := true, fl := [⟨0, 0, 0, resp,
  [BitVec.ofNat 8 c0] ++ List.replicate 27 0#8 ++ [1#8] ++ List.replicate 35 0#8⟩] }
theorem test_dma_descriptors : dmaLive (described 0 0) = true ∧ acts (.dmaDescriptorLoad 31) (described 0 0) = true ∧
    (∀ r ∈ (chanOf (described 0 0) 31).fl, r.data.length = 64 ∧ descOk (described 0 0) 31 (wordsLE r.data) = true) ∧
    (∀ r ∈ (chanOf (described 0 7) 31).fl, descOk (described 0 7) 31 (wordsLE r.data) = false) ∧
    acts (.dmaDescriptorLoad 31) (described 4 0) = true := by decide +kernel

/-- Lane 7 in a state at a rate, with other registers, and what it holds. -/
def lane (st rate : Nat) (more : List (Nat × Word)) (l : Lane) : State := { atRunWith ([(R.LANE_STAT 7, fv [(F.LANE_STAT_STATE, st),
    (F.LANE_STAT_RATE, rate)])] ++ more) with dl := { atRun.dl with lane := [(7, l)] } }
theorem test_lane_config : accepts (lane 0 0 [] noLane) .hsp (laneConfigReg 7 0) 0x101 = true ∧ accepts (lane 6 0 [] noLane) .hsp (laneConfigReg 7 3) 1 = true ∧
    laneUp (lane 6 0 [] noLane) 7 = true ∧ domOn (lane 6 0 [] noLane) 58 = true ∧ domOn { atRun with pwr := { atRun.pwr with dom := [(58, 1)] } } 58 = false ∧
    laneHeld { surveyed with phase := .steep } 7 = true ∧ served { surveyed with phase := .steep } .hsp = true ∧
    devViolation { surveyed with phase := .steep } .hsp (laneConfigReg 7 3) (some 0) = none := by decide +kernel
theorem test_lane_events : laneLive (lane 1 3 [] noLane) 7 = true ∧ acts (.laneSynthTimeout 7) (lane 1 0 [] noLane) = true ∧
    acts (.laneHuntTimeout 7) (lane 1 3 [] noLane) = true ∧ laneRate (lane 1 3 [] noLane) 7 = 3 ∧
    acts (.laneRateChange 7) (lane 3 0 [] { noLane with target := 7 }) = true ∧
    acts (.eqRequestLimit 7) (lane 4 0 [] { noLane with eq := { noEq with req := 1 } }) = true ∧
    acts (.laneCvRetrain 7) (lane 6 0 [] noLane) = true ∧
    accepts (lane 6 0 [] noLane) .hsp (R.LANE_SCAN_CTRL 7) (withField 0 F.LANE_SCAN_CTRL_GO 1) = true ∧
    acts (.eyeScanDone 7 9) (lane 6 0 [] { noLane with scan := some ⟨0, 0, 0⟩ }) = true := by decide +kernel

/-- A training set of Table 15.2: the first symbol, RATEMASK, FLAGS, a tap request and its number, a response and its number. -/
def tset (kind mask flags req rseq rsp aseq : Nat) : Vector Byte 15 :=
  let b : Vector Byte 15 := ⟨#[kind, 1, mask, 0, flags, req, rseq, rsp, aseq, 0, 0, 0, 0, 5, 0].map (BitVec.ofNat 8), by simp⟩
  b.set 14 ((b.toList.take 14).foldl (· ^^^ ·) 0#8)
/-- A request of taps is under way. -/
def asking (req : Nat) : Lane := { noLane with eq := { noEq with req := req, tap := 1, dir := 1, m := 9 } }
theorem test_training_hyps : setAccepted (tset 0x4A 1 1 0 0 0 0) = true ∧ setAccepted (tset 0x00 1 1 0 0 0 0) = false ∧
    (lane 1 0 [] noLane).getF (R.LANE_STAT 7) F.LANE_STAT_CAUSE ≠ 1 ∧ laneLive (lane 1 0 [] noLane) 7 = true ∧
    acts (.trainingSetReceived 7 (tset 0x4A 1 1 0 0 0 0) false 0 0) (lane 1 0 [] { noLane with run := 2 }) = true ∧
    acts (.trainingSetReceived 7 (tset 0x4A 0x81 1 0 0 0 0) false 0 0) (lane 2 0 [(R.LANE_CFG 7, 0x8103)] { noLane with run := 7 }) = true ∧
    bitOf (laneMask (lane 2 0 [(R.LANE_CFG 7, 0x8103)] noLane) 7) 7 = true ∧ bitOf (sym (tset 0x4A 0x81 1 0 0 0 0) 3) 7 = true ∧
    bitOf (sym (tset 0x4A 0x81 1 0 0 0 0) 5) 0 = true ∧ laneRxEq (lane 2 0 [(R.LANE_CFG 7, 0x8103)] noLane) 7 = true ∧
    laneRxEq (lane 2 0 [(R.LANE_CFG 7, 0x101)] noLane) 7 = false := by decide +kernel
theorem test_training_taps : bitOf (sym (tset 0x4A 1 1 0x81 4 0 0) 6) 7 = true ∧ bitOf (sym (tset 0x4A 1 1 0xC1 4 0 0) 6) 6 = true ∧
    setAccepted (tset 0x4A 1 1 0x81 4 0 0) = true ∧ laneSt (lane 4 0 [] (asking 2)) 7 = 4 ∧
    (tapStep 0 15 0 1).1 + (tapStep 0 31 0 0).1 + 16 ≤ (tapStep 16 63 48 0).1 ∧
    setAccepted (tset 0x4A 1 0 0 0 0x80 0) = true ∧ bitOf (sym (tset 0x4A 1 0 0 0 0x80 0) 8) 7 = true ∧
    sym (tset 0x4A 1 0 0 0 0x80 0) 9 = (laneOf (lane 4 0 [] (asking 2)) 7).reqSeq ∧ trspOf (sym (tset 0x4A 1 0 0 0 0x80 0) 8) 1 = 0 ∧
    (lane 4 0 [] (asking 2)).getF (R.LANE_EYE 7) F.LANE_EYE_REQS + 1 < 65536 ∧
    laneEqTarget (lane 4 0 [(R.LANE_CFG 7, fv [(F.LANE_CFG_EQ_TARGET, 100)])] (asking 2)) 7 = 100 ∧
    (∀ m : Fin 128, m.val ∈ [5, 20, 127] → acts (.trainingSetReceived 7 (tset 0x4A 1 0 0 0 0x80 0) false m 1)
      (lane 4 0 [(R.LANE_CFG 7, fv [(F.LANE_CFG_EQ_TARGET, 100)])] (asking 2)) = true) := by decide +kernel
theorem test_training_end : acts (.trainingSetReceived 7 (tset 0xB5 1 6 0 0 0 0) false 0 1) (lane 4 0 [] { noLane with eqDone := true }) = true ∧
    bitOf (sym (tset 0xB5 1 6 0 0 0 0) 5) 1 = true ∧ sym (tset 0xB5 1 6 0 0 0 0) 1 = 0xB5 ∧ setAccepted (tset 0xB5 1 6 0 0 0 0) = true ∧
    acts (.trainingSetReceived 7 (tset 0xB5 1 6 0 0 0 0) false 0 1) (lane 5 0 [] { noLane with run := 7, sent := 15 }) = true ∧
    laneEnc (lane 5 0 [] noLane) 7 = false ∧ laneEnc (lane 5 0 [(R.LANE_ENC 7, 1)] noLane) 7 = true ∧ bitOf (sym (tset 0xB5 1 6 0 0 0 0) 5) 2 = true ∧
    acts (.trainingSetReceived 7 (tset 0x4A 1 6 0 0 0 0) false 0 1) (lane 6 0 [] noLane) = true := by decide +kernel

/-- Lane 7 UP and the node 9, with a route to node 5 on lane 6. -/
def linked (enc : Word) (l : Lane) : State := lane 6 0 ([(R.DLNK_NODE, 9), (R.DLNK_ROUTE 1, 0x8600), (R.LANE_STAT 6, 6), (R.LANE_ENC 7, enc)] ++ streaming) l
/-- A packet without payload: type, LSEQ, ENC, destination 9 or another, hops, address, argument. -/
def pkt (ty q : Nat) (enc : Bool) (dst hops addr arg : Nat) : Packet := ⟨BitVec.ofNat 32 (ty + 2 ^ 16 * q + 2 ^ 28 * b2n enc),
  BitVec.ofNat 32 (dst + 2 ^ 8 * 5 + 2 ^ 24 * hops), BitVec.ofNat 32 addr, BitVec.ofNat 32 arg, [], if enc then List.replicate 16 0#8 else []⟩
theorem test_draught_hyps : (∀ ty ∈ [0x01, 0x02, 0x03, 0x10, 0x11, 0x30, 0x40, 0x55], arrives (linked 0 noLane) 7 (pkt ty 0 false 9 15 0 0) = true ∧
      pkTy (pkt ty 0 false 9 15 0 0) = ty) ∧
    pkSeq (pkt 1 4095 false 9 15 0 0) = 4095 ∧ duplicate (linked 0 noLane) 7 4095 = true ∧ duplicate (linked 0 noLane) 7 2048 = true ∧
    duplicate (linked 0 noLane) 7 2047 = false ∧ duplicate (linked 0 noLane) 7 1 = false ∧
    pkEnc (pkt 1 0 true 9 15 0 0) = true ∧ arrives (linked 0 noLane) 7 (pkt 1 0 true 9 15 0 0) = true ∧ laneEnc (linked 0 noLane) 7 = false ∧
    addressed (linked 0 noLane) 9 = true ∧ addressed (linked 0 noLane) 5 = false ∧ addressed (linked 0 noLane) 0 = false ∧ routeOf (linked 0 noLane) 5 = some 6 ∧
    laneUp (linked 0 noLane) 6 = true ∧ pkDst (pkt 1 0 false 5 0 0 0) = 5 ∧ bitsOf (pkt 1 0 false 5 0 0 0).w1.toNat 24 4 = 0 ∧
    typeDefined 0x55 = false ∧ rdMalformed (pkt 1 0 false 9 15 0 31) = false ∧ rdMalformed (pkt 1 0 false 9 15 0 32) = true ∧
    authMalformed (pkt 0x40 0 false 9 15 0 1) = false ∧ authOp (pkt 0x40 0 false 9 15 0 4).w3.toNat = 4 ∧
    strOpen (linked 0 noLane) 15 = true ∧ acts (.draughtCredit 7 (pkt 0x11 0 false 9 15 15 1)) (linked 0 noLane) = true ∧
    acts (.draughtBadCrc 7) (linked 0 noLane) = true := by decide +kernel
/-- A session with a key of zeros. -/
def session : Sess := ⟨List.replicate 16 0#8, 0, 0, 0⟩
theorem test_draught_tag : openPkt session (pkPkt { pkt 1 0 true 9 15 0 0 with tag := List.replicate 16 0#8 }) = none ∧
    laneEnc (linked 1 { noLane with sess := some session }) 7 = true ∧ arrives (linked 1 { noLane with sess := some session }) 7 (pkt 1 0 true 9 15 0 0) = true := by
  decide +kernel
/-- A replay buffer with the packets 4 and 5. -/
def replaying : Lane := { noLane with replay := [sealPkt 4 none (mkPkt 0x01 5 9 0 15 0 0 []), sealPkt 5 none (mkPkt 0x01 5 9 0 15 0 0 [])], txSeq := 6 }
theorem test_link_hyps : (replaying.replay.map pktSeq) = [4, 5] ∧ arrives (linked 0 replaying) 7 (pkt 0x20 0 false 0 0 0 4) = true ∧
    (pkt 0x20 0 false 0 0 0 4).w3.toNat % 4096 = 4 ∧ acts (.draughtAck 7 (pkt 0x20 0 false 0 0 0 4)) (linked 0 replaying) = true ∧
    (∀ k : Fin 16, (strmOf (linked 0 replaying) k).closed = false) ∧ pkFramed (pkt 0x21 0 false 0 0 0 4) = true ∧
    (∀ r : Fin 2, acts (.draughtNak 7 (pkt 0x21 0 false 0 0 0 4)) (linked 0 { replaying with replays := 7 + r }) = true) ∧
    acts (.replayTimeout 7) (linked 0 replaying) = true ∧ acts (.ackTimer 7) (linked 0 { noLane with ackDue := 1 }) = true ∧
    acts (.draughtKeyx 7 (pkt 0x30 0 false 0 0 0 0)) (linked 1 { noLane with keyx := some ([], 0) }) = true ∧
    acts (.draughtKeyx 7 (pkt 0x30 0 false 0 0 0 0)) (linked 1 noLane) = true ∧
    p256onCurve (0, 0) = false ∧ p256onCurve (p256gx, p256gy) = true ∧
    acts (.streamPacketClose 15) { linked 0 noLane with dl := { (linked 0 noLane).dl with str := [(15, ⟨[7#8], false⟩)] } } = true := by
  decide +kernel
/-- A request waits. -/
def requested (ty : Nat) (pay : List Nat) : State :=
  { linked 0 noLane with dl := { (linked 0 noLane).dl with rq := [⟨7, ty, 5, 3, 0xA0040, 0, pay⟩] } }
theorem test_requests : canHang { requested 2 [6] with dl := { (requested 2 [6]).dl with rq := [] } } .dlnk 0xA0040 (some 6) = true ∧ live (requested 1 []) = true ∧ outstanding (requested 1 []) .dlnk = false ∧
    readEnds { requested 1 [] with dl := { (requested 1 []).dl with rq := [] } } .dlnk 0xA0040 1 [] = true ∧
    writeEnds { requested 2 [6] with dl := { (requested 2 [6]).dl with rq := [] } } .dlnk 0xA0040 [6] [] = true ∧
    acts (.draughtRequestPerform []) (requested 1 []) = true ∧ acts (.draughtRequestPerform []) (requested 2 [6]) = true := by
  decide +kernel
theorem test_draught_waits : (let s : State := { linked 1 { noLane with sess := some session } with bist := { noBist with isol := [58] } }
    engines s = false ∧ pkEnc (pkt 1 0 true 9 15 0 0) = true ∧ arrives s 7 (pkt 1 0 true 9 15 0 0) = true ∧ engines (linked 1 noLane) = true) := by
  decide +kernel

/-- Port 7 with its line at a level, its configuration, other registers, and what it holds. -/
def portAt (line : Bool) (cfg : Word) (more : List (Nat × Word)) (u : Uart) : State := { atRunWith ([(R.UART_CFG 7, cfg),
  (R.UART_STAT 7, BitVec.ofNat 32 (2 ^ 18 * b2n line)), (R.UART_MAP 7, 0)] ++ more) with uart := ⟨[(7, u)], 0x1B20⟩ }
def port (cfg : Word) (more : List (Nat × Word)) (u : Uart) : State := portAt true cfg more u
/-- Enabled, 8 data bits, a mode, a parity, the signalling of errors. -/
def mode (m par sig : Nat) : Word := fv [(F.UART_CFG_EN, 1), (F.UART_CFG_MODE, m), (F.UART_CFG_DBITS, 8), (F.UART_CFG_PARITY, par), (F.UART_CFG_SIG, sig)]
/-- A reception with its bits decided, all high or all low. -/
def received (v : Bool) (n : Nat) : URx := ⟨0, 0, 0, 1, none, [], List.replicate n (v, false)⟩
theorem test_uart_hyps : uartLive (port (mode 0 0 0) [] noUart) 7 = true ∧ (uartOf (port (mode 0 0 0) [] noUart) 7).rx = none ∧
    uartLive State.reset 0 = false ∧ uartLive atRun 0 = true ∧
    acts (.uartStartEdge 7 9) (portAt false (mode 0 0 0) [] noUart) = true ∧ acts (.uartStartEdge 0 9) atRun = true ∧
    (∀ b : Bool, acts (.uartCharReceived 7 none) (portAt false (mode 0 0 0) [] { noUart with rx := some (received b 10) }) = true) ∧
    acts (.uartCharReceived 7 none) (portAt false (mode 1 1 1) [] { noUart with rx := some ⟨0, 0, 0, 1, none, [], (false, false) :: List.replicate 11 (true, false)⟩ }) = true ∧
    (∀ b : Bool, acts (.uartCharReceived 0 (some 5)) { atRun with uart := ⟨[(0, { noUart with rx := some (received b 10) })], 0x1B20⟩ } = true) := by
  decide +kernel
theorem test_uart_queues : accepts (port (mode 0 0 0) [] noUart) .hsp (R.UART_TXQ 7) 5 = true ∧ acceptsRead (port (mode 0 0 0) [] noUart) .hsp (R.UART_RXQ 7) = true ∧
    (uartOf (port 0 [] { noUart with txq := List.replicate 64 0 }) 7).txq.length = 64 ∧
    accepts (port 0 [] { noUart with txq := List.replicate 64 0 }) .hsp (R.UART_TXQ 7) 5 = true ∧
    acts (.uartCharSent 7) (port (mode 0 0 0) [] { noUart with tx := some (5, 0), txq := [6], age := ⟨9000, none⟩ }) = true ∧
    acts (.uartCharSent 7) (port (mode 2 0 0) [] { noUart with txf := [3, 4, 5], txq := [6], back := true, age := ⟨9000, none⟩ }) = true ∧
    (∀ c ∈ [7#8, 0x0D#8], acts (.uartCharSent 0) { atRun with mon := { noMon with out := [7#8], reply := 1, store := [(c, false)] }, uart := ⟨[(0, { noUart with age := ⟨9000, none⟩ })], 0x1B20⟩ } = true) ∧
    acts (.uartScRepeat 7) (portAt false (mode 1 1 1) [] { noUart with tx := some (5, 0), age := ⟨9000, none⟩ }) = true := by decide +kernel
theorem test_uart_settings : accepts (port 0 [] noUart) .hsp (R.UART_CFG 7) (mode 0 0 0) = true ∧ accepts (port (mode 0 0 0) [] noUart) .hsp (R.UART_CFG 7) (mode 0 0 0 - 1) = true ∧
    acts (.uartCfgWrite .hsp 7 (mode 0 0 0)) (port 0 [] noUart) = true ∧ accepts atRun .hsp (R.UART_CFG 7) (mode 2 2 0) = true ∧
    atRun.getF (R.UART_MAP 7) F.UART_MAP_RX_NIB = 0x1FF ∧ accepts atRun .hsp (R.UART_BAUD 0) 0x1B20 = true := by decide +kernel
/-- Port 7 in a field of a frame, with one character of all bits high but the start bit; identifier 60 is received with one byte. -/
def framed (fr : Nat) (u : Uart) : State := port (mode 2 0 0) [(R.UART_IDTAB 7 60, fv [(F.UART_IDTAB_LEN, 1), (F.UART_IDTAB_DIR, 1)])]
  { u with fr := fr, rx := some ⟨0, 0, 0, 1, none, [], (false, false) :: List.replicate 9 (true, false)⟩ }
theorem test_frames : accepts (port (mode 2 0 0) [] noUart) .hsp (R.UART_FCMD 7) (withField 60 F.UART_FCMD_GO 1) = true ∧
    acts (.uartFcmd .hsp 7 60 true) (port (mode 2 0 0) [] noUart) = true ∧
    (∀ b : Bool, acts (.uartBreak 7) (portAt false (mode 2 0 0) [] { noUart with rx := some (received b 11) }) = true) ∧
    acts (.uartResponseTimeout 7) (port (mode 2 0 0) [] { noUart with fr := 3 }) = true ∧
    acts (.uartBitError 7 12 (some 5)) (port (mode 2 0 0) [] { noUart with txf := [1, 2, 3], age := ⟨5425, none⟩ }) = true ∧
    (let s := portAt false (mode 2 0 0) [] { noUart with txf := [1, 2, 3], age := ⟨5859, none⟩ };
      bitAt (uartN s 7) (clkCount s 7 (uartOf s 7).age) = 13 ∧ lineHigh s 7 = false ∧ uartLive s 7 = true) ∧
    acts (.uartBitError 7 0 (some 5)) (port (mode 2 0 0) [] { noUart with txf := [4, 4, 5], txq := [1, 2], age := ⟨217, none⟩ }) = true ∧
    acts (.uartBitError 7 1 none) (portAt false (mode 2 0 0) [] { noUart with txf := [4, 4, 5], txv := 1, txq := [1, 2], rx := some (received false 9) }) = true := by decide +kernel
theorem test_frame_fields : (∀ f : Fin 5, acts (.uartCharReceived 7 (some 5)) (framed (f + 1) noUart) = true) ∧
    uartLive (framed 1 noUart) 7 = true ∧ pidOf 60 % 64 = 60 ∧ (∀ d : Fin 4, (port (mode 2 0 0) [(R.UART_IDTAB 7 60, fv [(F.UART_IDTAB_DIR, d)])] noUart).getF
      (R.UART_IDTAB 7 60) F.UART_IDTAB_DIR = d) := by decide +kernel
/-- A fall after a false start, within a character, and after its last bit; on UART0 as well. -/
theorem test_uart_resync : (∀ e ∈ [(true, 3), (false, 0), (false, 10)], lineHigh (portAt false (mode 0 0 0) [] noUart) 7 = false ∧
      acts (.uartResyncEdge 7 900 1000) (portAt false (mode 0 0 0) [] { noUart with rx := some (received e.1 e.2) }) = true ∧
      acts (.uartResyncEdge 0 900 1000) { atRun with uart := ⟨[(0, { noUart with rx := some (received e.1 e.2) })], 0x1B20⟩ } = true) ∧
    uartBits (port (mode 0 0 0) [] noUart) 7 = 10 ∧ uartMode (port (mode 0 0 0) [] noUart) 7 = 0 := by decide +kernel

/-- Self-test options: logic and memory tests, repair or not; the targets 57 and 60; a pass under way or not. -/
def bistAt (rep : Nat) (st : Nat) (more : List (Nat × Word)) (b : Bist) : State := { atRunWith ([(R.BIST_SEL1, 0x12000000), (R.BIST_CTRL, fv [(F.BIST_CTRL_LBIST, 1), (F.BIST_CTRL_MBIST, 1),
    (F.BIST_CTRL_REPAIR_EN, rep)]), (R.BIST_STAT, BitVec.ofNat 32 st)] ++ more) with bist := b }
/-- A pass over target 57, and 60 after it or not. -/
def passing (rep : Bool) (todo : List Nat) : State := bistAt (b2n rep) 1 [(R.ISL_GEN_STAT 65, 0x320001)]
  { noBist with run := [(57, 0)], isol := [57], todo := todo, pass := some ⟨false, true, true, false, rep, 1⟩ }
theorem test_bist_hyps : accepts (bistAt 0 0 [] noBist) .hsp R.BIST_CMD (withField 0 F.BIST_CMD_START 1) = true ∧ selTargets (bistAt 0 0 [] noBist) R.BIST_SEL0 = [57, 60] ∧
    acts (.bistStart .hsp 0) (bistAt 0 0 [] noBist) = true ∧ domSt (bistAt 0 0 [] noBist) 57 = 0 ∧ domBusy (bistAt 0 0 [] noBist) 57 = 0 ∧
    domBusy (bistAt 0 0 [] noBist) 60 = 0 ∧ domBusy (bistAt 0 0 [(R.UART_CFG 7, 1)] noBist) 60 ≠ 0 ∧
    domSt { bistAt 0 0 [] noBist with pwr := { atRun.pwr with dom := [(60, 1)] } } 60 = 1 ∧ bistState (passing false []) = 1 ∧
    accepts (passing false []) .hsp R.BIST_CMD (withField 0 F.BIST_CMD_ABORT 1) = true := by decide +kernel
theorem test_bist_targets : live (passing true [60]) = true ∧ domOn (passing true [60]) 61 = true ∧ genRuns (passing true [60]) 65 = true ∧
    firstWhere (fun e => e.1 == 57) (passing true [60]).bist.run = some (57, 0) ∧
    acts (.bistTargetDone 57 true [] []) (passing false [60]) = true ∧ acts (.bistTargetDone 57 false [] []) (passing false []) = true ∧
    faultOk 57 63 65535 127 = true ∧ acts (.bistTargetDone 57 false [(0, 8, 3)] []) (passing true []) = true ∧
    acts (.bistTargetDone 57 false [(0, 8, 3)] []) (passing false []) = true ∧ spareUsed (passing true []) 57 0 < sparesOf 57 := by decide +kernel

/-- Isolate-and-reinitialise; target 60 waits behind a prepared commit, or has its domain off; an ABORT with nothing under test. -/
def passingDestr (t : Nat) : State := { passing false [60] with
  bist := { (passing false [60]).bist with run := [(t, 0)], isol := [t], pass := some ⟨true, true, true, false, false, 1⟩ } }
theorem test_bist_destructive : (∀ t : Fin 4, let x : Fin 64 := atD 0 [5, 48, 57, 60] t
    acts (.bistTargetDone x false [] []) (passingDestr x) = true) ∧ (∀ k < 16, strOpen (passingDestr 57) k = false) ∧
    testWaits (passing false [60]) 60 = false ∧
    testWaits { passing false [60] with root := { atRun.root with cPhase := .prepare, cPages := [2], cApply := [.dom 60] } } 60 = true ∧
    acts (.bistTargetDone 57 false [] []) { passing false [60] with pwr := { atRun.pwr with dom := [(60, 1)] } } = true ∧
    acts (.bistAbort .hsp 0) { passing false [60] with bist := { (passing false [60]).bist with run := [], isol := [] } } = true ∧
    (firing false none).root.cPhase = .idle := by decide +kernel

/-- A line of the monitor is being performed. -/
def entered (s : State) (l : List Char) : State := { s with mon := { s.mon with line := some (ascii l, false) } }
theorem test_monitor_lines : (∀ c ∈ [0x0D#8, 0x0A#8, 0x41#8], acts (.monCharacterReceived c) { atRun with mon := { noMon with got := [c] } } = true) ∧
    monCmd (entered atRun ['i', 'd']) = some (.id, []) ∧ monCmd (entered atRun ['s', 't', 'a', 't']) = some (.stat, []) ∧
    monCmd (entered atRun ['r', 'd', ' ', 'A', '0', '0', '4', '0']) = some (.rd, [ascii ['A', '0', '0', '4', '0']]) ∧
    rdArgs [ascii ['A', '0', '0', '4', '0']] = some (0xA0040, 1) ∧ rdArgs [ascii ['A', '0', '0', '4', '0'], ascii ['1', '7']] = none ∧
    outstanding atRun .mon = false ∧ readEnds atRun .mon 0xA0040 1 [] = true ∧ writeEnds atRun .mon 0xA0040 [6] [] = true ∧
    (monCmd (entered atRun ['w', 'r', ' ', 'A', '0', '0', '4', '0', ' ', '6'])).map Prod.fst = some .wr ∧
    wrArgs [ascii ['A', '0', '0', '4', '0'], ascii ['6']] = some (0xA0040, 6) ∧ wrArgs [] = none ∧
    acts (.accessWedgeTimeout (.monitor 0 [])) (entered atRun ['w', 'r', ' ', 'A', '0', '0', '4', '0', ' ', '6']) = true ∧
    acceptsRead atRun .mon 0xA0040 = true ∧ violates (enterSlot atRun .mon) .mon 0x7 none = some .unimpl ∧
    monCmd (entered atRun ['x']) = none ∧ (atRunWith [(R.MON_CFG, 0x100)]).getF R.MON_CFG F.MON_CFG_IDLE_MIN ≠ 0 ∧
    acts .monIdleTimeout (atRunWith [(R.MON_CFG, 0x100)]) = true := by decide +kernel
theorem test_monitor_line_bounds : (∀ n ∈ [95, 96], acts (.monCharacterReceived 0x41#8) { atRun with mon := { noMon with got := [0x41], cur := List.replicate n 0#8 } } = true) ∧
    (∀ n ∈ [255, 256], acts (.monCharacterReceived 0x41#8) { entered atRun ['i', 'd'] with mon := { noMon with got := [0x41], line := some ([], false), store := List.replicate n (0#8, false) } } = true) := by
  decide +kernel
/-- The eight groups of a response or key. -/
def eightGroups : List Char := (List.range 8).flatMap (fun _ => [' ', '0', '1', '2', '3', '4', '5', 'a', 'B'])
theorem test_monitor_unlocks : monCmd (entered atRun ['u', 'n', 'l', 'o', 'c', 'k', ' ', 'p', 'w']) = some (.unlock, [tokPw]) ∧
    monCmd (entered atRun ['u', 'n', 'l', 'o', 'c', 'k', ' ', 'p', 'w', ' ', 'x']) = some (.unlock, [tokPw, ascii ['x']]) ∧
    monCmd (entered atRun ['c', 'h', 'a', 'l']) = some (.chal, []) ∧ monCmd (entered atRun ['l', 'o', 'c', 'k', ' ', '1']) = some (.lock, [ascii ['1']]) ∧
    hexBelow 1 (ascii ['1']) = some 1 ∧ hexBelow 1 (ascii ['2']) = none ∧ monCmd (entered atRun ['r', 'e', 's', 'e', 't']) = some (.reset, []) := by
  decide +kernel
theorem test_monitor_levels : effLevel atRun .mon = 2 ∧ effLevel { atRun with phase := .halt } .mon = 1 ∧
    (monCmd (entered atRun (['r', 'e', 's', 'p'] ++ eightGroups))).map Prod.fst = some .resp ∧
    ((monCmd (entered atRun (['r', 'e', 's', 'p'] ++ eightGroups))).bind (fun e => groupsOf e.2 8)).isSome = true ∧
    ((monCmd (entered atRun (['o', 't', 'p', ' ', 'k', 'e', 'y'] ++ eightGroups))).bind (fun e => groupsOf (e.2.drop 1) 8)).isSome = true ∧
    ((monCmd (entered atRun (['o', 't', 'p', ' ', 'k', 'e', 'y'] ++ eightGroups))).bind (fun e => e.2.head?)) = some tokKey ∧
    monCmd (entered atRun ['o', 't', 'p', ' ', 'p', 'w', ' ', 'a', 'a', 'a', 'a', 'a', 'a', 'a', 'a']) = some (.otp, [tokPw, ascii (List.replicate 8 'a')]) := by
  decide +kernel
theorem test_unlock_cases : lockedOut atRun .hsp = false ∧ lockedOut (atRunWith [(R.MON_STAT, 2 ^ 17)]) .hsp = true ∧ failsOf (atRunWith [(R.MON_STAT, 0x70)]) .hsp = 7 ∧
    atRun.mon.pwh = none ∧ chalOf atRun .hsp = none ∧ chalOf { atRun with mon := { noMon with chal := [(1, some [1#8])] } } .hsp = some [1#8] ∧
    acts (.challengeExpire .hsp) { atRun with mon := { noMon with chal := [(1, some [1#8])] } } = true := by decide +kernel
/-- An AUTH request waits. -/
def authWaits (arg : Nat) : State := { linked 0 noLane with dl := { (linked 0 noLane).dl with rq := [⟨7, 0x40, 5, 3, 0, arg, []⟩] } }
theorem test_path_unlocks : (∀ op ∈ [1, 2, 3, 4], accepts atRun .hsp R.MON_UL_CMD (ulWord 0 op) = true) ∧ live (authWaits 1) = true ∧
    acts (.authPassword none) (authWaits 1) = true ∧ acts (.authPassword none) (authWaits 5) = true ∧
    acts (.authChallenge none) (authWaits 2) = true ∧ acts (.authResponse none) (authWaits 3) = true ∧
    acts (.authLock none) (authWaits 4) = true := by decide +kernel

theorem test_balls : (∀ i : Fin 4, acts (.irqBallUpdate i) (atRunWith [(R.IRQ_BALL_STAT, 15)]) = true) ∧ acts (.tapExtest 0) State.reset = true ∧ acts .tapIdcode running = true ∧
    acts (.tapExtest 0) { State.reset with pwr := { State.reset.pwr with rstN := false } } = true ∧ acts (.tapBypass 9) running = true ∧ allGood { State.reset with pwr := { State.reset.pwr with rstN := false } } = true ∧ State.reset.phase = .reset ∧
    accepts atRun .hsp R.IRQ_HALT_CLR (withField 0 F.IRQ_HALT_CLR_CLR 1) = true := by decide +kernel

/-! Well-formedness: one ill-formed command for each check. -/

theorem test_refuses_lists : [Instr.rstNRelease [(2 ^ 32, [0])], .railSurvey [], .fsenseSurvey [1], .nibIdleSurvey [], .loadSurveyRun 0 [],
    .loadSurveyRun 0 [(0, 0), (0, 1), (0, 2), (0, 3)], .cableSurvey 0 [] .open, .blotterFrameRead [(0, 1), (0, 2)], .blotterReload [(3, 1), (3, 1)]].all
    (fun c => !c.wellFormed) = true := by decide +kernel
theorem test_refuses_bursts : [Instr.hspWrite 0 [] [], .hspWrite 0 [1] (List.replicate 33 .noclaim), .hspWrite 0 (List.replicate 33 0) [], .hspRead 0 0 (List.replicate 33 .noclaim),
    .hspWrite4 0 [] [], .hspRead4 0 0 (List.replicate 33 .noclaim), .hspUndefinedCommand 0x02, .hspCsEarlyRise 0 (some (List.replicate 33 0)) 0 [],
    .userWindowAccess .hsp 0 none, .draughtRequestPerform (List.replicate 33 .noclaim), .monRd (List.replicate 17 .noclaim)].all (fun c => !c.wellFormed) = true := by decide +kernel
theorem test_refuses_units : [Instr.commitUnitDecide [], .commitUnitApply [.dom 64], .commitApplyTimeout (.gen 66), .commitUnitDecide [.bank 7], .commitUnitApply [.fence 48],
    .memoryRead 0 .elem [(0, 1), (0, 1)] false, .memoryWrite .spill [(0, 1), (0, 1)] false, .uartResyncEdge 0 5 5,
    .bistTargetDone 0 false [] [(1, 2, 3)], .captureSample [(0, true), (0, false)] [] 0].all (fun c => !c.wellFormed) = true := by decide +kernel
/-- A packet that says one payload word and has none. -/
def short : Packet := ⟨0x100, 0, 0, 0, [], []⟩
theorem test_refuses_packets : [Instr.draughtRd 0 short, .draughtWr 0 short, .draughtCpl 0 short, .draughtStream 0 short, .draughtCredit 0 short, .draughtAck 0 short,
    .draughtNak 0 short, .draughtKeyx 0 short, .draughtUndefinedType 0 short, .authPassword (some (0, short)), .authChallenge (some (0, short)),
    .authResponse (some (0, short)), .authLock (some (0, short))].all (fun c => !c.wellFormed) = true := by decide +kernel
theorem test_accepts_commands : [Instr.powerOn, .hspRead 0 31 [], .draughtRd 0 (pkt 1 0 true 9 15 0 0), .uartResyncEdge 0 5 6].all Instr.wellFormed = true := by
  decide +kernel

end Sys2Proof.Tests
end

section
/-! PROOFS. What the commands of the test access port (R551 to R554), IRQ_BALL_UPDATE (R566, R567) and HALT_CLR (R563) do, and the
obligation on them. -/

namespace Sys2Proof.Machine

/-! ### One bit of a register -/

theorem bitOf_eq_testBit (n i : Nat) : bitOf n i = n.testBit i := by
  rw [Nat.testBit_eq_decide_div_mod_eq]; rfl

/-- A one-bit field is a bit of its register. -/
theorem flag_bit (s : State) (a i : Nat) : s.flag a ⟨i, 1⟩ = bitOf (s.regN a) i := rfl

theorem bitOf_setF_bit (s : State) (a : Nat) {i : Nat} (b : Bool) (hi : i < 32) (j : Nat) :
    bitOf ((s.setF a ⟨i, 1⟩ (b2n b)).regN a) j = if j = i then b else bitOf (s.regN a) j := by
  have hlt : withBits (s.reg a).toNat i 1 (b2n b) < 2 ^ 32 := withBits_lt (s.reg a).isLt hi
  simp only [bitOf_eq_testBit, State.regN, State.setF, reg_setReg_same, BitVec.toNat_ofNat, Nat.mod_eq_of_lt hlt,
    withBits_testBit]
  by_cases h : j = i
  · subst h; cases b <;> simp [b2n]
  · rw [if_neg (by omega), if_neg h]

/-- A state that differs in its registers alone, written out. -/
theorem RegsOnly.eq_with_regs {s t : State} (h : RegsOnly s t) : t = { s with regs := t.regs } := by
  obtain ⟨r, rfl⟩ := h; rfl

/-! ### The pads and balls under boundary scan -/

/-- Every code that is no other instruction's acts as BYPASS (R551). -/
theorem tapIns_eq_bypass {ir : Nat}
    (h : ∀ c ∈ [Config.irExtest, Config.irIdcode, Config.irSample, Config.irClamp, Config.irHighz], ir ≠ c) :
    tapIns ir = .bypass := by
  simp only [List.forall_mem_cons] at h
  obtain ⟨hExtest, hIdcode, hSample, hClamp, hHighz, -⟩ := h
  simp [tapIns, hExtest, hIdcode, hSample, hClamp, hHighz]

theorem tapDrive_eq_scanned (s : State) (c : Nat) (d : Option Bool) : tapDrive s c d = scanned s c d := by
  unfold tapDrive scanned
  cases s.pwr.rstN with
  | true => rfl
  | false =>
    generalize s.tap.ir = ir
    by_cases hExtest : ir = Config.irExtest
    · subst hExtest; rfl
    by_cases hClamp : ir = Config.irClamp
    · subst hClamp; rfl
    by_cases hHighz : ir = Config.irHighz
    · subst hHighz; rfl
    by_cases hIdcode : ir = Config.irIdcode
    · subst hIdcode; rfl
    by_cases hSample : ir = Config.irSample
    · subst hSample; rfl
    simp [tapIns, hExtest, hClamp, hHighz, hIdcode, hSample]

/-- From cell 336 on the boundary register captures what `ballAt` says. -/
theorem ballLevel_eq_ballAt (s : State) (others : BitVec 109) {c : Nat} (hc : 336 ≤ c) :
    ballLevel s others c = ballAt s others c := by
  have hown : ownBall s c = if c = 336 then some s.pwr.rstN else if c = 337 then some s.nib.haltBall
      else if c < 342 then some (!bitOf (s.regN R.IRQ_BALL_STAT) (c - 338))
      else if c = 342 then some (utxd s 0) else none := by
    unfold ownBall
    by_cases h336 : c = 336
    · rw [if_pos h336, if_pos h336]
    by_cases h337 : c = 337
    · rw [if_neg h336, if_pos h337, if_neg h336, if_pos h337]
    have h338 : 338 ≤ c := by omega
    simp only [h336, h337, h338, true_and, if_false, flag_bit]
  simp only [ballLevel, ballAt, hown, tapDrive_eq_scanned, inputCells, List.contains_iff_mem]

theorem captured_ballLevels (s : State) (others : BitVec 109) : Captured s others (ballLevels s others) := by
  refine ⟨by simp [ballLevels], fun n hn => ?_, fun i hi => ?_⟩
  · rw [ballLevels, List.getElem?_append_left (by simpa using hn)]
    simp [List.getElem?_range hn]
  · rw [ballLevels, List.getElem?_append_right (by simp)]
    simp [List.getElem?_range hi, ballLevel_eq_ballAt]

/-- A pad while every rail is good: what boundary scan makes of the nib's driver (R34, R554). -/
theorem padOf_drive {s : State} (hgood : allGood s = true) (n : Nat) : (padOf s n).drive =
    scanned s n (driverLevel (nibCfg s n F.NIB_NIB_CFG_MODE) (driverIn s n).1 (driverIn s n).2) := by
  simp [padOf, hgood, tapDrive_eq_scanned]

theorem scanned_of_cell {s : State} (hr : s.pwr.rstN = false)
    (hir : s.tap.ir = Config.irExtest ∨ s.tap.ir = Config.irClamp) (c : Nat) (d : Option Bool) :
    scanned s c d = some (atD false s.tap.bsr c) := by
  simp [scanned, hr, hir]

theorem scanned_of_highz {s : State} (hr : s.pwr.rstN = false) (hir : s.tap.ir = Config.irHighz) (c : Nat)
    (d : Option Bool) : scanned s c d = none := by
  simp [scanned, hr, hir, Config.irExtest, Config.irClamp, Config.irHighz]

/-! ### The commands of the port -/

/-- EXTEST, CLAMP and HIGHZ while RST_N is high: the bypass register captures 0 (R554). -/
theorem tapControl_released {s : State} (hr : s.pwr.rstN = true) (ir : Nat) (d : List Bool) :
    tapControl s ir d = tapTake s ir [false] := by
  simp [tapControl, hr]

theorem tapControl_held {s : State} (hr : s.pwr.rstN = false) (ir : Nat) (d : List Bool) :
    tapControl s ir d = tapTake s ir d := by
  simp [tapControl, hr]

/-- CLAMP and HIGHZ select the bypass register, whatever RST_N is. -/
theorem tapControl_bypass (s : State) (ir : Nat) : tapControl s ir [false] = tapTake s ir [false] := by
  rw [tapControl, ite_self]

theorem execTapBypass_of_free {code : BitVec 6} (s : State)
    (h : ∀ c ∈ [Config.irExtest, Config.irIdcode, Config.irSample, Config.irClamp, Config.irHighz], code.toNat ≠ c) :
    execTapBypass code s = .next (tapTake s code.toNat [false]) := by
  simp [execTapBypass, whenCan, tapIns_eq_bypass h]

theorem execTapExtest_released {s : State} (hr : s.pwr.rstN = true) (others : BitVec 109) :
    execTapExtest others s = .next (tapTake s Config.irExtest [false]) := by
  simp only [execTapExtest, tapControl_released hr]

theorem execTapExtest_held {s : State} (hr : s.pwr.rstN = false) (others : BitVec 109) :
    execTapExtest others s =
      .next (tapTake s Config.irExtest (ballLevels (tapTake s Config.irExtest []) others)) := by
  simp only [execTapExtest, tapControl_held hr]

theorem execTapClamp_eq (s : State) : execTapClamp s = .next (tapTake s Config.irClamp [false]) := by
  rw [execTapClamp, tapControl_bypass]

theorem execTapHighz_eq (s : State) : execTapHighz s = .next (tapTake s Config.irHighz [false]) := by
  rw [execTapHighz, tapControl_bypass]

/-! ### IRQ balls -/

theorem ballWanted_iff (s : State) (ball : Nat) : ballWanted s ball = true ↔ ∃ p ∈ allPages,
    bitsOf (s.regN (R.IRQ_MAP (p / 8))) (4 * (p % 8)) 4 = 8 + ball ∧ srcActive s p = true := by
  simp [ballWanted, routedTo]

theorem execIrqBallUpdate_out_of_reset {s : State} (h : s.phase ≠ .reset) (i : Fin 4) :
    execIrqBallUpdate i s = .next (s.setF R.IRQ_BALL_STAT ⟨i, 1⟩ (b2n (ballWanted s i))) := by
  rw [execIrqBallUpdate, if_neg h]

theorem execIrqBallUpdate_in_reset {s : State} (h : s.phase = .reset) (i : Fin 4) :
    execIrqBallUpdate i s = .next s := by
  rw [execIrqBallUpdate, if_pos h]

/-! ### The halt record -/

/-- The registers of the halt record (Table 19.5). -/
def haltRecord : List Nat := [R.IRQ_HALT_INFO, R.IRQ_HALT_TS_LO, R.IRQ_HALT_TS_HI, R.IRQ_HALT_A0, R.IRQ_HALT_A1]

theorem clearHaltRecord_reg (s : State) {a : Nat} (h : a ∈ haltRecord) : (clearHaltRecord s).reg a = 0 := by
  simp only [haltRecord, List.mem_cons, List.not_mem_nil, or_false] at h
  rcases h with rfl | rfl | rfl | rfl | rfl <;>
    simp [clearHaltRecord, R.IRQ_HALT_INFO, R.IRQ_HALT_TS_LO, R.IRQ_HALT_TS_HI, R.IRQ_HALT_A0, R.IRQ_HALT_A1]

theorem clearHaltRecord_regsKept (s : State) : regsKept (· ∈ haltRecord) s (clearHaltRecord s) :=
  (((((regsKept.refl _ s).setN (by simp [haltRecord]) 0).setN (by simp [haltRecord]) 0).setN
    (by simp [haltRecord]) 0).setN (by simp [haltRecord]) 0).setN (by simp [haltRecord]) 0

/-- HALT_CLR's field CLR, the only one of its register. -/
def haltClrFields : List FieldRow := [⟨0, 1, .wo, 0⟩]

/-- The word that HALT_CLR writes arrives at the block with CLR set. -/
theorem bitOf_mergeWord_haltClr (old w : Word) :
    bitOf (mergeWord old (withField w F.IRQ_HALT_CLR_CLR 1) haltClrFields).toNat 0 = true := by
  have hclr : (withField w F.IRQ_HALT_CLR_CLR 1).getLsbD 0 = true := by
    rw [withField, BitVec.getLsbD_ofNat, withBits_testBit]
    rfl
  rw [bitOf_eq_testBit, BitVec.testBit_toNat]
  simp [mergeWord, haltClrFields, fieldMask, hclr]

theorem execHaltClr_of_accepts {s : State} {p : Path} {w : Word}
    (h : accepts s p R.IRQ_HALT_CLR (withField w F.IRQ_HALT_CLR_CLR 1) = true) :
    execHaltClr p w s = .next (written (clearHaltRecord (enterSlot s p)) p R.IRQ_HALT_CLR) := by
  have hfields : regFields R.IRQ_HALT_CLR = some haltClrFields := by decide +kernel
  have hblock : blockWrite (enterSlot s p) (some p) .irq 0 (R.IRQ_HALT_CLR % 0x1000)
      (mergeWord (s.reg R.IRQ_HALT_CLR) (withField w F.IRQ_HALT_CLR_CLR 1) haltClrFields) true =
      .done (clearHaltRecord (enterSlot s p)) := by
    simp only [blockWrite, irqWrite, bitOf_mergeWord_haltClr]
    rfl
  exact hostWrite_block h (by decide) hfields (by decide) (by decide) (by decide) hblock

/-! ### The obligation -/

/-- Settles O60, clause by clause: what each command of the port loads and captures, the pads while RST_N is held low,
the IRQ balls out of and in a reset, the halt record. -/
theorem testPortAndBalls : Obligations.TestPortAndBalls := by
  unfold Obligations.TestPortAndBalls
  refine ⟨fun s others preload code => ?_, fun s n _ hr hgood => ?_, fun s i hph => ?_,
    fun s i hph => execIrqBallUpdate_in_reset hph i, fun s p w h => ?_⟩
  · exact ⟨rfl, rfl, execTapBypass_of_free s, ⟨_, rfl, captured_ballLevels s others⟩,
      fun hr => ⟨_, execTapExtest_held hr others, captured_ballLevels _ others⟩,
      fun hr => execTapExtest_released hr others, execTapClamp_eq s, execTapHighz_eq s⟩
  · rw [padOf_drive hgood]
    exact ⟨fun hir => scanned_of_cell hr hir n _, fun hir => scanned_of_highz hr hir n _⟩
  · have hbit := bitOf_setF_bit s R.IRQ_BALL_STAT (ballWanted s i) (i := i) (by omega)
    refine ⟨_, execIrqBallUpdate_out_of_reset hph i, ?_, fun j hj => ?_,
      (regsKept.refl (· = R.IRQ_BALL_STAT) s).setF rfl _ _, rfl⟩
    · rw [hbit, if_pos rfl, ballWanted_iff]
    · rw [hbit, if_neg hj]
  · refine ⟨_, execHaltClr_of_accepts h, fun a ha => clearHaltRecord_reg _ ha, fun a ha => ?_,
      (clearHaltRecord_only _).eq_with_regs⟩
    rw [clearHaltRecord_regsKept (enterSlot s p) a ha, enterSlot_reg]

end Sys2Proof.Machine
end

section
/-! PROOFS. What a generator that changes its source, gates or runs again brings with it (R168, R171, R175, R387), and what it
leaves alone: every operation behind `setGen` has a `ClockFrame`, the form of `ClocksOnly` that composes. -/

namespace Sys2Proof.Machine

variable {P Q : Nat → Prop} {s t u : State}

/-! ### What clocks leave alone -/

/-- A register in `P`, or one in which the ports and the TDC show what their clocks did. -/
def clockReg (P : Nat → Prop) (a : Nat) : Prop :=
  P a ∨ (∃ i < 7, a = R.UART_STAT (i + 1)) ∨ ∃ i < 4, a = R.TDC_TB_STAT i ∨ a = R.PAGE_IRQ_RAW (0x050 + i)

/-- A state with everything blanked that a change of clocks may change, so that two states agree on the rest when these agree. -/
def unclocked (s : State) : State :=
  { s with
    regs := [], freeCtr := 0, uart := ⟨[], 0⟩
    nib := { s.nib with cmp := [], inReg := [], outD := [], outE := [] }
    fab := { s.fab with crossed := [], crossQ := [] }
    cap := { s.cap with gap := false }
    tdc := { s.tdc with due := [], last := [], late := [] }
    trc := { s.trc with pair := [] } }

/-- `s` with the blanks of `unclocked` filled from `t`. -/
def withClocked (s t : State) : State :=
  { s with
    regs := t.regs, freeCtr := t.freeCtr, nib := nibSensed s.nib t.nib, uart := t.uart
    fab := { s.fab with crossed := t.fab.crossed, crossQ := t.fab.crossQ }
    cap := { s.cap with gap := t.cap.gap }, tdc := { s.tdc with due := t.tdc.due, last := t.tdc.last, late := t.tdc.late }
    trc := { s.trc with pair := t.trc.pair } }

/-- `ClocksOnly` in the form in which it composes. -/
structure ClockFrame (s t : State) (P : Nat → Prop) : Prop where
  regs : regsKept (clockReg P) s t
  rest : unclocked t = unclocked s

theorem clocksOnly_iff : ClocksOnly s t P ↔ ClockFrame s t P := by
  refine ⟨fun ⟨hr, h⟩ => ⟨hr, (congrArg unclocked h :)⟩, fun ⟨hr, h⟩ => ⟨hr, ?_⟩⟩
  calc t = withClocked (unclocked t) t := rfl
    _ = withClocked (unclocked s) t := by rw [h]
    _ = withClocked s t := rfl

theorem ClockFrame.phase (h : ClockFrame s t P) : t.phase = s.phase := (congrArg State.phase h.rest :)
theorem ClockFrame.surv (h : ClockFrame s t P) : t.surv = s.surv := (congrArg State.surv h.rest :)
theorem ClockFrame.clk (h : ClockFrame s t P) : t.clk = s.clk := (congrArg State.clk h.rest :)

theorem ClockFrame.refl (P : Nat → Prop) (s : State) : ClockFrame s s P := ⟨.refl _ s, rfl⟩

theorem ClockFrame.trans (h : ClockFrame s t P) (g : ClockFrame t u P) : ClockFrame s u P :=
  ⟨h.regs.trans g.regs, g.rest.trans h.rest⟩

theorem ClockFrame.mono (h : ClockFrame s t P) (hPQ : ∀ a, P a → Q a) : ClockFrame s t Q :=
  ⟨h.regs.mono fun a => Or.imp_left (hPQ a), h.rest⟩

theorem ClockFrame.ite {c : Prop} [Decidable c] (h : ClockFrame s t P) (g : ClockFrame s u P) :
    ClockFrame s (if c then t else u) P := by split <;> assumption

theorem ClockFrame.foldl {α : Type} {f : State → α → State} {l : List α} (h : ∀ s, ∀ a ∈ l, ClockFrame s (f s a) P)
    (s : State) : ClockFrame s (l.foldl f s) P := by
  induction l generalizing s with
  | nil => exact .refl P s
  | cons a l ih =>
    exact (h s a List.mem_cons_self).trans (ih (fun s b hb => h s b (List.mem_cons_of_mem a hb)) (f s a))

/-- An update beside the registers. -/
theorem ClockFrame.of_regs (hr : t.regs = s.regs) (h : unclocked t = unclocked s) : ClockFrame s t P :=
  ⟨(regsKept.refl _ s).of_regs hr, h⟩

theorem ClockFrame.uart (s : State) (x : Uarts) : ClockFrame s { s with uart := x } P := .of_regs rfl rfl

/-- An update of registers alone. -/
theorem ClockFrame.of_regsOnly (h : RegsOnly s t) (hr : regsKept (clockReg P) s t) : ClockFrame s t P := by
  obtain ⟨r, rfl⟩ := h
  exact ⟨hr, rfl⟩

theorem ClockFrame.setN {a : Nat} (ha : clockReg P a) (n : Nat) (s : State) : ClockFrame s (s.setN a n) P :=
  .of_regsOnly ((RegsOnly.refl s).setN a n) ((regsKept.refl _ s).setN ha n)

theorem ClockFrame.setF {a : Nat} (ha : clockReg P a) (f : Fld) (v : Nat) (s : State) : ClockFrame s (s.setF a f v) P :=
  .of_regsOnly ((RegsOnly.refl s).setF a f v) ((regsKept.refl _ s).setF ha f v)

theorem ClockFrame.irqBit {p : Nat} (hp : clockReg P (R.PAGE_IRQ_RAW p)) (i : Nat) (s : State) :
    ClockFrame s (s.irqBit p i) P :=
  .of_regsOnly ((RegsOnly.refl s).irqBit p i) ((regsKept.refl _ s).irqBit hp i)

/-! ### Banks and ports -/

theorem senseNib_clockFrame (s : State) (n : Nat) : ClockFrame s (senseNib s n) P := by
  unfold senseNib
  split
  · exact .of_regs rfl rfl
  · exact .of_regs rfl rfl

theorem loadOut_clockFrame (s : State) (n : Nat) : ClockFrame s (loadOut s n) P := by
  unfold loadOut
  split
  · split <;> exact .of_regs rfl rfl
  · exact .of_regs rfl rfl
  · exact .of_regs rfl rfl

theorem setRxLine_clockFrame (s : State) {i : Nat} (hi : i < 7) (v : Bool) : ClockFrame s (setRxLine s (i + 1) v) P := by
  have hline := ClockFrame.setF (P := P) (.inr (.inl ⟨i, hi, rfl⟩)) F.UART_STAT_LINE (b2n v) s
  unfold setRxLine
  dsimp only
  split
  · exact hline.trans (.uart _ _)
  · exact hline

theorem lineFollows_clockFrame (s : State) (n : Nat) : ClockFrame s (lineFollows s n) P :=
  .foldl (fun t _ hi => .ite (setRxLine_clockFrame t (List.mem_range.mp hi) _) (.refl P t)) s

theorem refreshLines_clockFrame (s : State) : ClockFrame s (refreshLines s) P :=
  .foldl (fun t _ hi => .ite (setRxLine_clockFrame t (List.mem_range.mp hi) _) (.refl P t)) s

theorem takeInput_clockFrame (s : State) (n : Nat) : ClockFrame s (takeInput s n) P := by
  refine .trans ?_ (lineFollows_clockFrame _ n)
  exact .of_regs rfl rfl

theorem readBack_clockFrame (s : State) (n : Nat) : ClockFrame s (readBack s n) P :=
  .ite ((senseNib_clockFrame s n).trans (takeInput_clockFrame _ n)) (senseNib_clockFrame s n)

theorem driveOut_clockFrame (s : State) (n : Nat) : ClockFrame s (driveOut s n) P :=
  .ite ((loadOut_clockFrame s n).trans (readBack_clockFrame _ n)) (.refl P s)

theorem followPort_clockFrame (s : State) (n : Nat) : ClockFrame s (followPort s n) P :=
  .ite (driveOut_clockFrame s n) (.refl P s)

theorem takeCrossing_clockFrame (s : State) (x j n : Nat) : ClockFrame s (takeCrossing s x j n) P := by
  have hstep (t : State) (v : Nat) : ClockFrame t (followPort (setCrossed t x j v) n) P := by
    refine .trans ?_ (followPort_clockFrame _ n)
    exact .of_regs rfl rfl
  refine .trans ?_ (.foldl (fun t v _ => hstep t v) _)
  exact .of_regs rfl rfl

theorem sampleNib_clockFrame (s : State) (n : Nat) : ClockFrame s (sampleNib s n) P := by
  have hin := takeInput_clockFrame (P := P) s n
  unfold sampleNib
  dsimp only
  split
  · exact .ite (hin.trans (driveOut_clockFrame _ _)) hin
  · exact hin

theorem resumeOut_clockFrame (s : State) (n : Nat) : ClockFrame s (resumeOut s n) P := by
  unfold resumeOut
  split
  · exact .ite (takeCrossing_clockFrame s _ _ n) (driveOut_clockFrame s n)
  · exact driveOut_clockFrame s n

theorem refreshBank_clockFrame (s : State) (k : Nat) : ClockFrame s (refreshBank s k) P :=
  (ClockFrame.foldl (fun t n _ => sampleNib_clockFrame t n) s).trans (.foldl (fun t n _ => resumeOut_clockFrame t n) _)

/-! ### TDC -/

theorem countBreak_clockFrame (s : State) {i : Nat} (hi : i < 4) : ClockFrame s (countBreak s i) P := by
  have hbreaks : clockReg P (R.TDC_TB_STAT i) := .inr (.inr ⟨i, hi, .inl rfl⟩)
  have hirq : clockReg P (R.PAGE_IRQ_RAW (0x050 + i)) := .inr (.inr ⟨i, hi, .inr rfl⟩)
  exact (ClockFrame.setF hbreaks _ _ s).trans (.irqBit hirq 16 _)

theorem tdcDue_clockFrame (f : Nat) (s : State) (c : Nat) : ClockFrame s (tdcDue f s c) P := .of_regs rfl rfl

theorem tdcForget_clockFrame (s : State) (h : Nat) : ClockFrame s (tdcForget s h) P := .of_regs rfl rfl

theorem tdcBreak_clockFrame (s : State) {h : Nat} (hh : h < 2) : ClockFrame s (tdcBreak s h) P := by
  have hcount := (countBreak_clockFrame (P := P) s (i := 2 * h) (by omega)).trans
    (countBreak_clockFrame _ (i := 2 * h + 1) (by omega))
  have hdue (l : List Nat) (t : State) : ClockFrame t (l.foldl (tdcDue 1) t) P :=
    .foldl (fun t c _ => tdcDue_clockFrame 1 t c) t
  exact (hcount.trans (tdcForget_clockFrame _ h)).trans (hdue _ _)

/-! ### Generators -/

theorem genHook_clockFrame (s : State) (g : Nat) : ClockFrame s (genHook s g) P := by
  have hports : ClockFrame s (portsTurn s) P := .of_regs rfl rfl
  unfold genHook
  split
  · exact .ite (refreshBank_clockFrame s _) (.of_regs rfl rfl)
  split
  · exact .ite (.of_regs rfl rfl) (.refl P s)
  split
  · exact .ite (hports.trans (refreshLines_clockFrame _)) hports
  split
  · exact tdcBreak_clockFrame s (by omega)
  · exact .refl P s

theorem genPre_clockFrame (s : State) (g : Nat) : ClockFrame s (genPre s g) P := .ite (.of_regs rfl rfl) (.refl P s)

theorem setGenStat_clockFrame (s : State) (g act cause mhz : Nat) :
    ClockFrame s (setGenStat s g act cause mhz) (· = R.ISL_GEN_STAT g) := by
  have hstat : clockReg (· = R.ISL_GEN_STAT g) (R.ISL_GEN_STAT g) := .inl rfl
  exact .setN hstat _ s

/-- A generator takes a status, and its units follow. -/
theorem genTurn_clockFrame (s : State) (g act cause mhz : Nat) :
    ClockFrame s (genHook (setGenStat (genPre s g) g act cause mhz) g) (· = R.ISL_GEN_STAT g) :=
  ((genPre_clockFrame s g).trans (setGenStat_clockFrame _ g act cause mhz)).trans (genHook_clockFrame _ g)

theorem syncFollower_clockFrame (g : Nat) (s : State) (f : Nat) :
    ClockFrame s (syncFollower g s f) (· = R.ISL_GEN_STAT f) :=
  .ite (genTurn_clockFrame s f 3 0 _) (genTurn_clockFrame s f 0 4 _)

/-- The settings and the states of the generators are no registers of the ports or of the TDC. -/
theorem clockReg_isl_iff {a : Nat} (h : 0x5000 ≤ a ∧ a < 0x6000 ∨ a % 16 = 8) : clockReg P a ↔ P a := by
  simp only [clockReg, R.UART_STAT, R.TDC_TB_STAT, R.PAGE_IRQ_RAW, or_iff_left_iff_imp]
  rintro (⟨i, hi, rfl⟩ | ⟨i, hi, rfl | rfl⟩) <;> omega

theorem ClockFrame.reg_genStat (h : ClockFrame s t P) {g : Nat} (hg : ¬ P (R.ISL_GEN_STAT g)) :
    t.reg (R.ISL_GEN_STAT g) = s.reg (R.ISL_GEN_STAT g) :=
  h.regs _ (mt (clockReg_isl_iff (.inr (by simp only [R.ISL_GEN_STAT]; omega))).mp hg)

theorem genStat_ne_of_ne {f g : Nat} (h : f ≠ g) : R.ISL_GEN_STAT g ≠ R.ISL_GEN_STAT f := by
  simp only [R.ISL_GEN_STAT]; omega

theorem ne_of_mem_followers {f g : Nat} (h : f ∈ followers s g) : f ≠ g := by
  simp only [followers, List.mem_filter, Bool.and_eq_true, bne_iff_ne] at h
  obtain ⟨-, ⟨-, hne⟩, -⟩ := h
  exact hne

/-- Who follows whom rests on the settings and the phase. -/
theorem ClockFrame.followers_eq (h : ClockFrame s t P) {g : Nat} (hP : ∀ f < 66, ¬ P (R.ISL_GEN_CFG f)) :
    followers t g = followers s g := by
  unfold followers
  refine List.filter_congr fun f hf => ?_
  have hf : f < 66 := List.mem_range.mp hf
  have hcfg : t.reg (R.ISL_GEN_CFG f) = s.reg (R.ISL_GEN_CFG f) :=
    h.regs _ (mt (clockReg_isl_iff (.inl (by simp only [R.ISL_GEN_CFG]; omega))).mp (hP f hf))
  simp only [genKind, surveyOwns, State.getF, hcfg, h.phase]

theorem followers_genTurn (s : State) (g act cause mhz : Nat) :
    followers (genHook (setGenStat (genPre s g) g act cause mhz) g) g = followers s g :=
  (genTurn_clockFrame s g act cause mhz).followers_eq fun f _ => by
    simp only [R.ISL_GEN_CFG, R.ISL_GEN_STAT]; omega

theorem setGen_clockFrame (s : State) (g act cause mhz : Nat) : ClockFrame s (setGen s g act cause mhz)
    (fun a => a = R.ISL_GEN_STAT g ∨ ∃ f ∈ followers s g, a = R.ISL_GEN_STAT f) := by
  refine ((genTurn_clockFrame s g act cause mhz).mono fun _ => .inl).trans ?_
  refine .foldl (fun t f hf => (syncFollower_clockFrame g t f).mono fun a ha => .inr ⟨f, ?_, ha⟩) _
  rwa [followers_genTurn] at hf

theorem setGen_genStat (s : State) (g act cause mhz : Nat) :
    (setGen s g act cause mhz).reg (R.ISL_GEN_STAT g) = BitVec.ofNat 32 (act + 16 * cause + 65536 * mhz) := by
  have hfollow : ClockFrame _ (setGen s g act cause mhz) (· ≠ R.ISL_GEN_STAT g) :=
    .foldl (fun t f hf => (syncFollower_clockFrame g t f).mono fun a ha => by
      rw [ha]; exact (genStat_ne_of_ne (ne_of_mem_followers hf)).symm) _
  have hhook := genHook_clockFrame (P := fun _ => False) (setGenStat (genPre s g) g act cause mhz) g
  rw [hfollow.reg_genStat (fun h => h rfl), hhook.reg_genStat id, setGenStat, reg_setN_same]

end Sys2Proof.Machine
end

section
/-! PROOFS. The ways out of Steep and the first way out of Germinate (R77, R79, R81, R84, R87, R88, R265), and the obligation on
them. -/

namespace Sys2Proof.Machine

variable {P : Nat → Prop} {s t u : State}

/-! ### The clocks of the survey are given back -/

/-- The registers of PLL0 and of the monitor of REF0. -/
def surveyClockReg (a : Nat) : Bool := (0x4100 ≤ a && a < 0x4140) || (0x4040 ≤ a && a < 0x4050)

/-- The states of generator 58 and of those that follow it. -/
def surveyGenReg (s : State) (a : Nat) : Prop := a = R.ISL_GEN_STAT 58 ∨ ∃ f ∈ followers s 58, a = R.ISL_GEN_STAT f

theorem steepGenBack_clockFrame (s : State) : ClockFrame s (steepGenBack s) (surveyGenReg s) :=
  .ite (.refl _ s) (setGen_clockFrame s 58 1 0 50)

/-- Generator 58 is back on the oscillator (R386). -/
theorem steepGenBack_gen58 (s : State) : genActive (steepGenBack s) 58 = 1 ∧ genMhz (steepGenBack s) 58 = 50 := by
  unfold steepGenBack
  split
  · next h => exact h.symm
  · simp only [genActive, genMhz, State.getF, setGen_genStat]
    decide

theorem steepClocksBack_reg (s : State) (a : Nat) :
    (steepClocksBack s).reg a = if surveyClockReg a then resetOf a else (steepGenBack s).reg a := by
  have h := tabGet_filter_regs (steepGenBack s).regs (fun a => !surveyClockReg a) a
  calc (steepClocksBack s).reg a
    _ = if (!surveyClockReg a) = true then (steepGenBack s).reg a else resetOf a := h
    _ = _ := by cases surveyClockReg a <;> rfl

theorem steepClocksBack_reg_kept {a : Nat} (h : surveyClockReg a = false) :
    (steepClocksBack s).reg a = (steepGenBack s).reg a := by
  rw [steepClocksBack_reg, h]
  rfl

theorem steepClocksBack_reg_reset {a : Nat} (h : surveyClockReg a = true) : (steepClocksBack s).reg a = resetOf a := by
  rw [steepClocksBack_reg, h]
  rfl

theorem steepClocksBack_clk (s : State) : (steepClocksBack s).clk =
    { s.clk with
      pll := tabSet (fun _ => noPll) s.clk.pll 0 noPll, goodWin := (steepClocksBack s).clk.goodWin
      disq := (steepClocksBack s).clk.disq } := by
  rw [← (steepGenBack_clockFrame s).clk]
  rfl

theorem pllX_steepClocksBack (s : State) (k : Nat) : pllX (steepClocksBack s) k = if k = 0 then noPll else pllX s k := by
  rw [pllX, steepClocksBack_clk, tabGet_tabSet, pllX]

theorem steepClocksBack_rest (s : State) :
    unclocked (steepClocksBack s) = { unclocked s with clk := (steepClocksBack s).clk } := by
  rw [← (steepGenBack_clockFrame s).rest]
  rfl

/-- The clocks given back, as a frame (R77, R386). -/
theorem steepClocksBack_clockFrame (s : State) : ClockFrame { s with clk := (steepClocksBack s).clk } (steepClocksBack s)
    (fun a => surveyGenReg s a ∨ surveyClockReg a = true) := by
  refine ⟨fun a ha => ?_, steepClocksBack_rest s⟩
  have hsurvey : surveyClockReg a = false := by
    rw [← Bool.not_eq_true]
    exact fun h => ha (.inl (.inr h))
  rw [steepClocksBack_reg_kept hsurvey]
  exact (steepGenBack_clockFrame s).regs a fun h => ha (h.imp_left .inl)

/-! ### The results are reported -/

/-- A bit of IRQ_RAW that is set stays set when an event sets another. -/
theorem irqBit_keeps (s : State) (p i : Nat) {j : Nat} (h : (s.reg (R.PAGE_IRQ_RAW p)).getLsbD j = true) :
    ((s.irqBit p i).reg (R.PAGE_IRQ_RAW p)).getLsbD j = true := by
  rw [reg_irqBit_same, BitVec.getLsbD_or, h, Bool.true_or]

/-- Steep is done, with `m` mismatches (R79, R84). -/
def reportDone (s : State) (m : Nat) : State :=
  ((s.setF R.SURV_STATUS F.SURV_STATUS_DONE 1).irqBit 0x003 0).setN R.SURV_MISMATCH_CNT m

/-- There is a mismatch (R87). -/
def reportMismatch (s : State) : State := (s.setF R.SURV_STATUS F.SURV_STATUS_MISMATCH 1).irqBit 0x003 1

/-- The report of `m` mismatches. -/
def steepReport (s : State) (m : Nat) : State := if m = 0 then reportDone s m else reportMismatch (reportDone s m)

/-- The registers of that report. -/
def reportReg (a : Nat) : Prop := a = R.SURV_STATUS ∨ a = R.SURV_MISMATCH_CNT ∨ a = R.PAGE_IRQ_RAW 0x003

theorem steepReport_regsOnly (s : State) (m : Nat) : RegsOnly s (steepReport s m) := by
  have hdone : RegsOnly s (reportDone s m) := (((RegsOnly.refl s).setF _ _ _).irqBit _ _).setN _ _
  unfold steepReport
  split
  · exact hdone
  · exact (hdone.setF _ _ _).irqBit _ _

theorem steepReport_regsKept (s : State) (m : Nat) : regsKept reportReg s (steepReport s m) := by
  have hstat : reportReg R.SURV_STATUS := .inl rfl
  have hirq : reportReg (R.PAGE_IRQ_RAW 0x003) := .inr (.inr rfl)
  have hdone : regsKept reportReg s (reportDone s m) :=
    (((regsKept.refl _ s).setF hstat _ _).irqBit hirq 0).setN (.inr (.inl rfl)) m
  exact .ite hdone ((hdone.setF hstat _ _).irqBit hirq 1)

/-- What `m` mismatches, if any, are reported as. -/
def Reported (m : Nat) (s : State) : Prop :=
  s.flag R.SURV_STATUS F.SURV_STATUS_DONE = true ∧ s.regN R.SURV_MISMATCH_CNT = m % 2 ^ 32 ∧
    (s.reg (R.PAGE_IRQ_RAW 0x003)).getLsbD 0 = true

theorem reported_reportDone (s : State) (m : Nat) : Reported m (reportDone s m) := by
  refine ⟨?_, regN_setN_same _ _ _, ?_⟩
  · rw [reportDone, State.flag, State.getF, reg_setN_other _ _ (by decide), reg_irqBit_other _ (by decide), ← State.getF,
      getF_setF_same _ _ _ _ (by decide)]
    rfl
  · rw [reportDone, reg_setN_other _ _ (by decide)]
    exact irqBit_sets _ _ (by decide)

theorem Reported.reportMismatch {m : Nat} (h : Reported m s) : Reported m (reportMismatch s) := by
  obtain ⟨hdone, hcount, hirq⟩ := h
  unfold Machine.reportMismatch
  refine ⟨?_, ?_, irqBit_keeps _ _ _ ?_⟩
  · rw [State.flag, State.getF, reg_irqBit_other _ (by decide), ← State.getF, getF_setF_field _ _ _ (by decide) (by decide)]
    exact hdone
  · rw [State.regN, reg_irqBit_other _ (by decide), reg_setF_other _ _ _ (by decide)]
    exact hcount
  · rwa [reg_setF_other _ _ _ (by decide)]

theorem reported_steepReport (s : State) (m : Nat) : Reported m (steepReport s m) := by
  unfold steepReport
  split
  · exact reported_reportDone s m
  · exact (reported_reportDone s m).reportMismatch

theorem steepReport_mismatch (s : State) {m : Nat} (h : m ≠ 0) :
    (steepReport s m).flag R.SURV_STATUS F.SURV_STATUS_MISMATCH = true ∧
      ((steepReport s m).reg (R.PAGE_IRQ_RAW 0x003)).getLsbD 1 = true := by
  rw [steepReport, if_neg h, reportMismatch]
  refine ⟨?_, irqBit_sets _ _ (by decide)⟩
  rw [State.flag, State.getF, reg_irqBit_other _ (by decide), ← State.getF, getF_setF_same _ _ _ _ (by decide)]
  rfl

/-! ### The end of Steep -/

/-- Steep has taken `d` microseconds, which is kept for Kiln (R84). The lemmas take any `d`: `phaseUs s` in its place would be
unfolded, with its 2 ^ 48, wherever `s` is compared with this state. -/
def steepTimed (s : State) (d : Nat) : State := { s with surv := { s.surv with durSteep := d } }

/-- The state that the end of Steep after `d` microseconds makes of `s`, before the phase that comes next begins. -/
def steepEnded (s : State) (d : Nat) : State := steepReport (steepClocksBack (steepTimed s d)) (mismatches s).length

theorem execSteepEnd_eq (s : State) : execSteepEnd s = whenCan s (s.phase == .steep && steepDone s)
    (if checkFailed s || (mismatches s).length != 0 then { steepEnded s (phaseUs s) with phase := .steepHold }
      else germinate (steepEnded s (phaseUs s))) := rfl

theorem steepEnded_regsOnly (s : State) (d : Nat) : RegsOnly (steepClocksBack (steepTimed s d)) (steepEnded s d) :=
  steepReport_regsOnly _ _

theorem steepEnded_phase (s : State) (d : Nat) : (steepEnded s d).phase = s.phase :=
  (steepEnded_regsOnly s d).phase.trans (steepClocksBack_clockFrame _).phase

theorem steepEnded_surv (s : State) (d : Nat) : (steepEnded s d).surv = { s.surv with durSteep := d } :=
  (steepEnded_regsOnly s d).surv.trans (steepClocksBack_clockFrame _).surv

theorem steepEnded_clk (s : State) (d : Nat) : (steepEnded s d).clk = (steepClocksBack (steepTimed s d)).clk :=
  (steepEnded_regsOnly s d).clk

/-- Beside the report, the registers stand as the clocks given back left them. -/
theorem steepEnded_reg (s : State) (d : Nat) {a : Nat} (h : ¬ reportReg a) :
    (steepEnded s d).reg a = (steepClocksBack (steepTimed s d)).reg a :=
  steepReport_regsKept _ _ a h

/-- The registers that the end of Steep changes by itself. -/
def steepEndReg (s : State) (a : Nat) : Prop := reportReg a ∨ surveyGenReg s a ∨ surveyClockReg a = true

theorem steepEnded_clockFrame (s : State) (d : Nat) :
    ClockFrame { s with surv := (steepEnded s d).surv, clk := (steepEnded s d).clk } (steepEnded s d) (steepEndReg s) := by
  rw [steepEnded_surv, steepEnded_clk]
  have hback := (steepClocksBack_clockFrame (steepTimed s d)).mono (Q := steepEndReg s) fun _ h => .inr h
  have hreport := (steepReport_regsKept (steepClocksBack (steepTimed s d)) (mismatches s).length).mono
    (Q := clockReg (steepEndReg s)) fun _ h => .inl (.inl h)
  exact hback.trans (.of_regsOnly (steepEnded_regsOnly s d) hreport)

theorem steepEnded_gen58 (s : State) (d : Nat) :
    genActive (steepEnded s d) 58 = 1 ∧ genMhz (steepEnded s d) 58 = 50 := by
  have hreg : (steepEnded s d).reg (R.ISL_GEN_STAT 58) = (steepGenBack (steepTimed s d)).reg (R.ISL_GEN_STAT 58) := by
    rw [steepEnded_reg s d (by simp only [reportReg]; decide), steepClocksBack_reg_kept (by decide)]
  have h := steepGenBack_gen58 (steepTimed s d)
  simpa only [genActive, genMhz, State.getF, hreg] using h

/-- PLL0 and the monitor of REF0 stand at their reset values (R77). -/
theorem steepEnded_reg_reset (s : State) (d : Nat) {a : Nat} (h : surveyClockReg a = true) :
    (steepEnded s d).reg a = resetOf a := by
  rw [steepEnded_reg, steepClocksBack_reg_reset h]
  rintro (rfl | rfl | rfl) <;> exact absurd h (by decide)

theorem pllX_steepEnded (s : State) (d k : Nat) : pllX (steepEnded s d) k = if k = 0 then noPll else pllX s k := by
  rw [pllX, steepEnded_clk]
  exact pllX_steepClocksBack (steepTimed s d) k

theorem ClockFrame.setPhase (h : ClockFrame s t P) (p : Phase) : ClockFrame { s with phase := p } { t with phase := p } P :=
  ⟨h.regs, (congrArg (fun u : State => { u with phase := p }) h.rest :)⟩

/-- The end of Steep, whichever phase comes next. -/
theorem steepLeft_steepEnded (s : State) {d : Nat} (hd : d = phaseUs s) (p : Phase) :
    SteepLeft s { steepEnded s d with phase := p } := by
  have hclk : (steepEnded s d).clk = { s.clk with
      pll := (steepEnded s d).clk.pll, goodWin := (steepEnded s d).clk.goodWin, disq := (steepEnded s d).clk.disq } := by
    rw [steepEnded_clk, steepClocksBack_clk]
    rfl
  have hsurv : (steepEnded s d).surv = { s.surv with durSteep := phaseUs s } := hd ▸ steepEnded_surv s d
  obtain ⟨hdone, hcount, hirq⟩ := reported_steepReport (steepClocksBack (steepTimed s d)) (mismatches s).length
  obtain ⟨hactive, hmhz⟩ := steepEnded_gen58 s d
  refine ⟨hdone, hcount, hirq, fun h => steepReport_mismatch _ (mt List.length_eq_zero_iff.mp h),
    fun a hlo hhi => ?_, fun a hlo hhi => ?_, hactive, hmhz, pllX_steepEnded s d 0, fun k hk => ?_, hsurv, hclk,
    clocksOnly_iff.mpr ?_⟩
  · exact steepEnded_reg_reset s d (by simp [surveyClockReg, hlo, hhi])
  · exact steepEnded_reg_reset s d (by simp [surveyClockReg, hlo, hhi])
  · exact (pllX_steepEnded s d k).trans (if_neg hk)
  · refine ((steepEnded_clockFrame s d).setPhase p).mono fun a ha => ?_
    simpa [steepEndReg, reportReg, surveyGenReg, surveyClockReg, or_assoc] using ha

/-! ### The override -/

/-- A write of OVERRIDE that is accepted acts at the root (R88). -/
theorem performWrite_override (s : State) (p : Path) (w : Word) (fs : List FieldRow)
    (hfs : fs.any (fun f => f.ty == .rws) = false) :
    performWrite s p (R.SURV_OVERRIDE / 0x1000) .surv 0 R.SURV_OVERRIDE w fs none = overrideOp s w := by
  simp [performWrite, hfs, rootWrite, steepHolds, R.SURV_OVERRIDE]

/-- OVERRIDE's fields: GO and KEY. -/
def overrideFields : List FieldRow := [⟨24, 8, .wo, 0⟩, ⟨0, 1, .wo, 0⟩]

theorem regFields_override : regFields R.SURV_OVERRIDE = some overrideFields := by decide +kernel

theorem execSurveyOverride_done {p : Path} {w : Word} (h : accepts s p R.SURV_OVERRIDE w = true)
    (hop : overrideOp (enterSlot s p) w = .done u) :
    exec (.surveyOverride p w) s = .next (written u p R.SURV_OVERRIDE) :=
  hostWrite_performed h rfl regFields_override ((performWrite_override _ p w _ rfl).trans hop)

/-- A refusal is answered on its path, on the fabric path with a pulse of its port (R113, R121, Table 7.3). -/
theorem answer_refused (s : State) (p : Path) : answer s p .refused [] =
    { respond s p .refused [] with fab := { s.fab with mp := if p = .fab then .err 2 0 else s.fab.mp } } := by
  cases p <;> rfl

/-- What recording and answering a refusal comes to (R98, R121). -/
theorem refused_of_recordRefusal (s : State) (p : Path) (a c : Nat) :
    Refused s p a c (.next (answer (recordRefusal (enterSlot s p) (a / 0x1000) p a true c) p .refused [])) := by
  generalize hpage : a / 0x1000 = page
  have hregs : (answer (recordRefusal (enterSlot s p) page p a true c) p .refused []).regs =
      (recordRefusal (enterSlot s p) page p a true c).regs := answer_regs _ _ _ _
  have hkept : regsKept (fun b => b = R.PAGE_ERR_CODE page ∨ b = R.PAGE_ERR_ADDR page ∨ b = R.PAGE_IRQ_RAW page)
      (enterSlot s p) (recordRefusal (enterSlot s p) page p a true c) :=
    (((regsKept.refl _ _).setN (.inl rfl) _).setN (.inr (.inl rfl)) _).irqBit (.inr (.inr rfl)) 30
  have hcode : R.PAGE_ERR_CODE page ≠ R.PAGE_ERR_ADDR page ∧ R.PAGE_ERR_CODE page ≠ R.PAGE_IRQ_RAW page ∧
      R.PAGE_ERR_ADDR page ≠ R.PAGE_IRQ_RAW page := by
    simp only [R.PAGE_ERR_CODE, R.PAGE_ERR_ADDR, R.PAGE_IRQ_RAW]
    omega
  obtain ⟨hca, hci, hai⟩ := hcode
  refine ⟨_, rfl, by rw [respOf_answer, if_pos rfl], fun q hq => ?_, ?_, ?_, ?_, fun b hb => ?_, ?_⟩
  · rw [respOf_answer, lastData_answer, if_neg hq, if_neg hq]
    simp [respOf, lastData]
  · rw [hpage, reg_congr hregs, recordRefusal, reg_irqBit_other _ hci, reg_setN_other _ _ hca, reg_setN_same]
  · rw [hpage, reg_congr hregs, recordRefusal, reg_irqBit_other _ hai, reg_setN_same]
    rfl
  · rw [hpage, reg_congr hregs]
    exact irqBit_sets _ _ (by decide)
  · rw [hpage] at hb
    rw [reg_congr hregs, hkept b hb, enterSlot_reg]
  · obtain ⟨r, hr⟩ := recordRefusal_only (enterSlot s p) page p a true c
    rw [hr, answer_refused, ← enterSlot_fab s p]
    rfl

theorem execSurveyOverride_refused {p : Path} {w : Word} {c : Nat} (h : accepts s p R.SURV_OVERRIDE w = true)
    (hop : overrideOp (enterSlot s p) w = .refuse c) :
    Refused s p R.SURV_OVERRIDE c (exec (.surveyOverride p w) s) := by
  have hexec : exec (.surveyOverride p w) s = _ :=
    hostWrite_refused h rfl regFields_override ((performWrite_override _ p w _ rfl).trans hop)
  rw [hexec]
  exact refused_of_recordRefusal s p R.SURV_OVERRIDE c

/-- What the block answers to GO (R88). -/
theorem overrideOp_of_go {s : State} {w : Word} (hgo : bitOf w.toNat 0 = true) : overrideOp s w =
    if s.phase ≠ .steepHold then .refuse 0x01
    else if checkFailed s || !s.flag R.SURV_STATUS F.SURV_STATUS_MISMATCH then .refuse 0x02
    else .done (germinate (s.setF R.SURV_STATUS F.SURV_STATUS_OVERRIDDEN 1)) := by
  simp [overrideOp, hgo]

@[simp] theorem checkFailed_enterSlot (s : State) (p : Path) : checkFailed (enterSlot s p) = checkFailed s := by
  simp [checkFailed]

/-! ### The first way out of Germinate -/

theorem leNat_lt (bs : List Byte) : leNat bs < 256 ^ bs.length := by
  induction bs with
  | nil => simp [leNat]
  | cons b bs ih =>
    have hb := b.isLt
    rw [leNat, List.length_cons, Nat.pow_succ]
    omega

theorem length_tabRead {β : Type} (d : Nat → β) (m : Tab β) (k n : Nat) : (tabRead d m k n).length = n := by
  induction m generalizing k n with
  | nil => simp [tabRead]
  | cons e m ih =>
    rw [tabRead]
    split
    · exact ih k n
    split
    · simp
    · simp [ih]; omega

theorem flashWord_lt (s : State) (a : Nat) : flashWord s a < 2 ^ 32 := by
  have h := leNat_lt (flashBytes s a 4)
  rwa [flashBytes, length_tabRead] at h

/-- What Germinate reads of the flash rests on nothing else. -/
theorem devReason_congr (h : t.cfg.flash = s.cfg.flash) : devReason t = devReason s := by
  simp only [devReason, devAddr, devCount, hdrWord, flashWord, flashBytes, h]
  congr

theorem devReason_lt (s : State) : devReason s < 3 := by
  unfold devReason
  dsimp only
  split
  · omega
  · split <;> omega

/-- Germinate as it begins: the image fields are shown and the device section is read (R264). -/
def germBegun (s : State) : State :=
  readFlash (imageFields { s with phase := .germinate, surv := { s.surv with t0 := s.root.ts } }) (devAddr s)
    (16 + 8 * devCount s)

/-- The registers of the image fields (Table 8.3). -/
def imageRegs : List Nat :=
  [R.CFGC_DESIGN_ID, R.CFGC_IMG_INFO, R.CFGC_FILLED0, R.CFGC_FILLED1, R.CFGC_CRIT0, R.CFGC_CRIT1]

theorem imageFields_regsKept (s : State) : regsKept (· ∈ imageRegs) s (imageFields s) :=
  ((((((regsKept.refl _ s).setN (by simp [imageRegs]) _).setN (by simp [imageRegs]) _).setN (by simp [imageRegs]) _).setN
    (by simp [imageRegs]) _).setN (by simp [imageRegs]) _).setN (by simp [imageRegs]) _

theorem imageFields_designId (s : State) : (imageFields s).regN R.CFGC_DESIGN_ID = hdrWord s 2 := by
  simp (disch := decide) only [imageFields, State.regN, reg_setN_other, reg_setN_same]
  exact BitVec.toNat_ofNat _ _ ▸ Nat.mod_eq_of_lt (flashWord_lt s 8)

theorem imageFields_imgInfo (s : State) : (imageFields s).regN R.CFGC_IMG_INFO = hdrWord s 10 := by
  simp (disch := decide) only [imageFields, State.regN, reg_setN_other, reg_setN_same]
  exact BitVec.toNat_ofNat _ _ ▸ Nat.mod_eq_of_lt (flashWord_lt s 40)

theorem germinate_of_devReason (h : devReason s ≠ 0) : germinate s = germFail (germBegun s) (devReason s) 0 0x3F 0 := by
  have hread : devReason (germBegun s) = devReason s := devReason_congr rfl
  rw [← hread] at h ⊢
  exact if_pos h

/-- The register that says why Germinate failed, and the one that raises its interrupt (R265). -/
def germFailRegs : List Nat := [R.CFGC_GERM_ERR, R.PAGE_IRQ_RAW 0x003]

theorem germFail_regsKept (s : State) (reason record isl kind : Nat) :
    regsKept (· ∈ germFailRegs) s (germFail s reason record isl kind) :=
  (((regsKept.refl _ s).setN (by simp [germFailRegs]) _).of_regs rfl).irqBit (by simp [germFailRegs]) 2

theorem germFail_err (s : State) (reason record isl kind : Nat) : (germFail s reason record isl kind).reg R.CFGC_GERM_ERR =
    BitVec.ofNat 32 (reason + 16 * record + 2 ^ 16 * isl + 2 ^ 24 * kind) := by
  rw [germFail, reg_irqBit_other _ (by decide)]
  exact reg_setN_same s _ _

theorem germFail_irq (s : State) (reason record isl kind : Nat) :
    ((germFail s reason record isl kind).reg (R.PAGE_IRQ_RAW 0x003)).getLsbD 2 = true :=
  irqBit_sets _ _ (by decide)

theorem germFail_state (s : State) (reason record isl kind : Nat) : germFail s reason record isl kind =
    { s with phase := .germFail, regs := (germFail s reason record isl kind).regs } := rfl

theorem germBegun_state (s : State) : germBegun s =
    { s with
      phase := .germinate, regs := (germBegun s).regs, surv := { s.surv with t0 := s.root.ts }
      cfg := { s.cfg with read := (germBegun s).cfg.read } } := rfl

theorem germBegun_regs (s : State) : (germBegun s).regs = (imageFields s).regs := rfl

/-- A failed check of the device section ends Germinate at once (R265). -/
theorem germinate_device_fails (s : State) (h : devReason s ≠ 0) :
    (germinate s).phase = .germFail ∧ (germinate s).getF R.CFGC_GERM_ERR F.CFGC_GERM_ERR_REASON = devReason s ∧
    (germinate s).getF R.CFGC_GERM_ERR F.CFGC_GERM_ERR_ISL = 0x3F ∧
    ((germinate s).reg (R.PAGE_IRQ_RAW 0x003)).getLsbD 2 = true := by
  have hlt := devReason_lt s
  rw [germinate_of_devReason h]
  refine ⟨rfl, ?_, ?_, germFail_irq _ _ _ _ _⟩
  · rw [State.getF, germFail_err]
    simp only [F.CFGC_GERM_ERR_REASON, bitsOf, BitVec.toNat_ofNat]
    omega
  · rw [State.getF, germFail_err]
    simp only [F.CFGC_GERM_ERR_ISL, bitsOf, BitVec.toNat_ofNat]
    omega

/-- What such a Germinate changes in the registers. -/
theorem germinate_device_fails_regsKept (s : State) (h : devReason s ≠ 0) :
    regsKept (· ∈ imageRegs ++ germFailRegs) s (germinate s) := by
  rw [germinate_of_devReason h]
  have hbegun : regsKept (· ∈ imageRegs) s (germBegun s) := (imageFields_regsKept s).of_regs (germBegun_regs s)
  exact (hbegun.mono fun _ => List.mem_append_left _).trans
    ((germFail_regsKept _ _ _ _ _).mono fun _ => List.mem_append_right _)

/-- A register of the image fields reads as they set it. -/
theorem germinate_device_fails_reg {s : State} (h : devReason s ≠ 0) {a : Nat} (ha : a ∉ germFailRegs) :
    (germinate s).reg a = (imageFields s).reg a := by
  rw [germinate_of_devReason h, germFail_regsKept _ _ _ _ _ a ha, reg_congr (germBegun_regs s)]

theorem germinate_device_fails_state {s : State} (h : devReason s ≠ 0) : germinate s =
    { s with
      phase := (germinate s).phase, regs := (germinate s).regs, surv := { s.surv with t0 := s.root.ts }
      cfg := { s.cfg with read := (germinate s).cfg.read } } := by
  rw [germinate_of_devReason h, germFail_state, germBegun_state]

/-! ### The obligation -/

/-- Settles O13: the frame of the clocks given back and the report of the results make the ways out of Steep; the root's
answer to OVERRIDE and the first check of the device section make the others. -/
theorem steepEnds : Obligations.SteepEnds := by
  unfold Obligations.SteepEnds
  refine ⟨fun s hph hdone hbad => ?_, fun s hph hdone hok hmatch => ?_, fun s p w h hgo hph hok hmis => ?_,
    fun s p w h hgo => ⟨fun hph => ?_, fun hph hbad => ?_⟩, fun u hwhy => ?_⟩
  · refine ⟨_, ?_, rfl, steepLeft_steepEnded s rfl .steepHold⟩
    show execSteepEnd s = _
    rw [execSteepEnd_eq, whenCan_of (by simp [hph, hdone]), if_pos (by simpa using hbad)]
  · refine ⟨steepEnded s (phaseUs s), ?_, (steepEnded_phase s _).trans hph,
      steepLeft_steepEnded s rfl (steepEnded s _).phase⟩
    show execSteepEnd s = _
    rw [execSteepEnd_eq, whenCan_of (by simp [hph, hdone]), if_neg (by simp [hok, hmatch])]
  · exact execSurveyOverride_done h (by simp [overrideOp_of_go hgo, hph, hok, hmis])
  · exact execSurveyOverride_refused h (by simp [overrideOp_of_go hgo, hph])
  · exact execSurveyOverride_refused h (by rcases hbad with hbad | hbad <;> simp [overrideOp_of_go hgo, hph, hbad])
  · obtain ⟨hphase, hreason, hisl, hirq⟩ := germinate_device_fails u hwhy
    refine ⟨hphase, hreason, hisl, hirq, ?_, ?_, germinate_device_fails_regsKept u hwhy, germinate_device_fails_state hwhy⟩
    · rw [State.regN, germinate_device_fails_reg hwhy (by decide), ← State.regN, imageFields_designId]
    · rw [State.regN, germinate_device_fails_reg hwhy (by decide), ← State.regN, imageFields_imgInfo]

end Sys2Proof.Machine
end
